-- ==== Sys2Proof/Word.lean ====
section
/-! DEFINITION. The widths in which the FH6400 holds bits: bytes, register words and the wrapping
numbers of its wire formats, with little-endian composition (R8). -/
namespace Sys2Proof

/-- One byte in memory, on flash or on a wire. -/
abbrev Byte := BitVec 8

/-- One 32-bit register (Notation, "Registers are 32 bits wide"). -/
abbrev Word := BitVec 32

/-- A 24-bit packet sequence number (R79) or queue-pair number (R73). -/
abbrev Psn := BitVec 24

/-- A 64-bit double word. -/
abbrev DWord := BitVec 64

/-- The bytes of a number, least significant first (R8), `n` of them. -/
def leBytes : Nat → Nat → List Byte
  | 0, _ => []
  | n + 1, v => BitVec.ofNat 8 v :: leBytes n (v / 256)

/-- The number that bytes form, least significant first (R8). -/
def leNat : List Byte → Nat
  | [] => 0
  | b :: bs => b.toNat + 256 * leNat bs

/-- `len` bytes of a byte string from offset `off`, read as a little-endian number; bytes beyond the
end count as 0. -/
def leField (bs : List Byte) (off len : Nat) : Nat := leNat ((bs.drop off).take len)

end Sys2Proof
end

