-- ==== Sys2Proof/Syntax.lean ====
section
/-! DEFINITION. The commands of the FH6400: one constructor of `Instr` for each row of
spec/opcode_table.json, those with operands first, and before it the types of their operands. A command is a
register access, an operation of a protocol, an event at a pin, or a step that the FH6400 takes on its
own; the rule that governs it is cited beside its constructor. -/
namespace Sys2Proof

/-! ### The chip's units and register windows (chapters 1 and 2) -/

/-- Which base address register an access goes through (R7, R529, R597). -/
inductive Bar where
  | bar0 | bar2 | bar4
deriving DecidableEq, Repr

/-- The units that follow the enable and stop convention (R17). Queue pairs are named by context index,
drives by attach point. -/
inductive UnitId where
  | slice (s : Nat)
  | port (p : Nat)
  | qp (q : Nat)
  | mdc
  | att (a : Nat)
  | lane (l : Nat)
deriving DecidableEq, Repr

/-- What happened to a unit's current sequence in the beat just ended (R18, step 1). -/
inductive SeqEvent where
  | none
  | done
  | fail (code : Nat)
deriving DecidableEq, Repr

/-- The register windows of R25: which block, and which slice for the directory window. -/
inductive WinId where
  | ctx | bmp | mr | tag | ns | dir (s : Nat) | red | keySlot | layout | tree | grainRec | seg | hwm
  | mdcTag | drvCmd | drvPreempt | rep | memCh
deriving DecidableEq, Repr

/-- The engines of a slice that the scheduler feeds (R12, R34). -/
inductive Engine where
  | wpe | fpu (u : Nat) | snc (c : Nat) | snd (c : Nat) | gcm (e : Nat) | ecu
deriving DecidableEq, Repr

/-! ### The transport (chapter 3) -/

/-- Priorities A and B of a port (R64). -/
inductive Prio where
  | a | b
deriving DecidableEq, Repr

/-- What a received Ethernet frame carries, as far as R63 tells frames apart. -/
inductive FrameKind where
  | arp | ndp | icmpEcho | lldp | roce | other
deriving DecidableEq, Repr

/-- A received Ethernet frame (R63), from its destination address to its FCS. -/
structure Frame where
  bytes : List Byte
deriving DecidableEq, Repr

/-- The reliable-connected operations (R71), with the ones the FH6400 does not serve. -/
inductive RcOp where
  | send | sendInv | write | readReq | readResp | atomic
deriving DecidableEq, Repr

/-- Where a packet stands in its message. -/
inductive PktPos where
  | only | first | middle | last
deriving DecidableEq, Repr

/-- RETH: remote address, R_Key and length (R96, R97). -/
structure Reth where
  va : Nat
  rkey : Word
  len : Nat
deriving DecidableEq, Repr

/-- The multipath extension header (R88). -/
structure Mpeth where
  msgId : BitVec 16
  pktIdx : Nat
  pktLast : Nat
  offset : Nat
  path : Nat
  msgAck : BitVec 16
  msgLen : Nat
deriving DecidableEq, Repr

/-- A packet of the reliable-connected transport as it reaches the core (R71 to R74, R88): with the length of its frame, the priorities of its
802.1Q tags and its DSCP (R63, R64). -/
structure Packet where
  dqpn : Psn
  sqpn : Psn
  op : RcOp
  pos : PktPos
  psn : Psn
  icrcOk : Bool
  ecnCe : Bool
  frameLen : Nat
  tags : List Nat
  dscp : Nat
  imm : Option Word
  reth : Option Reth
  mp : Option Mpeth
  payload : List Byte
deriving DecidableEq, Repr

/-- What a register write brings: the value, and the bits that the hardware sets in the same core cycle (R6). -/
structure WriteData where
  val : DWord
  race : DWord := 0
deriving DecidableEq, Repr

/-- Where a packet arrived, a host port or else Crediox, and the queue-pair number in it (R73, R74). -/
structure QpAddr where
  via : Option Nat
  dqpn : Psn
deriving DecidableEq, Repr

/-- A path of a queue pair (R88). -/
structure QpPath where
  q : Nat
  path : Nat
deriving DecidableEq, Repr

/-- What an RNR NAK says: the PSN refused and the timer's encoding (R80). -/
structure RnrNak where
  psn : Psn
  timer : Nat
deriving DecidableEq, Repr

/-- A placed write that arrives whole: its R_Key and its bytes (R97, R454). -/
structure WholePut where
  key : Word
  bytes : List Byte
deriving DecidableEq, Repr

/-- A NAK's kind (R72, R79, R97, R78). -/
inductive NakKind where
  | seqErr | invalidReq | remoteAccess | remoteOp
deriving DecidableEq, Repr

/-- What a work item sends (R71). -/
inductive WorkOp where
  | send | sendInv (key : Word) | sendImm (imm : Word) | write (va : Nat) (key : Word)
  | writeImm (va : Nat) (key : Word) (imm : Word) | read (va : Nat) (key : Word) (len : Nat)
deriving DecidableEq, Repr

/-- Who posted a work item, and what its acknowledgement or return concerns (R85, R86). -/
inductive Producer where
  | completion (tag : Nat)        -- the completion capsule of a tag
  | hostData (tag : Nat)          -- read data to a host, by RDMA WRITE
  | hostFetch (tag : Nat)         -- write data from a host, by RDMA READ
  | mirrorPut (slice grp : Nat)   -- the mirror put of a region group
  | releasePut (slice idx : Nat)  -- the release put of a directory entry
  | linkMsg (mtype : Nat)         -- a link message on a mirror context
  | fwd (tag : Nat)               -- a forwarded command, its data or its completion
  | replication (session : Nat)   -- a replication message
  | steward                       -- the steward firmware's own traffic
deriving DecidableEq, Repr

/-- A work item: what to send, its bytes, its producer, and the wait condition (WAIT_QP, WAIT_COUNT)
of R85. -/
structure WorkItem where
  op : WorkOp
  bytes : List Byte
  prod : Producer
  wait : Option (Nat × Word)
deriving DecidableEq, Repr

/-- What the connection-management exchange agrees (R683): `life` is the packet lifetime and the response time of the peer, each as a
power of two of 4.096 µs; a field that is `none` is left to this side. `active` says that the FH6400 sent the request, and `priv` is the
consumer private data of the peer, with its offer of the multipath extension (R87). -/
structure ConnAttrs where
  destQpn : Psn
  pmtu : Nat
  life : Option (Nat × Nat)
  retryCnt : Option Nat
  rnrRetry : Option Nat
  rnrTimer : Option Nat
  rdMax : Nat
  pd : Nat
  sqPsn : Psn
  rqPsn : Psn
  rqSlots : Nat
  port : Nat
  active : Bool
  priv : List Byte
deriving DecidableEq, Repr

/-- A management datagram to queue-pair number 1 (R72): a connection to set up on context `q`, whose
class the exchange names, or the end of one. -/
inductive CmMsg where
  | connect (q : Nat) (replication : Bool) (attrs : ConnAttrs)
  | disconnect (q : Nat)
deriving DecidableEq, Repr

/-! ### The NVMe target (chapter 4) -/

/-- A keyed SGL data block (R114). -/
structure KeyedSgl where
  addr : Nat
  key : Word
  len : Nat
  inv : Bool     -- the host asks for its key to be invalidated, R71
deriving DecidableEq, Repr

/-- SGL1 of a command capsule (R114). -/
inductive Sgl where
  | none
  | inCapsule (len : Nat)
  | keyed (b : KeyedSgl)
  | segment (bs : List KeyedSgl)
  | other (ty : Nat)
deriving DecidableEq, Repr

/-- A source range of Copy or a range of Dataset Management (R137, R110): start block and blocks. -/
structure LbaRange where
  slba : Nat
  nlb : Nat
deriving DecidableEq, Repr

/-- An I/O command as its capsule or the forwarding message brings it. `nlb` counts blocks; `ranges` are
those of Dataset Management and Copy; `data` is in-capsule or forwarded data; `mdts` bytes is `dlen`. -/
structure HostCmd where
  qp : Nat
  cid : BitVec 16
  opcode : Nat
  nsid : Nat
  slba : Nat
  nlb : Nat
  sgl : Sgl
  dlen : Nat
  ranges : List LbaRange
  ad : Bool
  copyFormat : Nat
  data : List Byte
  fwdIn : Bool
  fwdTag : Nat
  hostIdx : Nat
  pages : List Nat     -- first own pages that hold its received data, R150; none in an operand
  rep : Option (Nat × Nat) := none   -- the session and window slot of a replicated grain, R429; none in an operand
deriving DecidableEq, Repr

/-- NVMe reservation actions that Reservation Register takes (RREGA). -/
inductive RegAction where
  | register | unregister | replace
deriving DecidableEq, Repr

/-- NVMe reservation actions that Reservation Acquire takes (RACQA). -/
inductive AcqAction where
  | acquire | preempt | preemptAbort
deriving DecidableEq, Repr

/-- NVMe reservation actions that Reservation Release takes (RRELA). -/
inductive RelAction where
  | release | clear
deriving DecidableEq, Repr

/-- A fabrics property (R112): the controller registers that Property Get and Set reach. -/
inductive Property where
  | cap | vs | cc | csts | other (off : Nat)
deriving DecidableEq, Repr

/-- The log pages of R112. -/
inductive LogPage where
  | error | smart | changedNs | ana | resvNotification | discovery | other (id : Nat)
deriving DecidableEq, Repr

/-- The features of R112. -/
inductive Feature where
  | numQueues | asyncConfig | keepAlive | hostId | resvMask | resvPersist (nsid : Nat) | other (id : Nat)
deriving DecidableEq, Repr

/-! ### The peer link (chapter 15) -/

/-- The link messages of R455. -/
inductive LinkMsg where
  | heartbeat (seq : Word) (beat fovState : Nat) (own : Nat)
  | syncReq (id : Word)
  | syncResp (id : Word) (refBeat refCycle hold : Nat)
  | qpPair (q : Nat) (start : Bool)
  | tephraBatch (seq : Word) (part : Nat) (last : Bool) (entries : List (List Byte))
  | refcount (rseq : Nat) (entries : List (Nat × Int))
  | refcountAck (rseq : Nat)
  | verifyReq (desc : List Byte)
  | verifyReport (seg result strip drive : Nat)
  | ownership (op ownGen mask arg : Nat)
  | update (op epoch : Nat) (digest : List Byte)
  | unknown (mtype : Nat)
deriving DecidableEq, Repr

/-! ### The write path (chapter 5) -/

/-- Where the gap bytes of a read-modify-write came from (R166): bytes with the offset they start at in
the volume, or nothing readable (R167). -/
inductive GapData where
  | bytes (off : Nat) (bs : List Byte)
  | unreadable
deriving DecidableEq, Repr


/-! ### Strips as drives return them (chapters 9 and 12) -/

/-- How a read of a strip, or of a byte range of one, ended (R288, R294, R400). -/
inductive StripRead where
  | bytes (bs : List Byte)
  | readError
  | unreachable
deriving DecidableEq, Repr


/-- A CTRL record of the peer link (R448). -/
structure CtrlRec where
  slot : Nat
  lanesOk : Nat
  width : Nat
  first : Nat
  expect : Nat
  epochLo : Nat
deriving DecidableEq, Repr

/-- A flit as the decoder gives it (R440, R442): uncorrectable, or its header, its payload, and the symbols that were corrected. -/
inductive FlitRx where
  | bad
  | good (typ fseq ackseq : Nat) (payload : List Byte) (corrected : List Nat)
deriving DecidableEq, Repr

/-- What the drives give of a domain (R333): its pages from the last complete checkpoint, each with its SHARE, the entries of its segment
table as segment, live units and descriptor, its marks as slot, head, generation and mark, the journal records of its runs, the
checkpoint's CUT_SEQ, the manifest parts of its data segments (R198), and the locator: a page's identifier, its place and its write epoch. -/
structure DomainLoad where
  pages : List (Nat × List Byte) := []
  segs : List (Nat × Nat × List Byte) := []
  marks : List (Nat × Nat × Nat × Nat) := []
  recs : List (List Byte) := []
  cut : Nat := 0
  mans : List (Nat × List (List Byte)) := []
  locs : List (Nat × Nat × Nat) := []
deriving DecidableEq, Repr

/-- How the read of a metadata page ended, and what the drives gave of a foreign page (R334, R495). -/
structure PageRead where
  ok : Bool
  load : DomainLoad
deriving DecidableEq, Repr

/-- R507: what a read of memory finds: an error that its code corrects; one that it cannot correct, and whether the read tried again in the
next beat is good. -/
inductive MemErr where
  | corrected
  | uncorrected (again : Bool)
deriving DecidableEq, Repr

/-! ### The commands -/

/-- One constructor per row of spec/opcode_table.json. -/
inductive Instr where
  -- units, registers and windows
  | registerWrite (bar : Bar) (off size : Nat) (w : WriteData)                  -- R5
  | unitEnWrite (u : UnitId) (val : Word)                         -- R18
  | unitStateEdge (u : UnitId) (ev : SeqEvent) (hw : Option Nat)  -- R19
  | startDone (u : UnitId)                                        -- R19
  | startFail (u : UnitId) (code : Nat)                           -- R19
  | stopDone (u : UnitId)                                         -- R19
  | hwStop (u : UnitId) (code : Nat)                              -- R19
  | stopLate (u : UnitId)                                         -- R21
  | winIdxWrite (w : WinId) (idx : Word)                          -- R26
  | windowCapture (w : WinId)                                     -- R26
  -- time, admission and synchronisation
  | engineSchedule (s : Nat)                                      -- R33
  | admitCommand (s : Nat)                                        -- R37
  | tagFree (t : Nat)                                             -- R120
  | syncReq (id : Word) (hold : Nat)                              -- R461
  | syncResp (id : Word) (refBeat refCycle hold : Nat)            -- R461
  -- ports and transport
  | quadModeWrite (val : Word)                                    -- R59
  | portLinkTimeout (p : Nat)                                     -- R68
  | portLinkLost (p : Nat)                                        -- R68
  | frameReceive (p : Nat) (f : Frame)                            -- R63
  | rocePacketReceive (p : Nat) (pkt : Packet) (fill : Nat)       -- R74; fill: the priority's receive buffer, R65
  | cnpReceive (dest : QpAddr)                                   -- R67
  | rateLimitRecover (q : Nat)                                    -- R67
  | pfcRefresh (p : Nat) (pr : Prio)                              -- R65
  | pfcFrameReceive (p prio : Nat) (pause : Bool)                 -- R65
  | pfcWatchdog (p : Nat) (pr : Prio)                             -- R66
  | cmDatagram (p : Nat) (m : CmMsg)                              -- R72
  | hostDisconnect (q : Nat)                                      -- R682
  | qpCtlWrite (val : Word)                                       -- R99
  | workItemPost (q : Nat) (w : WorkItem)                         -- R85
  | workItemFlushed (q : Nat)                                     -- R76
  | waitConditionMet (q : Nat)                                    -- R85
  | waitBroken (q : Nat)                                          -- R86
  -- `via` is the host port at which a packet arrives, or none for Crediox
  | ackReceive (dest : QpAddr) (path : Nat) (psn : Psn) (credit : Nat) (msgAck : BitVec 16) -- R84
  | ackTimeout (q path : Nat)                                     -- R80
  | nakReceive (dest : QpAddr) (path : Nat) (psn : Psn) (k : NakKind) -- R80
  | rnrNakReceive (dest : QpAddr) (path : Nat) (nak : RnrNak)    -- R80
  | rnrTimerExpire (qp : QpPath)                                 -- R80
  | mpPacketReceive (p : Nat) (pkt : Packet)                      -- R93
  | messageComplete (q : Nat)                                     -- R94
  | mrRegister (r base len pd : Nat) (write : Bool)               -- R96
  | mrRevoke (r : Nat)                                            -- R98
  | revocationDone (r : Nat)                                      -- R98
  -- the NVMe target
  | flush (t : Nat)                                               -- R168
  | write (t : Nat)                                               -- R143
  | read (t : Nat)                                                -- R362
  | compare (t : Nat)                                             -- R684
  | writeZeroes (t : Nat)                                         -- R110
  | datasetManagement (t : Nat)                                   -- R110
  | verify (t : Nat)                                              -- R111
  | copy (t : Nat)                                                -- R138
  | reservationRegister (t : Nat) (a : RegAction) (cur new : DWord) (ptpl : Option Bool) -- R135
  | reservationReport (t : Nat)                                   -- R135
  | reservationAcquire (t : Nat) (a : AcqAction) (rtype : Nat) (cur pre : DWord)  -- R136
  | reservationRelease (t : Nat) (a : RelAction) (cur : DWord)    -- R135
  | reservationEffect (vol : Nat)                                 -- R135
  | connect (q cid qid sqsize subsys : Nat) (host : Nat) (cntlid : Nat) (noFlow : Bool) (kato : Nat) -- R103
  | propertyGet (q cid : Nat) (p : Property)                      -- R112
  | propertySet (q cid : Nat) (p : Property) (v : DWord)          -- R112
  | authenticationSend (q cid : Nat) (msg : List Byte)            -- R112
  | authenticationReceive (q cid : Nat) (buf : KeyedSgl)             -- R112
  | disconnect (q cid : Nat)                                      -- R682
  | nvmeIdentify (q cid cns nsid : Nat) (buf : KeyedSgl)               -- R112
  | getLogPage (q cid : Nat) (page : LogPage) (buf : KeyedSgl)         -- R112
  | setFeatures (q cid : Nat) (f : Feature) (v : Word)            -- R112
  | getFeatures (q cid : Nat) (f : Feature)                       -- R112
  | asynchronousEventRequest (q cid : Nat)                        -- R112
  | keepAlive (q cid : Nat)                                       -- R113
  | abort (q cid : Nat) (victimQp victimCid : Nat)                -- R122
  | keepAliveExpire (cntlid : Nat)                                -- R113
  | fwdCmd (m : Nat) (rtag slice : Nat) (c : HostCmd)             -- R127
  | fwdData (t off : Nat) (bs : List Byte)                        -- R127
  | fwdCpl (t sct sc : Nat)                             -- R127
  | forwardFail (t : Nat)                                         -- R130
  | anaChange (grp : Nat) (st : Nat)                              -- R125
  | anaChangeDrained (grp : Nat)                                  -- R125
  -- the write path
  | regionGroupPlace (s : Nat)                                    -- R156
  | placedWrite (m : Nat) (put : WholePut)                       -- R454
  | rmwMerge (s : Nat) (g : GapData)                              -- R166
  | vaultWriteComplete (g : Nat) (ok : Bool)                      -- R172
  | catchupWrite (s idx : Nat) (ok : Bool)                        -- R173
  | destageStart (s idx : Nat)                                    -- R179
  | destagePlaced (s idx : Nat)                                   -- R153
  | releasePut (s idx : Nat)                                      -- R183
  | grainRelease (seg : Nat)                                      -- R182
  -- reduction
  | fingerprintDone (s u : Nat)                                   -- R191
  | fpuFault (s u : Nat)                                          -- R193
  | tephraCheck (s idx : Nat)                                     -- R201
  | manifestLoadDone (seg : Nat) (parts : Option (List (List Byte)))  -- R199; none: it failed its checks
  | loadWaitTimeout (s idx : Nat)                                 -- R201
  | verifyCompareDone (s idx : Nat) (flash : Option (List Byte))  -- R205; none: the stored grain cannot be read
  | tephraBatch (seq : Word) (part : Nat) (last : Bool) (entries : List (List Byte))  -- R459
  | compressDone (s c : Nat) (frame : List Byte)                  -- R208
  | decompressDone (s u : Nat)                                    -- R213
  | decompressorFault (s u : Nat)                                 -- R214
  -- the key store and the cipher
  | load (slot : Nat) (hwmValid : Bool)                           -- R241
  | loadCounter (slot : Nat)                                      -- R241
  | zeroise (slot : Nat)                                          -- R258
  | nonceDraw (s e : Nat)                                         -- R247
  | hwmRecordCommit (slot gen value : Nat)                        -- R249
  | gcmJobDone (s e : Nat)                                        -- R256
  | gcmParityFault (s e : Nat)                                    -- R261
  -- the layout
  | segmentOpen (s : Nat) (meta_ : Bool)                          -- R270
  | segmentClose (seg : Nat)                                      -- R293
  | parityDone (seg : Nat)                                        -- R293
  | segmentWritten (seg : Nat)                                    -- R293
  | segmentAbandon (seg : Nat)                                    -- R293
  | verifyReq (desc : List Byte) (strips : List StripRead)        -- R294
  | verifyReport (seg result strip drive : Nat)                   -- R297
  | verifyTimeout (seg : Nat)                                     -- R293
  | ownVerifyDone (seg : Nat) (strips : List StripRead)           -- R296
  | reconstructionRound (s rd : Nat)                              -- R290
  | scrub (found : List (List StripRead))                         -- R298; the strips of the segments read, in order
  | erasureUnitFault (s : Nat)                                    -- R301
  -- maps, records, snapshots, journal
  | treeDeleteDone (tree : Nat)                                   -- R324
  | idPoolRefill (s : Nat)                                        -- R316
  | journalReplay (peer : Bool) (load : DomainLoad)               -- R333
  | pageFaultDone (page : Nat) (r : PageRead)                    -- R334, R495
  | relocCmdWrite (val : Word)                                    -- R336
  | relocationDone (s seg : Nat)                                  -- R337
  | segmentReclaim (seg : Nat)                                    -- R338
  | refcount (rseq : Nat) (entries : List (Nat × Int))            -- R458
  | refcountAck (rseq : Nat)                                      -- R458
  -- the metadata cache
  | cacheAccess (line : Nat) (wr : Option (List Byte)) (err : Option Nat) (pfErr : Bool)
      -- R344; err: an uncorrectable error, 0 on the fill, 1 tag parity, 2 data; pfErr: one on the prefetch
  | writebackFailed (key : Nat)                                   -- R355; 16 × set + way
  | prefetchLock (n : Nat)                                        -- R351
  | lockSet (n : Nat)                                             -- R350
  | lockClear (n : Nat)                                           -- R350
  -- the read path
  | readBufferGrant (s : Nat)                                     -- R367
  | hedgeTimeout (rd : Nat)                                       -- R380
  | readReferenceDrop (rd : Nat)                                  -- R364
  -- drive ports
  | drvPortModeWrite (p mode : Nat)                               -- R387
  | perst (p : Nat)                                               -- R392
  | perstRelease (p : Nat)                                        -- R392
  | presenceChange (a : Nat) (present : Bool)                     -- R393
  | surpriseDown (a : Nat)                                        -- R393
  | driveCommandIssue (a : Nat)                                   -- R398
  | driveCompletion (a slot sct sc : Nat) (data : List Byte)      -- R400
  | driveCommandTimeout (a slot : Nat)                            -- R399
  | preempt (prkey : DWord)                                       -- R404
  | witnessCompareAndWrite (old new : List Byte)                  -- R406
  | retireTimerExpire (a : Nat)                                   -- R407
  | retireWrite (a : Nat) (retire : Bool)                         -- R409
  | rebuildStrip (cols : List StripRead)                          -- R408; the strips of the segment examined
  | rebuildComplete (a : Nat)                                     -- R409
  -- replication; `msg` is a whole message, R422
  | open_ (q : Nat) (msg : List Byte)                             -- R423
  | openAck (q : Nat) (msg : List Byte)                           -- R431
  | extents (q : Nat) (msg : List Byte) (loads : List (Nat × Option (List (List Byte))))
      -- R428; loads: the manifests loaded during the check's waits, R201
  | need (q : Nat) (msg : List Byte) (found : List (Bool × List Byte))
      -- R423; found: the form and bytes of each grain needed, as read here
  | grains (q : Nat) (msg : List Byte)                            -- R429
  | windowAck (q : Nat) (msg : List Byte)                         -- R420
  | commit (q : Nat) (msg : List Byte)                            -- R430
  | commitAck (q : Nat) (msg : List Byte)                         -- R431
  | repAbort (q : Nat) (msg : List Byte)                          -- R431
  | repDiffBatch (i : Nat)                                        -- R426
  | repTimeout (i : Nat)                                          -- R424
  | repRetry (i : Nat)                                            -- R431
  -- the peer link
  | laneStart (l : Nat) (fail : Option Nat) (inverted : Bool)     -- R438
  | flitReceive (f : FlitRx)                                      -- R446
  | initRecord (r : CtrlRec)                                      -- R449
  | nak (r : CtrlRec)                                             -- R446
  | width (r : CtrlRec)                                           -- R449
  | widthAck (r : CtrlRec)                                        -- R449
  | qpPair (q : Nat) (start : Bool)                               -- R685
  | qpPairTimeout (q : Nat)                                       -- R685
  | heartbeat (seq : Word) (beat fovState own : Nat)              -- R470
  -- ownership, failover and failback; `mask` has bit g for ANA group g + 1
  | pulseInEdge (level : Bool)                                    -- R470
  | singlePathLost (path : Nat)                                   -- R471; 0 Crediox, 1 pulse
  | witnessRefresh (copies : List (Option (List Byte)))           -- R476; the three copies as read
  | witnessReadResult (copies : List (Option (List Byte)))        -- R477
  | claimWaitExpire (copies : List (Option (List Byte)))          -- R478
  | takeoverStepDone (vault : Option (List (List Byte))) (load : DomainLoad)
      -- R482; step 3: the records of the peer's vault log, or none; step 4: the peer's domain
  | joinReq (gen resvGen : Nat)                                   -- R488
  | joinAck (gen arg : Nat)                                       -- R488
  | resyncCommit (gen batch : Nat)                                -- R489
  | resyncAck (gen batch : Nat)                                   -- R489
  | resyncDone (gen batch : Nat)                                  -- R489
  | handoverReq (gen mask : Nat)                                  -- R494
  | handover (gen mask arg : Nat) (load : DomainLoad)             -- R492
  | handoverAck (gen mask : Nat)                                  -- R492
  | handoverAbort (gen mask arg : Nat)                            -- R492
  | leave (gen : Nat)                                             -- R486
  | handoverStepDone (copies : List (Option (List Byte)))         -- R492; step 4: the witness copies that step 5 reads
  -- memory and the Geyser flush
  | memoryStart (fail : Option (Nat × Nat)) (ddrGib : Nat) (temps repairs : List (Nat × Nat))
      -- R510; fail: FAIL_CODE and channel; temperature and rows repaired by channel
  | loadClassUpdate (hbm ddr : Nat) (temps : List (Nat × Nat))    -- R511; utilisation of the busiest channels in per cent
  | calibrationBeat (ch : Nat)                                    -- R513
  | retrainDone (ch : Nat) (ok : Bool)                            -- R514
  | memoryReadError (addr : Nat) (found : MemErr) (hit : Nat) (bytes : List Byte)
      -- R507; hit: the read, segment, bucket or record that the address holds; bytes: the page as the vault log gives it
  | patrolScrub (errs : List (Nat × MemErr × Nat))                      -- R508; the blocks found in error: address, error, and `hit` as above
  | geyserRestore (labels : List (Option (List Byte))) (image logs : List (List (Nat × List Byte)))
      -- R522; by vault SSD: the label, and the records found in the Geyser area and in the vault log, with their byte offsets there
  -- the mailboxes; a mailbox command acts on the channel that stands RUNNING with its code
  | doorbell (c : Nat) (seq : Word)                               -- R535
  | requestTake (c : Nat)                                         -- R536
  | stewardRestartDone (card : Option (List Byte)) (convert : Bool)
      -- R557; the recovery package on the microSD card; whether the new image can convert the settings
  | managementReset (kind : Nat)                                  -- R528; 0 FLR, 1 link down, 2 PERST
  | requestBufferWrite (off : Nat) (bytes : List Byte)            -- R537
  | vectorUnmask (v : Nat)                                        -- R564
  | invalidCommandOpcode (q cid : Nat)                            -- R112
  | keyOpNotUsed (op : Nat) (slot : Nat) (hwmValid : Bool)                        -- R244
  | smbusOtherCommand (code : Nat)                                -- R673
  -- events and the Fumarole recorder
  | eventRaise (src p0 p1 p2 beat : Nat)                          -- R563; beat: its stamp
  | ringFreeze (slot : Nat)                                       -- R576
  | norFailure (kind off : Nat)                                   -- R577; 0 program, 1 erase, 2 timeout
  | smbusLastGaspEntry (n : Nat)                                  -- R578
  -- performance counters
  | counterOverflow (b n : Nat)                                   -- R588
  | counterWrite (b n : Nat) (val : Word) (ovr : Bool)            -- R590; ovr: the cycle is one of an overflow
  | sampleDeliver (b : Nat)                                       -- R594
  -- start-up and the Fissure pins
  | bootRomStart (value dir : Nat)                                -- R618; the straps as sampled, R607
  | bootImageVerify (card : Option (List Byte))                   -- R647; card: the recovery package on the microSD card
  | phaseChangeDone (levels : Nat)                                -- R611; the level of each pin at e + 16
  | serviceButtonPress (pressed : Bool)                           -- R616; an edge of the filtered button
  -- updates
  | cardProbe (present : Bool) (pkg : Option (List Byte))         -- R633
  | updateStaged (digest : List Byte)                             -- R632
  | updateArm (epoch : Nat) (digest : List Byte)                  -- R634
  | updateArmAck (digest : List Byte)                             -- R634
  | updateArmNak (digest : List Byte)                             -- R634
  | updatePhaseDone (phase : Nat) (digest : List Byte)            -- R637
  | updateRevert (cause : Nat) (digest : List Byte)               -- R641
  | updateCommit (digest : List Byte)                             -- R642
  | handoffRestart (fail : Option Nat)                            -- R638; the TYPE of a part that fails to load
  | activationRevert (cause part : Nat)                           -- R641
  -- debug access and alarms
  | jtagInstructionLoad (op : Nat)                                -- R650
  | alarm (cs : List (Nat × Nat × Nat))                           -- R660; each cause with its parameters, R663
  | alarmCauseClear (c : Nat)                                     -- R658
  | shiftDr (tdi : List Bool) (probe : Option (Nat × Nat))        -- R650; probe: what a DBG_ACCESS scan writes, R650
  -- temperature and the hold-up bank
  | temperatureWarning (temps hbmTemps : List Int)                  -- R676; °C of the die sensors and of the HBM3E stacks
  | holdupOkChange (level : Bool)                                 -- R171
  -- pins of the failover block
  | claimInEdge (level : Bool)                                    -- R480
  | inconclusiveRepeat (copies : List (Option (List Byte)))       -- R478
  -- the commands without operands
  | epochEdge                                                     -- R50
  | syncReqSend                                                   -- R461
  | syncLockLost                                                  -- R46
  | vaultThroughEnter                                             -- R171
  | vaultThroughExit                                              -- R176
  | tephraBatchSend                                               -- R206
  | tephraBatchDeadline                                           -- R207
  | zeroiseAll                                                    -- R258
  | insertApply                                                   -- R318
  | pageFreeCascade                                               -- R319
  | snapshotShare                                                 -- R321
  | journalRunSpill                                               -- R328
  | fullCheckpointStart                                           -- R330
  | fullCheckpointDone                                            -- R330
  | mdcFlush                                                      -- R351
  | mdcFlushInv                                                   -- R351
  | mdcInvalidate                                                 -- R354
  | zeroLine                                                      -- R346
  | mdcCommandDone                                                -- R352
  | preemptTimeout                                                -- R404
  | nakResendTimeout                                              -- R446
  | flitAckTimeout                                                -- R446
  | negotiateTimeout                                              -- R449
  | resizeTimeout                                                 -- R449
  | lossTimeout                                                   -- R447
  | linkWiden                                                     -- R449
  | linkUp                                                        -- R449
  | credioxPacket                                                 -- R445
  | heartbeatSend                                                 -- R460
  | pulseOutToggle                                                -- R470
  | peerSuspect                                                   -- R471
  | witnessAttemptResult                                          -- R475
  | fenceInAssert                                                 -- R480
  | fenceReleaseExpire                                            -- R485
  | peerWaitExpire                                                -- R486
  | handoverLimitExpire                                           -- R492
  | failbackEpochCount                                            -- R494
  | handoverCtl                                                   -- R493
  | failback                                                      -- R494
  | unfence                                                       -- R485
  | acceptLoss                                                    -- R483
  | fovLeave                                                      -- R493
  | vaultLogRewrite                                               -- R517
  | pwrfail                                                       -- R518
  | geyserFlushDone                                               -- R518
  | identify                                                      -- R544
  | status                                                        -- R544
  | portAddrs                                                     -- R544
  | ticketStatus                                                  -- R544
  | settingGet                                                    -- R545
  | settingSet                                                    -- R546
  | portSet                                                       -- R545
  | lockEntry                                                     -- R545
  | tephraRebuild                                                 -- R545
  | subsysCreate                                                  -- R547
  | subsysDelete                                                  -- R547
  | hostSet                                                       -- R547
  | volCreate                                                     -- R547
  | volResize                                                     -- R547
  | volSet                                                        -- R547
  | volDelete                                                     -- R547
  | volQuery                                                      -- R547
  | groupHome                                                     -- R547
  | snapCreate                                                    -- R549
  | snapRunTimeout                                                -- R549
  | snapDelete                                                    -- R548
  | cloneCreate                                                   -- R548
  | snapList                                                      -- R548
  | repCreate                                                     -- R550
  | repStart                                                      -- R550
  | repSuspend                                                    -- R550
  | repResume                                                     -- R550
  | repDelete                                                     -- R550
  | keyLoad                                                       -- R552
  | keyZeroise                                                    -- R551
  | keyQuery                                                      -- R551
  | kekSet                                                        -- R551
  | witnessRead                                                   -- R553
  | witnessSet                                                    -- R553
  | mbxHandover                                                   -- R553
  | fovAction                                                     -- R553
  | evtRoute                                                      -- R554
  | fumRead                                                       -- R575
  | fumFlush                                                      -- R572
  | pmcEvents                                                     -- R554
  | pmcSnapshot                                                   -- R554
  | pmcUser                                                       -- R597
  | stageBegin                                                    -- R631
  | stageData                                                     -- R631
  | stageEnd                                                      -- R630
  | activateArm                                                   -- R634
  | activateCancel                                                -- R635
  | updateStatus                                                  -- R554
  | echo                                                          -- R555
  | stewardRestart                                                -- R557
  | laneMargin                                                    -- R555
  | debugChallenge                                                -- R653
  | debugOpen                                                     -- R655
  | ticketDone                                                    -- R540
  | watchdogExpire                                                -- R558
  | firmwareFault                                                 -- R557
  | fumaroleRecordWrite                                           -- R567
  | fumaroleFlush                                                 -- R572
  | fumCtlFlush                                                   -- R572
  | seqLoad                                                       -- R570
  | resume                                                        -- R576
  | norRetry                                                      -- R577
  | smbusLastGaspStatus                                           -- R578
  | smbusTemperature                                              -- R673
  | smbusPhase                                                    -- R673
  | counterSnapshot                                               -- R593
  | powerOnReset                                                  -- R601
  | startUpStepDone                                               -- R619
  | service                                                       -- R611
  | ledShift                                                      -- R615
  | discard                                                       -- R632
  | updateCancel                                                  -- R635
  | activationStart                                               -- R636
  | activationPhaseStart                                          -- R637
  | activationCommit                                              -- R642
  | challengeExpire                                               -- R653
  | debugOpenStepDone                                             -- R656
  | alarmClr                                                      -- R661
  | testLogicReset                                                -- R649
deriving DecidableEq, Repr

end Sys2Proof
end

