-- ==== Sys2Proof/Decode.lean ====
section
/-! DEFINITION. The words of spec/opcode_table.json. -/
namespace Sys2Proof

/-- The command that a word spells by the table's bits. Every row of spec/opcode_table.json has the empty
list of fields: the table gives no row any bits, so no word spells a command. -/
def decodeTableWord (_nbits _w : Nat) : Option Instr := none

end Sys2Proof
end

