-- ==== Sys2Proof/Config.lean ====
section
/-! DEFINITION. What an implementation fixes and what spec/ leaves open. A free value is a constant with no
body: nothing can be proved of it but what holds for every value. `Dev.free` counts the draws, so that
each draw is a value of its own. -/
namespace Sys2Proof.Config

/-- A number that spec/ leaves open, for the n-th draw. -/
opaque freeNat : Nat → Nat

/-- R55: the core cycle in which a read reaches its block, counted from the beat edge, for the beat after the n-th edge. -/
opaque cycleOf : Nat → Nat

/-- R346, R504: the page of the hot-metadata region in which the metadata engine keeps a page, by the number under which it is kept. -/
opaque pagePlace : Nat → Nat

/-- R651: the levels of the test multiplexer's pins as a sample shows them in the beat after the n-th edge, by pin. -/
opaque probeLevel : Nat → Nat

/-- A byte that spec/ leaves open, for the n-th draw. -/
opaque freeByte : Nat → Byte

/-- The 32-byte random value of a debug challenge (R653) or of a Connect exchange, for the n-th draw. -/
opaque freeBytes : Nat → Nat → List Byte

/-- Beats in an epoch (R29). -/
def epochBeats : Nat := 2 ^ 23

/-- Core cycles in a beat (R29). -/
def beatCycles : Nat := 256

/-- Contexts (R73), slices (R12), own pages of the Caldera (R146), directory entries per slice (R148),
tags per slice (R118), bitmaps (R92). -/
def contexts : Nat := 16384
def slices : Nat := 8
def ownPages : Nat := 4194304
def dirEntries : Nat := 1048576
def tagsPerSlice : Nat := 8192
def bitmaps : Nat := 16384
def regions : Nat := 1024
def volumes : Nat := 32768

end Sys2Proof.Config
end

