-- ==== Sys2Proof/Machine/EventTable.lean ====
section
/-! DEFINITION. The event sources with their codes (R560, R561 and the source table of each chapter) and
the default severity of a source (R562, R680, R581, R599, R663). -/
namespace Sys2Proof.Machine

/-- The codes of the sources that R560 gives to the global blocks (R51, R188, R265, R305, R415, R624). -/
def eventCodeGlobal (n : Nat) : Nat :=
  match n with
  | 0 => 0x0001 | 1 => 0x0002 | 2 => 0x0003 | 3 => 0x0004
  | 4 => 0x4010 | 5 => 0x4011 | 6 => 0x4012 | 7 => 0x4013
  | 8 => 0x6001 | 9 => 0x6002 | 10 => 0x6003 | 11 => 0x6004 | 12 => 0x6005 | 13 => 0x6006
  | 14 => 0x7010 | 15 => 0x7011 | 16 => 0x7012 | 17 => 0x7013 | 18 => 0x7014 | 19 => 0x7015
  | 20 => 0x7016 | 21 => 0x7017
  | 22 => 0x9010 | 23 => 0x9011 | 24 => 0x9012 | 25 => 0x9013 | 26 => 0x9014
  | 27 => 0x0020 | 28 => 0x0021 | 29 => 0x0022 | 30 => 0x0023 | 31 => 0x0024
  | _ => 0

/-- The codes of slice sources, by offset from 448 + 64s (R188, R221, R265, R305, R385). -/
def eventCodeSlice (k : Nat) : Nat :=
  match k with
  | 0 => 0x4001 | 1 => 0x4002 | 2 => 0x4003 | 3 => 0x4004 | 4 => 0x4005
  | 8 => 0x5001 | 9 => 0x5002 | 10 => 0x5003 | 11 => 0x5004 | 12 => 0x5005 | 13 => 0x5006
  | 14 => 0x5007
  | 15 => 0x6010 | 16 => 0x6011 | 17 => 0x6012
  | 18 => 0x7001 | 19 => 0x7002 | 20 => 0x7003 | 21 => 0x7004 | 22 => 0x7005 | 23 => 0x7006
  | 24 => 0x7007
  | _ => 0

/-- The code of event source n; 0 for a source that no chapter assigns (R560, R561). -/
def eventCode (n : Nat) : Nat :=
  if n < 64 then eventCodeGlobal n
  else if n < 128 then 0x1001 + (n - 64) % 4
  else if n < 136 then 0x2001 + (n - 128)
  else if n < 320 then 0
  else if n < 326 then 0x3001 + (n - 320)
  else if n < 448 then 0
  else if n < 960 then eventCodeSlice ((n - 448) % 64)
  else if n < 971 then 0x8001 + (n - 960)
  else if 980 ≤ n ∧ n < 984 then 0x8040 + (n - 980)
  else if 1024 ≤ n ∧ n < 1028 then 0x5010 + (n - 1024)
  else if 1040 ≤ n ∧ n < 1048 then 0x8020 + (n - 1040)
  else if 1088 ≤ n ∧ n < 1600 then 0x9001 + (n - 1088) % 4
  else if 1600 ≤ n ∧ n < 1616 then 0xA001
  else if 1616 ≤ n ∧ n < 1623 then 0xA002 + (n - 1616)
  else if 1632 ≤ n ∧ n < 1648 then 0xA010 + (n - 1632)
  else if 1728 ≤ n ∧ n < 1739 then 0xB001 + (n - 1728)
  else if 1856 ≤ n ∧ n < 1864 then 0xC001
  else if 1864 ≤ n ∧ n < 1870 then 0xC002 + (n - 1864)
  else if 1920 ≤ n ∧ n < 1929 then 0xD001 + (n - 1920)
  else if 1952 ≤ n ∧ n < 1963 then 0xE001 + (n - 1952)
  else if 1984 ≤ n ∧ n < 1991 then 0xF001 + (n - 1984)
  else if 1992 ≤ n ∧ n < 2001 then 0xF010
  else if 2001 ≤ n ∧ n < 2010 then 0xF011
  else 0

/-- R562: the severities. -/
def sevDebug : Nat := 0
def sevInfo : Nat := 1
def sevNotice : Nat := 2
def sevWarning : Nat := 3
def sevError : Nat := 4
def sevFault : Nat := 5
def sevCritical : Nat := 6

/-- The default severity of an event code (R680, with the severities that R581, R599 and R663 give). -/
def codeSeverity (c : Nat) : Nat :=
  if c ∈ [0x6005, 0xA014, 0xA01D, 0xB005, 0xC004, 0xF001, 0xE001, 0xE002, 0xE003, 0xE004, 0xE008] then
    sevCritical
  else if c ∈ [0x0021, 0x0022, 0x4012, 0x6002, 0x7002, 0x7016, 0x8004, 0x8022, 0x8026, 0x9013, 0xA016,
      0xB001, 0xB002, 0xB00B, 0xF002] then sevFault
  else if c ∈ [0x4002, 0x4005, 0x5001, 0x5002, 0x5003, 0x5004, 0x5005, 0x5006, 0x5007, 0x6010, 0x6011,
      0x7001, 0x7005, 0x7010, 0x7011, 0x7013, 0x7014, 0x8020, 0x8023, 0x8025, 0x8042, 0x8043, 0x9001,
      0x9012, 0x9014, 0xA003, 0xA005, 0xA010, 0xB004, 0xB007, 0xD006, 0xF003, 0xF004, 0xE00A] then sevError
  else if c ∈ [0x0003, 0x0004, 0x0024, 0x1001, 0x1002, 0x1003, 0x1004, 0x2001, 0x2004, 0x2005, 0x2006,
      0x2008, 0x3001, 0x3003, 0x3004, 0x3006, 0x4001, 0x4003, 0x4004, 0x4011, 0x5010, 0x5011, 0x5012,
      0x5013, 0x6001, 0x6003, 0x6006, 0x7003, 0x7004, 0x7012, 0x8001, 0x8003, 0x8005, 0x8007, 0x8008,
      0x8021, 0x8027, 0x8041, 0x9002, 0x9003, 0xA001, 0xA004, 0xA006, 0xA007, 0xA019, 0xA01C, 0xA01E,
      0xA01F, 0xB003, 0xB008, 0xC003, 0xC005, 0xC006, 0xD002, 0xD003, 0xD008, 0xE007, 0xE009,
      0xE00B] then sevWarning
  else if c ∈ [0x0001, 0x2007, 0x7017, 0x8002, 0x800B, 0xC001, 0xC002, 0xF005, 0xF010] then sevInfo
  else if c = 0xF011 then sevDebug
  else sevNotice

/-- R562: the severities of FAULT and above are fault-class. -/
def faultClass (sev : Nat) : Bool := decide (sevFault ≤ sev)

/-- R565: a source's default severity. -/
def defaultSeverity (n : Nat) : Nat := codeSeverity (eventCode n)

end Sys2Proof.Machine
end

