-- ==== Sys2Proof/Machine/Fld.lean ====
section
/-! DEFINITION. What a register field is: where it lies, how wide it is, what it resets to and how
software may write it (R5, and the column heads of every register table). -/
namespace Sys2Proof.Machine

/-- The access types of R5. RSV fields hold nothing and have no `Fld`. -/
inductive Acc where
  | ro | rw | w1c | w1s | wo
deriving DecidableEq, Repr

/-- A register field: the byte offset of its register, its lowest bit, its width, its reset value and
its access type. A field above 32 bits wide lies in the register at `off` and the one at `off + 4`. -/
structure Fld where
  off : Nat
  lo : Nat
  w : Nat
  reset : Nat
  acc : Acc
deriving DecidableEq, Repr

/-- The key under which a field is kept: its bit position counted from offset 0. -/
def Fld.key (f : Fld) : Nat := f.off * 8 + f.lo

end Sys2Proof.Machine
end

