-- ==== Sys2Proof/Machine/Regs.lean ====
section
/-! DEFINITION. Every register field of the FH6400, one definition per field, named after its register
and its name in the register tables of spec/ (R15, R16 and the table of each chapter). Offsets are from
BAR0; the registers of BAR2 are numbered after the end of BAR0, from `bar2`. A reset value that a strap,
a fuse or a sample decides (R607, R648) is 0 here until BOOT_ROM_START reads it. -/
namespace Sys2Proof.Machine.Reg

/-- R15: slice s's 2 MiB range. -/
def sliceBase (s : Nat) : Nat := 0x200_0000 + s * 0x20_0000

/-- Where this model numbers BAR2 (R529), after the 64 MiB of BAR0. -/
def bar2 : Nat := 0x800_0000

/-- R582: block 0 is the device counter block, block 1 + s that of slice s. -/
def pmcBase (b : Nat) : Nat := if b = 0 then 0x030_0000 else sliceBase (b - 1) + 0x18_0000

/-! ### The register table of R54 -/
def GLB_ID_PART : Fld := ⟨0x000, 0, 16, 0x6400, .ro⟩
def GLB_ID_STEP : Fld := ⟨0x000, 16, 8, 0xB0, .ro⟩
def GLB_BEAT_BEAT : Fld := ⟨0x010, 0, 64, 0, .ro⟩
def GLB_CYCLE_CYCLE : Fld := ⟨0x018, 0, 9, 0, .ro⟩
def GLB_EPOCH_EPOCH : Fld := ⟨0x020, 0, 41, 0, .ro⟩
def GLB_MODE_MODE : Fld := ⟨0x030, 0, 2, 1, .rw⟩
def GLB_SYNC_STS_ROLE : Fld := ⟨0x040, 0, 2, 0, .ro⟩
def GLB_SYNC_STS_LOCKED : Fld := ⟨0x040, 2, 1, 0, .ro⟩
def GLB_SYNC_STS_OUT_OF_BOUND : Fld := ⟨0x040, 3, 1, 0, .w1c⟩
def GLB_SYNC_STS_STEPS : Fld := ⟨0x040, 8, 8, 0, .ro⟩
def GLB_SYNC_OFFSET_OFFSET : Fld := ⟨0x044, 0, 32, 0, .ro⟩
def GLB_SYNC_STEP_BEATS : Fld := ⟨0x048, 0, 32, 0, .ro⟩

/-! ### The register table of R57 -/
def SLI_ADM_RATE_RATE (s : Nat) : Fld := ⟨sliceBase s + 0x0100, 0, 24, 3125, .rw⟩
def SLI_ADM_CAP_CAP (s : Nat) : Fld := ⟨sliceBase s + 0x0104, 0, 24, 12500, .rw⟩
def SLI_ADM_CMD_CMD (s : Nat) : Fld := ⟨sliceBase s + 0x0108, 0, 16, 256, .rw⟩
def SLI_ADM_IN_IN (s : Nat) : Fld := ⟨sliceBase s + 0x0110, 0, 32, 12500, .ro⟩
def SLI_ADM_OUT_OUT (s : Nat) : Fld := ⟨sliceBase s + 0x0114, 0, 32, 12500, .ro⟩
def SLI_ADM_STS_HELD (s : Nat) : Fld := ⟨sliceBase s + 0x0118, 0, 1, 0, .ro⟩
def SLI_ADM_STS_DIRTY_HELD (s : Nat) : Fld := ⟨sliceBase s + 0x0118, 1, 1, 0, .ro⟩
def SLI_ADM_STS_WAITING (s : Nat) : Fld := ⟨sliceBase s + 0x0118, 16, 16, 0, .ro⟩

/-! ### The register table of R70 -/
def HPT_CTL_EN (p : Nat) : Fld := ⟨0x050_1000 + p * 0x1000 + 0x000, 0, 1, 0, .rw⟩
def HPT_CTL_AN_EN (p : Nat) : Fld := ⟨0x050_1000 + p * 0x1000 + 0x000, 8, 1, 1, .rw⟩
def HPT_CTL_LT_EN (p : Nat) : Fld := ⟨0x050_1000 + p * 0x1000 + 0x000, 9, 1, 1, .rw⟩
def HPT_CTL_LOOP (p : Nat) : Fld := ⟨0x050_1000 + p * 0x1000 + 0x000, 10, 2, 0, .rw⟩
def HPT_STS_STATE (p : Nat) : Fld := ⟨0x050_1000 + p * 0x1000 + 0x004, 0, 3, 0, .ro⟩
def HPT_STS_START_FAIL (p : Nat) : Fld := ⟨0x050_1000 + p * 0x1000 + 0x004, 4, 1, 0, .w1c⟩
def HPT_STS_HW_STOP (p : Nat) : Fld := ⟨0x050_1000 + p * 0x1000 + 0x004, 5, 1, 0, .w1c⟩
def HPT_STS_STOP_LATE (p : Nat) : Fld := ⟨0x050_1000 + p * 0x1000 + 0x004, 6, 1, 0, .w1c⟩
def HPT_STS_FAIL_CODE (p : Nat) : Fld := ⟨0x050_1000 + p * 0x1000 + 0x004, 8, 8, 0, .ro⟩
def HPT_STS_LINK (p : Nat) : Fld := ⟨0x050_1000 + p * 0x1000 + 0x004, 16, 1, 0, .ro⟩
def HPT_STS_SPEED (p : Nat) : Fld := ⟨0x050_1000 + p * 0x1000 + 0x004, 20, 4, 0, .ro⟩
def HPT_CFG_PMD (p : Nat) : Fld := ⟨0x050_1000 + p * 0x1000 + 0x008, 0, 2, 0, .rw⟩
def HPT_CFG_LINK_TIMEOUT (p : Nat) : Fld := ⟨0x050_1000 + p * 0x1000 + 0x008, 8, 24, 0x40_0000, .rw⟩
def HPT_MTU_MAX_FRAME (p : Nat) : Fld := ⟨0x050_1000 + p * 0x1000 + 0x00C, 0, 14, 9216, .rw⟩
def HPT_MAC_MAC (p : Nat) : Fld := ⟨0x050_1000 + p * 0x1000 + 0x010, 0, 48, 0, .rw⟩
def HPT_PFC_PFC_EN (p : Nat) : Fld := ⟨0x050_1000 + p * 0x1000 + 0x020, 0, 1, 0, .rw⟩
def HPT_PFC_PRIO_A (p : Nat) : Fld := ⟨0x050_1000 + p * 0x1000 + 0x020, 4, 3, 3, .rw⟩
def HPT_PFC_PRIO_B_EN (p : Nat) : Fld := ⟨0x050_1000 + p * 0x1000 + 0x020, 8, 1, 0, .rw⟩
def HPT_PFC_PRIO_B (p : Nat) : Fld := ⟨0x050_1000 + p * 0x1000 + 0x020, 12, 3, 4, .rw⟩
def HPT_PFC_XOFF_KIB (p : Nat) : Fld := ⟨0x050_1000 + p * 0x1000 + 0x020, 16, 8, 192, .rw⟩
def HPT_PFC_XON_KIB (p : Nat) : Fld := ⟨0x050_1000 + p * 0x1000 + 0x020, 24, 8, 96, .rw⟩
def HPT_PFC_TIME_PAUSE_QUANTA (p : Nat) : Fld := ⟨0x050_1000 + p * 0x1000 + 0x024, 0, 16, 0xFFFF, .rw⟩
def HPT_PFC_TIME_REFRESH (p : Nat) : Fld := ⟨0x050_1000 + p * 0x1000 + 0x024, 16, 16, 256, .rw⟩
def HPT_PFC_WD_PFC_WD (p : Nat) : Fld := ⟨0x050_1000 + p * 0x1000 + 0x028, 0, 32, 0x2_0000, .rw⟩
def HPT_FEC_CORR_COUNT (p : Nat) : Fld := ⟨0x050_1000 + p * 0x1000 + 0x030, 0, 32, 0, .ro⟩
def HPT_FEC_UNCORR_COUNT (p : Nat) : Fld := ⟨0x050_1000 + p * 0x1000 + 0x034, 0, 32, 0, .ro⟩
def HPT_RX_DROP_COUNT (p : Nat) : Fld := ⟨0x050_1000 + p * 0x1000 + 0x038, 0, 32, 0, .ro⟩
def HPT_ICRC_DROP_COUNT (p : Nat) : Fld := ⟨0x050_1000 + p * 0x1000 + 0x03C, 0, 32, 0, .ro⟩

/-! ### The register table of R99 -/
def XPT_QP_CTL_INDEX : Fld := ⟨0x060_0100, 0, 14, 0, .rw⟩
def XPT_QP_CTL_EN : Fld := ⟨0x060_0100, 16, 1, 0, .rw⟩
def XPT_CFG_MP_OFFER : Fld := ⟨0x060_0400, 0, 1, 1, .rw⟩
def XPT_STS_QP_ON : Fld := ⟨0x060_0404, 0, 15, 0, .ro⟩
def XPT_STS_BMP_FREE : Fld := ⟨0x060_0404, 16, 15, 16384, .ro⟩
def XPT_DROP_COUNT : Fld := ⟨0x060_0408, 0, 32, 0, .ro⟩

/-! ### The register table of R141 -/
def NVT_CFG_FWD_EN : Fld := ⟨0x080_0000, 0, 1, 1, .rw⟩
def NVT_STS_TAGS_USED : Fld := ⟨0x080_0004, 0, 17, 0, .ro⟩
def NVT_FWD_SENT_COUNT : Fld := ⟨0x080_0040, 0, 32, 0, .ro⟩
def NVT_FWD_RECV_COUNT : Fld := ⟨0x080_0044, 0, 32, 0, .ro⟩
def NVT_FWD_FAIL_COUNT : Fld := ⟨0x080_0048, 0, 32, 0, .ro⟩

/-! ### The register table of R185 -/
def GLB_CAL_CTL_FORCE_VAULT : Fld := ⟨0x200, 0, 1, 0, .rw⟩
def GLB_CAL_STS_MODE : Fld := ⟨0x204, 0, 1, 1, .ro⟩
def GLB_CAL_STS_CATCHUP : Fld := ⟨0x204, 1, 1, 0, .ro⟩
def GLB_CAL_STS_COMMIT_HELD : Fld := ⟨0x204, 2, 1, 0, .ro⟩
def GLB_CAL_STS_ABOVE_HWM : Fld := ⟨0x204, 3, 1, 0, .ro⟩
def GLB_CAL_STS_PEER_ABSENT : Fld := ⟨0x204, 4, 1, 1, .ro⟩
def GLB_CAL_STS_MIRROR_BROKEN : Fld := ⟨0x204, 5, 1, 1, .ro⟩
def GLB_CAL_STS_HOLDUP_LOW : Fld := ⟨0x204, 6, 1, 1, .ro⟩
def GLB_CAL_STS_FORCED : Fld := ⟨0x204, 7, 1, 0, .ro⟩
def GLB_CAL_STS_ONE_VAULT : Fld := ⟨0x204, 8, 1, 1, .ro⟩
def GLB_CAL_STS_OVER_BUDGET : Fld := ⟨0x204, 9, 1, 0, .ro⟩
def GLB_CAL_HWM_PAGES : Fld := ⟨0x208, 0, 23, 0x3C_0000, .rw⟩
def GLB_CAL_DST_MARK_PAGES : Fld := ⟨0x20C, 0, 23, 0x20_0000, .rw⟩
def GLB_CAL_OWN_PAGES : Fld := ⟨0x210, 0, 23, 0, .ro⟩
def GLB_CAL_RESV_PAGES : Fld := ⟨0x214, 0, 23, 0, .ro⟩
def GLB_CAL_JRNL_PAGES : Fld := ⟨0x218, 0, 17, 0, .ro⟩
def GLB_CAL_MIR_PAGES : Fld := ⟨0x21C, 0, 23, 0, .ro⟩
def GLB_CAL_VAULT_LAT_BEATS : Fld := ⟨0x220, 0, 16, 0, .ro⟩

/-! ### The register table of R186 -/
def SLI_WPE_CFG_DST_AGE (s : Nat) : Fld := ⟨sliceBase s + 0x02_0000, 0, 24, 8192, .rw⟩
def SLI_WPE_STS_DIR_USED (s : Nat) : Fld := ⟨sliceBase s + 0x02_0004, 0, 21, 0, .ro⟩
def SLI_WPE_STS_DIR_FULL (s : Nat) : Fld := ⟨sliceBase s + 0x02_0004, 24, 1, 0, .ro⟩
def SLI_WPE_STS_ID_WAIT (s : Nat) : Fld := ⟨sliceBase s + 0x02_0004, 25, 1, 0, .ro⟩
def SLI_WPE_PLACED_COUNT (s : Nat) : Fld := ⟨sliceBase s + 0x02_0008, 0, 32, 0, .ro⟩
def SLI_WPE_RMW_COUNT (s : Nat) : Fld := ⟨sliceBase s + 0x02_000C, 0, 32, 0, .ro⟩
def SLI_WPE_REWRITE_COUNT (s : Nat) : Fld := ⟨sliceBase s + 0x02_0010, 0, 32, 0, .ro⟩

/-! ### The register table of R217 -/
def MDE_TPH_CFG_EN : Fld := ⟨0x0A8_0000, 0, 1, 1, .rw⟩
def MDE_TPH_CFG_BATCH_EN : Fld := ⟨0x0A8_0000, 1, 1, 1, .rw⟩
def MDE_TPH_CFG_BATCH_ACCEPT : Fld := ⟨0x0A8_0000, 2, 1, 1, .rw⟩
def MDE_TPH_CFG_LOAD_WAIT : Fld := ⟨0x0A8_0000, 16, 16, 2048, .rw⟩
def MDE_TPH_SIZE_LOG2_BUCKETS : Fld := ⟨0x0A8_0004, 0, 6, 0, .rw⟩
def MDE_TPH_BASE_BASE : Fld := ⟨0x0A8_0008, 20, 44, 0, .rw⟩
def MDE_TPH_BATCH_MAX_ENTRIES : Fld := ⟨0x0A8_0010, 0, 24, 0x20_0000, .rw⟩
def MDE_TPH_STS_ACTIVE : Fld := ⟨0x0A8_0014, 0, 1, 0, .ro⟩
def MDE_TPH_STS_LOADING : Fld := ⟨0x0A8_0014, 1, 1, 0, .ro⟩
def MDE_TPH_STS_MC_USED : Fld := ⟨0x0A8_0014, 16, 15, 0, .ro⟩
def MDE_TPH_BATCH_SEQ_SEQ : Fld := ⟨0x0A8_0018, 0, 32, 0, .ro⟩
def MDE_TPH_LOOKUPS_COUNT : Fld := ⟨0x0A8_0040, 0, 64, 0, .ro⟩
def MDE_TPH_HOOKS_COUNT : Fld := ⟨0x0A8_0048, 0, 64, 0, .ro⟩
def MDE_TPH_HOOK_HITS_COUNT : Fld := ⟨0x0A8_0050, 0, 64, 0, .ro⟩
def MDE_TPH_LOADS_COUNT : Fld := ⟨0x0A8_0058, 0, 64, 0, .ro⟩
def MDE_TPH_MATCHES_COUNT : Fld := ⟨0x0A8_0060, 0, 64, 0, .ro⟩
def MDE_TPH_VERIFY_FAIL_COUNT : Fld := ⟨0x0A8_0068, 0, 64, 0, .ro⟩
def MDE_TPH_INSERTS_COUNT : Fld := ⟨0x0A8_0070, 0, 64, 0, .ro⟩
def MDE_TPH_INSERT_DROP_COUNT : Fld := ⟨0x0A8_0078, 0, 64, 0, .ro⟩
def MDE_TPH_BATCH_SENT_COUNT : Fld := ⟨0x0A8_0080, 0, 64, 0, .ro⟩
def MDE_TPH_BATCH_RECV_COUNT : Fld := ⟨0x0A8_0088, 0, 64, 0, .ro⟩
def MDE_TPH_BATCH_LOST_COUNT : Fld := ⟨0x0A8_0090, 0, 64, 0, .ro⟩
def MDE_TPH_LOAD_TIMEOUT_COUNT : Fld := ⟨0x0A8_0098, 0, 64, 0, .ro⟩

/-! ### The register table of R218 -/
def SLI_FPU_STS_BUSY (s u : Nat) : Fld := ⟨sliceBase s + 0x04_0000 + u * 0x1000 + 0x000, 0, 1, 0, .ro⟩
def SLI_FPU_STS_FAULT (s u : Nat) : Fld := ⟨sliceBase s + 0x04_0000 + u * 0x1000 + 0x000, 1, 1, 0, .ro⟩
def SLI_FPU_GRAINS_COUNT (s u : Nat) : Fld := ⟨sliceBase s + 0x04_0000 + u * 0x1000 + 0x008, 0, 64, 0, .ro⟩
def SLI_FPU_WAIT_GRAINS (s : Nat) : Fld := ⟨sliceBase s + 0x05_0000, 0, 20, 0, .ro⟩

/-! ### The register table of R219 -/
def SLI_SNC_STS_BUSY (s u : Nat) : Fld := ⟨sliceBase s + 0x06_0000 + u * 0x4000 + 0x000, 0, 1, 0, .ro⟩
def SLI_SNC_STS_FAULT (s u : Nat) : Fld := ⟨sliceBase s + 0x06_0000 + u * 0x4000 + 0x000, 1, 1, 0, .ro⟩
def SLI_SNC_STS_LEVEL (s u : Nat) : Fld := ⟨sliceBase s + 0x06_0000 + u * 0x4000 + 0x000, 4, 3, 0, .ro⟩
def SLI_SNC_IN_BYTES (s u : Nat) : Fld := ⟨sliceBase s + 0x06_0000 + u * 0x4000 + 0x008, 0, 64, 0, .ro⟩
def SLI_SNC_OUT_BYTES (s u : Nat) : Fld := ⟨sliceBase s + 0x06_0000 + u * 0x4000 + 0x010, 0, 64, 0, .ro⟩
def SLI_SNC_RAW_COUNT (s u : Nat) : Fld := ⟨sliceBase s + 0x06_0000 + u * 0x4000 + 0x018, 0, 64, 0, .ro⟩
def SLI_SNC_CTL_PRESSURE_DOWN (s : Nat) : Fld := ⟨sliceBase s + 0x07_0000, 0, 1, 1, .rw⟩
def SLI_SNC_SLICE_STS_PRESSURED (s : Nat) : Fld := ⟨sliceBase s + 0x07_0004, 0, 1, 0, .ro⟩
def SLI_SNC_SLICE_STS_WAITING (s : Nat) : Fld := ⟨sliceBase s + 0x07_0004, 16, 16, 0, .ro⟩

/-! ### The register table of R220 -/
def SLI_SND_STS_BUSY (s u : Nat) : Fld := ⟨sliceBase s + 0x08_0000 + u * 0x4000 + 0x000, 0, 1, 0, .ro⟩
def SLI_SND_STS_FAULT (s u : Nat) : Fld := ⟨sliceBase s + 0x08_0000 + u * 0x4000 + 0x000, 1, 1, 0, .ro⟩
def SLI_SND_OUT_BYTES (s u : Nat) : Fld := ⟨sliceBase s + 0x08_0000 + u * 0x4000 + 0x008, 0, 64, 0, .ro⟩
def SLI_SND_CRC_FAIL_COUNT (s u : Nat) : Fld := ⟨sliceBase s + 0x08_0000 + u * 0x4000 + 0x010, 0, 32, 0, .ro⟩
def SLI_SND_MALFORMED_COUNT (s u : Nat) : Fld := ⟨sliceBase s + 0x08_0000 + u * 0x4000 + 0x014, 0, 32, 0, .ro⟩

/-! ### The register table of R262 -/
def KEY_CMD_OP : Fld := ⟨0x040_0000, 0, 3, 0, .rw⟩
def KEY_CMD_HWM_VALID : Fld := ⟨0x040_0000, 3, 1, 0, .rw⟩
def KEY_CMD_SLOT : Fld := ⟨0x040_0000, 4, 12, 0, .rw⟩
def KEY_STS_BUSY : Fld := ⟨0x040_0004, 0, 1, 0, .ro⟩
def KEY_STS_CMD_LOST : Fld := ⟨0x040_0004, 1, 1, 0, .w1c⟩
def KEY_STS_LOCKED : Fld := ⟨0x040_0004, 2, 1, 0, .ro⟩
def KEY_STS_HEAD : Fld := ⟨0x040_0004, 3, 1, 0 /- strap -/, .ro⟩
def KEY_STS_STATUS : Fld := ⟨0x040_0004, 8, 8, 0, .ro⟩
def KEY_STS_READY_SLOTS : Fld := ⟨0x040_0004, 16, 13, 0, .ro⟩
def KEY_CFG_META_ENC : Fld := ⟨0x040_0008, 0, 1, 0, .rw⟩
def KEY_LOAD_GEN_GEN : Fld := ⟨0x040_0030, 0, 15, 0, .rw⟩
def KEY_LOAD_HWM_HWM : Fld := ⟨0x040_0034, 0, 49, 0, .rw⟩
def KEY_TAG_FAIL_COUNT : Fld := ⟨0x040_0040, 0, 32, 0, .ro⟩
def KEY_ABORTS_COUNT : Fld := ⟨0x040_0044, 0, 32, 0, .ro⟩

/-! ### The register table of R264 -/
def SLI_GCM_STS_BUSY (s u : Nat) : Fld := ⟨sliceBase s + 0x0A_0000 + u * 0x8000 + 0x000, 0, 1, 0, .ro⟩
def SLI_GCM_STS_FAULT (s u : Nat) : Fld := ⟨sliceBase s + 0x0A_0000 + u * 0x8000 + 0x000, 1, 1, 0, .ro⟩
def SLI_GCM_STS_SERVING_BOTH (s u : Nat) : Fld := ⟨sliceBase s + 0x0A_0000 + u * 0x8000 + 0x000, 2, 1, 0, .ro⟩
def SLI_GCM_BYTES_BYTES (s u : Nat) : Fld := ⟨sliceBase s + 0x0A_0000 + u * 0x8000 + 0x008, 0, 64, 0, .ro⟩
def SLI_GCM_JOBS_COUNT (s u : Nat) : Fld := ⟨sliceBase s + 0x0A_0000 + u * 0x8000 + 0x010, 0, 64, 0, .ro⟩
def SLI_GCM_TAG_FAIL_COUNT (s u : Nat) : Fld := ⟨sliceBase s + 0x0A_0000 + u * 0x8000 + 0x018, 0, 32, 0, .ro⟩
def SLI_GCM_ABORTED_COUNT (s u : Nat) : Fld := ⟨sliceBase s + 0x0A_0000 + u * 0x8000 + 0x01C, 0, 32, 0, .ro⟩
def SLI_GCM_RETRY_COUNT (s u : Nat) : Fld := ⟨sliceBase s + 0x0A_0000 + u * 0x8000 + 0x020, 0, 32, 0, .ro⟩

/-! ### The register table of R302 -/
def GLB_LAY_DATA_GEOM_K : Fld := ⟨0x300, 0, 5, 12, .rw⟩
def GLB_LAY_DATA_GEOM_M : Fld := ⟨0x300, 8, 3, 2, .rw⟩
def GLB_LAY_META_GEOM_K : Fld := ⟨0x304, 0, 5, 4, .rw⟩
def GLB_LAY_META_GEOM_M : Fld := ⟨0x304, 8, 3, 3, .rw⟩
def GLB_LAY_SEG_AGE_BEATS : Fld := ⟨0x308, 0, 24, 16384, .rw⟩
def GLB_LAY_VERIFY_TIMEOUT : Fld := ⟨0x30C, 0, 24, 0x20_0000, .rw⟩
def GLB_LAY_SCRUB_EN : Fld := ⟨0x310, 0, 1, 1, .rw⟩
def GLB_LAY_SCRUB_RATE : Fld := ⟨0x310, 16, 16, 8192, .rw⟩
def GLB_LAY_STS_INFLIGHT : Fld := ⟨0x314, 0, 13, 0, .ro⟩
def GLB_LAY_STS_FULL : Fld := ⟨0x314, 13, 1, 0, .ro⟩
def GLB_LAY_STS_ID_WAIT : Fld := ⟨0x314, 14, 1, 0, .ro⟩
def GLB_LAY_STS_DRIVE_WAIT : Fld := ⟨0x314, 15, 1, 0, .ro⟩
def GLB_LAY_STS_VERIFY_WAIT : Fld := ⟨0x314, 16, 16, 0, .ro⟩
def GLB_LAY_SCRUB_POS_SEGMENT : Fld := ⟨0x318, 0, 32, 0, .ro⟩
def GLB_LAY_VERIFIED_COUNT : Fld := ⟨0x320, 0, 32, 0, .ro⟩
def GLB_LAY_FAILED_COUNT : Fld := ⟨0x324, 0, 32, 0, .ro⟩
def GLB_LAY_ABANDONED_COUNT : Fld := ⟨0x328, 0, 32, 0, .ro⟩
def GLB_LAY_LATE_COUNT : Fld := ⟨0x32C, 0, 32, 0, .ro⟩

/-! ### The register table of R304 -/
def SLI_ECU_STS_BUSY (s : Nat) : Fld := ⟨sliceBase s + 0x0C_0000, 0, 1, 0, .ro⟩
def SLI_ECU_STS_FAULT (s : Nat) : Fld := ⟨sliceBase s + 0x0C_0000, 1, 1, 0, .ro⟩
def SLI_ECU_OPEN_SEG_SEGMENT (s : Nat) : Fld := ⟨sliceBase s + 0x0C_0004, 0, 32, 0, .ro⟩
def SLI_ECU_PARITY_BYTES (s : Nat) : Fld := ⟨sliceBase s + 0x0C_0008, 0, 64, 0, .ro⟩
def SLI_ECU_RECON_COUNT (s : Nat) : Fld := ⟨sliceBase s + 0x0C_0010, 0, 32, 0, .ro⟩
def SLI_ECU_ROUNDS_COUNT (s : Nat) : Fld := ⟨sliceBase s + 0x0C_0014, 0, 32, 0, .ro⟩
def SLI_ECU_UNRECOV_COUNT (s : Nat) : Fld := ⟨sliceBase s + 0x0C_0018, 0, 32, 0, .ro⟩
def SLI_ECU_RETRY_COUNT (s : Nat) : Fld := ⟨sliceBase s + 0x0C_001C, 0, 32, 0, .ro⟩

/-! ### The register table of R339 -/
def MDE_CFG_RELOC_EN : Fld := ⟨0x0A0_0000, 0, 1, 1, .rw⟩
def MDE_CFG_RUN_PAGES : Fld := ⟨0x0A0_0000, 8, 8, 64, .rw⟩
def MDE_CFG_DEL_RATE : Fld := ⟨0x0A0_0000, 16, 16, 4, .rw⟩
def MDE_STS_REPLAY : Fld := ⟨0x0A0_0004, 0, 1, 0, .ro⟩
def MDE_STS_CP_RUN : Fld := ⟨0x0A0_0004, 1, 1, 0, .ro⟩
def MDE_STS_SPILL_BEHIND : Fld := ⟨0x0A0_0004, 2, 1, 0, .ro⟩
def MDE_STS_ID_WAIT : Fld := ⟨0x0A0_0004, 3, 1, 0, .ro⟩
def MDE_STS_REMOTE_HELD : Fld := ⟨0x0A0_0004, 4, 1, 0, .ro⟩
def MDE_STS_CP_HELD : Fld := ⟨0x0A0_0004, 5, 1, 0, .ro⟩
def MDE_STS_DELETING : Fld := ⟨0x0A0_0004, 16, 16, 0, .ro⟩
def MDE_CP_CFG_LOG2_RECORDS : Fld := ⟨0x0A0_0008, 0, 5, 24, .rw⟩
def MDE_JSEQ_NEXT_SEQ : Fld := ⟨0x0A0_0010, 0, 64, 0, .ro⟩
def MDE_JSEQ_APPLIED_SEQ : Fld := ⟨0x0A0_0018, 0, 64, 0, .ro⟩
def MDE_JSEQ_SPILLED_SEQ : Fld := ⟨0x0A0_0020, 0, 64, 0, .ro⟩
def MDE_CP_NUM_NUM : Fld := ⟨0x0A0_0028, 0, 64, 0, .ro⟩
def MDE_CP_CUT_SEQ : Fld := ⟨0x0A0_0030, 0, 64, 0, .ro⟩
def MDE_CP_BEAT_BEAT : Fld := ⟨0x0A0_0038, 0, 64, 0, .ro⟩
def MDE_ID_FREE_IDS : Fld := ⟨0x0A0_0040, 0, 32, 0, .ro⟩
def MDE_RELOC_CMD_SEGMENT : Fld := ⟨0x0A0_0044, 0, 32, 0, .rw⟩
def MDE_RELOC_STS_QUEUED : Fld := ⟨0x0A0_0048, 0, 16, 0, .ro⟩
def MDE_DISCARDED_COUNT : Fld := ⟨0x0A0_004C, 0, 32, 0, .ro⟩
def MDE_LOOKUPS_COUNT : Fld := ⟨0x0A0_0050, 0, 64, 0, .ro⟩
def MDE_INSERTS_COUNT : Fld := ⟨0x0A0_0058, 0, 64, 0, .ro⟩
def MDE_COPIES_COUNT : Fld := ⟨0x0A0_0060, 0, 64, 0, .ro⟩
def MDE_FAULTS_COUNT : Fld := ⟨0x0A0_0068, 0, 64, 0, .ro⟩
def MDE_PAGE_WRITES_COUNT : Fld := ⟨0x0A0_0070, 0, 64, 0, .ro⟩
def MDE_RELOCATED_COUNT : Fld := ⟨0x0A0_0078, 0, 64, 0, .ro⟩

/-! ### The register table of R359 -/
def MDC_CTL_EN : Fld := ⟨0x0B0_0000, 0, 1, 0, .rw⟩
def MDC_CTL_PF_EN : Fld := ⟨0x0B0_0000, 8, 1, 1, .rw⟩
def MDC_STS_STATE : Fld := ⟨0x0B0_0004, 0, 3, 0, .ro⟩
def MDC_STS_START_FAIL : Fld := ⟨0x0B0_0004, 4, 1, 0, .w1c⟩
def MDC_STS_HW_STOP : Fld := ⟨0x0B0_0004, 5, 1, 0, .w1c⟩
def MDC_STS_STOP_LATE : Fld := ⟨0x0B0_0004, 6, 1, 0, .w1c⟩
def MDC_STS_FAIL_CODE : Fld := ⟨0x0B0_0004, 8, 8, 0, .ro⟩
def MDC_STS_DRAIN_ERROR : Fld := ⟨0x0B0_0004, 16, 1, 0, .w1c⟩
def MDC_STS_LOCKED_WAYS : Fld := ⟨0x0B0_0004, 20, 4, 0, .ro⟩
def MDC_CMD_OP : Fld := ⟨0x0B0_0010, 0, 3, 0, .rw⟩
def MDC_CMD_ENTRY : Fld := ⟨0x0B0_0010, 4, 4, 0, .rw⟩
def MDC_CMD_STS_BUSY : Fld := ⟨0x0B0_0014, 0, 1, 0, .ro⟩
def MDC_CMD_STS_CMD_LOST : Fld := ⟨0x0B0_0014, 1, 1, 0, .w1c⟩
def MDC_CMD_STS_STATUS : Fld := ⟨0x0B0_0014, 8, 8, 0, .ro⟩
def MDC_CMD_STS_PROGRESS : Fld := ⟨0x0B0_0014, 16, 15, 0, .ro⟩
def MDC_CMD_BASE_BASE : Fld := ⟨0x0B0_0018, 8, 36, 0, .rw⟩
def MDC_CMD_LIMIT_LIMIT : Fld := ⟨0x0B0_0020, 8, 36, 0, .rw⟩
def MDC_ERR_ADDR_ADDR : Fld := ⟨0x0B0_0030, 8, 36, 0, .ro⟩
def MDC_ERR_ADDR_LO_VALID : Fld := ⟨0x0B0_0030, 0, 1, 0, .ro⟩
def MDC_ERR_COUNT_LINES : Fld := ⟨0x0B0_0038, 0, 19, 0, .ro⟩
def MDC_LOCK_BASE_BASE (n : Nat) : Fld := ⟨0x0B0_0100 + n * 0x20 + 0x00, 8, 36, 0, .rw⟩
def MDC_LOCK_LIMIT_LIMIT (n : Nat) : Fld := ⟨0x0B0_0100 + n * 0x20 + 0x08, 8, 36, 0, .rw⟩
def MDC_LOCK_WAYS_WAYS (n : Nat) : Fld := ⟨0x0B0_0100 + n * 0x20 + 0x10, 0, 16, 0, .rw⟩
def MDC_LOCK_STS_ACTIVE (n : Nat) : Fld := ⟨0x0B0_0100 + n * 0x20 + 0x14, 0, 1, 0, .ro⟩
def MDC_HITS_COUNT : Fld := ⟨0x0B0_0200, 0, 64, 0, .ro⟩
def MDC_MISSES_COUNT : Fld := ⟨0x0B0_0208, 0, 64, 0, .ro⟩
def MDC_PF_ISSUED_COUNT : Fld := ⟨0x0B0_0210, 0, 64, 0, .ro⟩
def MDC_PF_USED_COUNT : Fld := ⟨0x0B0_0218, 0, 64, 0, .ro⟩
def MDC_WRITEBACKS_COUNT : Fld := ⟨0x0B0_0220, 0, 64, 0, .ro⟩
def MDC_ZERO_LINES_COUNT : Fld := ⟨0x0B0_0228, 0, 64, 0, .ro⟩
def MDC_BYPASS_COUNT : Fld := ⟨0x0B0_0230, 0, 32, 0, .ro⟩
def MDC_PF_DROP_COUNT : Fld := ⟨0x0B0_0234, 0, 32, 0, .ro⟩
def MDC_PL_SKIP_COUNT : Fld := ⟨0x0B0_0238, 0, 32, 0, .ro⟩
def MDC_LOCK_INV_COUNT : Fld := ⟨0x0B0_023C, 0, 32, 0, .ro⟩
def MDC_DIRTY_DISCARD_COUNT : Fld := ⟨0x0B0_0240, 0, 32, 0, .ro⟩

/-! ### The register table of R383 -/
def SLI_RD_CFG_HEDGE (s : Nat) : Fld := ⟨sliceBase s + 0x00_0200, 0, 24, 4096, .rw⟩
def SLI_RD_CFG_REPAIR_EN (s : Nat) : Fld := ⟨sliceBase s + 0x00_0200, 24, 1, 1, .rw⟩
def SLI_RD_STS_INFLIGHT (s : Nat) : Fld := ⟨sliceBase s + 0x00_0204, 0, 14, 0, .ro⟩
def SLI_RD_STS_RBUF_WAIT (s : Nat) : Fld := ⟨sliceBase s + 0x00_0204, 14, 1, 0, .ro⟩
def SLI_RD_RBUF_FREE (s : Nat) : Fld := ⟨sliceBase s + 0x00_0208, 0, 20, 524288, .ro⟩
def SLI_RD_CAL_HITS_COUNT (s : Nat) : Fld := ⟨sliceBase s + 0x00_0210, 0, 64, 0, .ro⟩
def SLI_RD_FLASH_COUNT (s : Nat) : Fld := ⟨sliceBase s + 0x00_0218, 0, 64, 0, .ro⟩
def SLI_RD_ZERO_COUNT (s : Nat) : Fld := ⟨sliceBase s + 0x00_0220, 0, 64, 0, .ro⟩
def SLI_RD_BYTES_BYTES (s : Nat) : Fld := ⟨sliceBase s + 0x00_0228, 0, 64, 0, .ro⟩
def SLI_RD_RECON_COUNT (s : Nat) : Fld := ⟨sliceBase s + 0x00_0230, 0, 32, 0, .ro⟩
def SLI_RD_HEDGED_COUNT (s : Nat) : Fld := ⟨sliceBase s + 0x00_0234, 0, 32, 0, .ro⟩
def SLI_RD_HEDGE_WON_COUNT (s : Nat) : Fld := ⟨sliceBase s + 0x00_0238, 0, 32, 0, .ro⟩
def SLI_RD_FAILED_COUNT (s : Nat) : Fld := ⟨sliceBase s + 0x00_023C, 0, 32, 0, .ro⟩
def SLI_RD_REPAIR_COUNT (s : Nat) : Fld := ⟨sliceBase s + 0x00_0240, 0, 32, 0, .ro⟩

/-! ### The register table of R384 -/
def GLB_RD_CFG_RESERVE : Fld := ⟨0x400, 0, 8, 32, .rw⟩
def GLB_RD_CFG_LOW_EVERY : Fld := ⟨0x400, 16, 8, 8, .rw⟩

/-! ### The register table of R410 -/
def DRV_CFG_CMD_TIMEOUT : Fld := ⟨0x0C0_0000, 0, 24, 0x40_0000, .rw⟩
def DRV_CFG_TIMEOUT_LIMIT : Fld := ⟨0x0C0_0000, 24, 8, 8, .rw⟩
def DRV_STS_ATT_ON : Fld := ⟨0x0C0_0004, 0, 8, 0, .ro⟩
def DRV_STS_RETIRED : Fld := ⟨0x0C0_0004, 8, 8, 0, .ro⟩
def DRV_STS_REBUILDING : Fld := ⟨0x0C0_0004, 16, 1, 0, .ro⟩
def DRV_STS_PREEMPT_BUSY : Fld := ⟨0x0C0_0004, 17, 1, 0, .ro⟩
def DRV_STRAP_VAULT_MAP : Fld := ⟨0x0C0_0008, 0, 2, 0 /- strap -/, .ro⟩
def DRV_STRAP_LANE_SWAP_D : Fld := ⟨0x0C0_0008, 2, 1, 0 /- strap -/, .ro⟩
def DRV_ARRAY_TAG_TAG : Fld := ⟨0x0C0_0010, 0, 32, 0, .rw⟩
def DRV_RESV_GEN_GEN : Fld := ⟨0x0C0_0014, 0, 24, 0, .ro⟩
def DRV_PREEMPT_TIMEOUT : Fld := ⟨0x0C0_0018, 0, 24, 0x6_0000, .rw⟩
def DRV_WIT_CFG_VALID : Fld := ⟨0x0C0_0020, 31, 1, 0, .rw⟩
def DRV_WIT_BASE_LOC : Fld := ⟨0x0C0_0024, 0, 32, 0, .rw⟩
def DRV_WIT_STS_REACH : Fld := ⟨0x0C0_0028, 0, 3, 0, .ro⟩
def DRV_WIT_STS_LAST : Fld := ⟨0x0C0_0028, 4, 6, 0, .ro⟩
def DRV_REBUILD_EN : Fld := ⟨0x0C0_0030, 0, 1, 1, .rw⟩
def DRV_REBUILD_RATE : Fld := ⟨0x0C0_0030, 16, 16, 4096, .rw⟩
def DRV_REBUILD_DELAY_BEATS : Fld := ⟨0x0C0_0034, 0, 32, 0x100_0000, .rw⟩
def DRV_REBUILD_POS_SEGMENT : Fld := ⟨0x0C0_0038, 0, 32, 0, .ro⟩
def DRV_REBUILD_LEFT_STRIPS : Fld := ⟨0x0C0_003C, 0, 32, 0, .ro⟩

/-! ### The register table of R411 -/
def DRV_PORT_CTL_MODE (p : Nat) : Fld := ⟨0x0C0_1000 + p * 0x40 + 0x00, 0, 2, 0, .rw⟩
def DRV_PORT_CTL_PERST (p : Nat) : Fld := ⟨0x0C0_1000 + p * 0x40 + 0x00, 4, 1, 0, .w1s⟩
def DRV_PORT_STS_PERST_ASSERTED (p : Nat) : Fld := ⟨0x0C0_1000 + p * 0x40 + 0x04, 0, 1, 1, .ro⟩
def DRV_PORT_STS_VAULT (p : Nat) : Fld := ⟨0x0C0_1000 + p * 0x40 + 0x04, 1, 1, 0 /- strap -/, .ro⟩
def DRV_PORT_STS_PERST_REFUSED (p : Nat) : Fld := ⟨0x0C0_1000 + p * 0x40 + 0x04, 2, 1, 0, .w1c⟩
def DRV_PORT_CFG_SRIS (p : Nat) : Fld := ⟨0x0C0_1000 + p * 0x40 + 0x08, 0, 1, 0, .rw⟩
def DRV_PORT_CFG_PERST_HOLD (p : Nat) : Fld := ⟨0x0C0_1000 + p * 0x40 + 0x08, 8, 24, 800000, .rw⟩
def DRV_PORT_LINK_LINK_TIMEOUT (p : Nat) : Fld := ⟨0x0C0_1000 + p * 0x40 + 0x0C, 0, 24, 0x2_0000, .rw⟩

/-! ### The register table of R412 -/
def DRV_ATT_CTL_EN (a : Nat) : Fld := ⟨0x0C4_0000 + a * 0x400 + 0x000, 0, 1, 0, .rw⟩
def DRV_ATT_CTL_DATA_EN (a : Nat) : Fld := ⟨0x0C4_0000 + a * 0x400 + 0x000, 8, 1, 0, .rw⟩
def DRV_ATT_CTL_META_EN (a : Nat) : Fld := ⟨0x0C4_0000 + a * 0x400 + 0x000, 9, 1, 0, .rw⟩
def DRV_ATT_CTL_PLACEMENT (a : Nat) : Fld := ⟨0x0C4_0000 + a * 0x400 + 0x000, 10, 2, 0, .rw⟩
def DRV_ATT_CTL_RETIRE (a : Nat) : Fld := ⟨0x0C4_0000 + a * 0x400 + 0x000, 12, 1, 0, .rw⟩
def DRV_ATT_CTL_OPEN_ZONES (a : Nat) : Fld := ⟨0x0C4_0000 + a * 0x400 + 0x000, 16, 4, 8, .rw⟩
def DRV_ATT_STS_STATE (a : Nat) : Fld := ⟨0x0C4_0000 + a * 0x400 + 0x004, 0, 3, 0, .ro⟩
def DRV_ATT_STS_START_FAIL (a : Nat) : Fld := ⟨0x0C4_0000 + a * 0x400 + 0x004, 4, 1, 0, .w1c⟩
def DRV_ATT_STS_HW_STOP (a : Nat) : Fld := ⟨0x0C4_0000 + a * 0x400 + 0x004, 5, 1, 0, .w1c⟩
def DRV_ATT_STS_STOP_LATE (a : Nat) : Fld := ⟨0x0C4_0000 + a * 0x400 + 0x004, 6, 1, 0, .w1c⟩
def DRV_ATT_STS_FAIL_CODE (a : Nat) : Fld := ⟨0x0C4_0000 + a * 0x400 + 0x004, 8, 8, 0, .ro⟩
def DRV_ATT_STS_PRESENT (a : Nat) : Fld := ⟨0x0C4_0000 + a * 0x400 + 0x004, 16, 1, 0, .ro⟩
def DRV_ATT_STS_RETIRED (a : Nat) : Fld := ⟨0x0C4_0000 + a * 0x400 + 0x004, 17, 1, 0, .ro⟩
def DRV_ATT_STS_REBUILT (a : Nat) : Fld := ⟨0x0C4_0000 + a * 0x400 + 0x004, 18, 1, 0, .ro⟩
def DRV_ATT_STS_FLIT (a : Nat) : Fld := ⟨0x0C4_0000 + a * 0x400 + 0x004, 19, 1, 0, .ro⟩
def DRV_ATT_STS_SPEED (a : Nat) : Fld := ⟨0x0C4_0000 + a * 0x400 + 0x004, 20, 3, 0, .ro⟩
def DRV_ATT_STS_WIDTH (a : Nat) : Fld := ⟨0x0C4_0000 + a * 0x400 + 0x004, 24, 3, 0, .ro⟩
def DRV_ATT_STS_RESV_OK (a : Nat) : Fld := ⟨0x0C4_0000 + a * 0x400 + 0x004, 27, 1, 0, .ro⟩
def DRV_ATT_NSID_NSID (a : Nat) : Fld := ⟨0x0C4_0000 + a * 0x400 + 0x008, 0, 32, 1, .rw⟩
def DRV_ATT_INFL_INFLIGHT (a : Nat) : Fld := ⟨0x0C4_0000 + a * 0x400 + 0x00C, 0, 9, 0, .ro⟩
def DRV_ATT_INFL_IOQ (a : Nat) : Fld := ⟨0x0C4_0000 + a * 0x400 + 0x00C, 16, 4, 0, .ro⟩
def DRV_ATT_STRIPS_TOTAL (a : Nat) : Fld := ⟨0x0C4_0000 + a * 0x400 + 0x010, 0, 32, 0, .ro⟩
def DRV_ATT_FREE_FREE (a : Nat) : Fld := ⟨0x0C4_0000 + a * 0x400 + 0x014, 0, 32, 0, .ro⟩
def DRV_ATT_CMDS_COUNT (a : Nat) : Fld := ⟨0x0C4_0000 + a * 0x400 + 0x020, 0, 64, 0, .ro⟩
def DRV_ATT_TIMEOUTS_COUNT (a : Nat) : Fld := ⟨0x0C4_0000 + a * 0x400 + 0x028, 0, 32, 0, .ro⟩
def DRV_ATT_READ_ERR_COUNT (a : Nat) : Fld := ⟨0x0C4_0000 + a * 0x400 + 0x02C, 0, 32, 0, .ro⟩
def DRV_ATT_WRITE_ERR_COUNT (a : Nat) : Fld := ⟨0x0C4_0000 + a * 0x400 + 0x030, 0, 32, 0, .ro⟩

/-! ### The register table of R434 -/
def MDE_REP_CFG_BATCH_MAX : Fld := ⟨0x0AC_0000, 0, 17, 65536, .rw⟩
def MDE_REP_TIMEOUT_TIMEOUT : Fld := ⟨0x0AC_0004, 0, 32, 0x80_0000, .rw⟩
def MDE_REP_RETRY_RETRY : Fld := ⟨0x0AC_0008, 0, 32, 0x80_0000, .rw⟩
def MDE_REP_STS_ACTIVE : Fld := ⟨0x0AC_000C, 0, 9, 0, .ro⟩
def MDE_REP_STS_DIFF_BUSY : Fld := ⟨0x0AC_000C, 16, 1, 0, .ro⟩
def MDE_REP_ENTRIES_TX_COUNT : Fld := ⟨0x0AC_0010, 0, 64, 0, .ro⟩
def MDE_REP_GRAINS_TX_COUNT : Fld := ⟨0x0AC_0018, 0, 64, 0, .ro⟩
def MDE_REP_BYTES_TX_BYTES : Fld := ⟨0x0AC_0020, 0, 64, 0, .ro⟩
def MDE_REP_ENTRIES_RX_COUNT : Fld := ⟨0x0AC_0028, 0, 64, 0, .ro⟩
def MDE_REP_MATCHED_COUNT : Fld := ⟨0x0AC_0030, 0, 64, 0, .ro⟩
def MDE_REP_NEEDED_COUNT : Fld := ⟨0x0AC_0038, 0, 64, 0, .ro⟩

/-! ### The register table of R463 -/
def CDX_CTL_AUTO : Fld := ⟨0x0E0_0000, 0, 1, 1, .rw⟩
def CDX_CTL_WIDEN_EN : Fld := ⟨0x0E0_0000, 1, 1, 1, .rw⟩
def CDX_STS_LINK : Fld := ⟨0x0E0_0004, 0, 3, 0, .ro⟩
def CDX_STS_WIDTH : Fld := ⟨0x0E0_0004, 3, 5, 0, .ro⟩
def CDX_STS_FIRST : Fld := ⟨0x0E0_0004, 8, 4, 0, .ro⟩
def CDX_STS_LANES_OK : Fld := ⟨0x0E0_0004, 16, 16, 0, .ro⟩
def CDX_PEER_LANES_OK : Fld := ⟨0x0E0_0008, 0, 16, 0, .ro⟩
def CDX_PEER_SLOT : Fld := ⟨0x0E0_0008, 16, 1, 0, .ro⟩
def CDX_TIMERS_ACK_TIMEOUT : Fld := ⟨0x0E0_000C, 0, 8, 4, .rw⟩
def CDX_TIMERS_NAK_RESEND : Fld := ⟨0x0E0_000C, 8, 8, 2, .rw⟩
def CDX_TIMERS_REPLAY_MAX : Fld := ⟨0x0E0_000C, 16, 4, 8, .rw⟩
def CDX_TIMERS_LOSS_TIMEOUT : Fld := ⟨0x0E0_000C, 20, 12, 64, .rw⟩
def CDX_LANE_CFG_LANE_ERR_LIMIT : Fld := ⟨0x0E0_0010, 0, 16, 4096, .rw⟩
def CDX_LANE_CFG_LANE_TIMEOUT : Fld := ⟨0x0E0_0010, 16, 16, 0x4000, .rw⟩
def CDX_RETRY_STS_UNACKED : Fld := ⟨0x0E0_0014, 0, 9, 0, .ro⟩
def CDX_RETRY_STS_LAST_NAK : Fld := ⟨0x0E0_0014, 16, 9, 0, .ro⟩
def CDX_REMOTE_RECORDS : Fld := ⟨0x0E0_0018, 0, 32, 0, .ro⟩
def CDX_FLITS_TX_COUNT : Fld := ⟨0x0E0_0020, 0, 64, 0, .ro⟩
def CDX_FLITS_RX_COUNT : Fld := ⟨0x0E0_0028, 0, 64, 0, .ro⟩
def CDX_RS_CORR_COUNT : Fld := ⟨0x0E0_0030, 0, 64, 0, .ro⟩
def CDX_RS_UNCORR_COUNT : Fld := ⟨0x0E0_0038, 0, 32, 0, .ro⟩
def CDX_REPLAYS_COUNT : Fld := ⟨0x0E0_003C, 0, 32, 0, .ro⟩
def CDX_PKT_BAD_COUNT : Fld := ⟨0x0E0_0040, 0, 32, 0, .ro⟩
def CDX_DOWNS_COUNT : Fld := ⟨0x0E0_0044, 0, 32, 0, .ro⟩
def CDX_HB_SEQ_SEQ : Fld := ⟨0x0E0_0048, 0, 32, 0, .ro⟩

/-! ### The register table of R464 -/
def CDX_LANE_CTL_EN (l : Nat) : Fld := ⟨0x0E0_1000 + l * 0x40 + 0x00, 0, 1, 0, .rw⟩
def CDX_LANE_STS_STATE (l : Nat) : Fld := ⟨0x0E0_1000 + l * 0x40 + 0x04, 0, 3, 0, .ro⟩
def CDX_LANE_STS_START_FAIL (l : Nat) : Fld := ⟨0x0E0_1000 + l * 0x40 + 0x04, 4, 1, 0, .w1c⟩
def CDX_LANE_STS_HW_STOP (l : Nat) : Fld := ⟨0x0E0_1000 + l * 0x40 + 0x04, 5, 1, 0, .w1c⟩
def CDX_LANE_STS_STOP_LATE (l : Nat) : Fld := ⟨0x0E0_1000 + l * 0x40 + 0x04, 6, 1, 0, .w1c⟩
def CDX_LANE_STS_FAIL_CODE (l : Nat) : Fld := ⟨0x0E0_1000 + l * 0x40 + 0x04, 8, 8, 0, .ro⟩
def CDX_LANE_STS_SIGNAL (l : Nat) : Fld := ⟨0x0E0_1000 + l * 0x40 + 0x04, 16, 1, 0, .ro⟩
def CDX_LANE_STS_ALIGNED (l : Nat) : Fld := ⟨0x0E0_1000 + l * 0x40 + 0x04, 17, 1, 0, .ro⟩
def CDX_LANE_STS_USED (l : Nat) : Fld := ⟨0x0E0_1000 + l * 0x40 + 0x04, 18, 1, 0, .ro⟩
def CDX_LANE_STS_INVERTED (l : Nat) : Fld := ⟨0x0E0_1000 + l * 0x40 + 0x04, 19, 1, 0, .ro⟩
def CDX_LANE_CORR_COUNT (l : Nat) : Fld := ⟨0x0E0_1000 + l * 0x40 + 0x08, 0, 32, 0, .ro⟩

/-! ### The register table of R498 -/
def FOV_CTL_AUTO_FB : Fld := ⟨0x0F0_0000, 0, 1, 1, .rw⟩
def FOV_CTL_HANDOVER : Fld := ⟨0x0F0_0000, 1, 1, 0, .w1s⟩
def FOV_CTL_FAILBACK : Fld := ⟨0x0F0_0000, 2, 1, 0, .w1s⟩
def FOV_CTL_UNFENCE : Fld := ⟨0x0F0_0000, 3, 1, 0, .w1s⟩
def FOV_CTL_ACCEPT_LOSS : Fld := ⟨0x0F0_0000, 4, 1, 0, .w1s⟩
def FOV_CTL_LEAVE : Fld := ⟨0x0F0_0000, 5, 1, 0, .w1s⟩
def FOV_CFG_HOLDOFF : Fld := ⟨0x0F0_0004, 0, 16, 60, .rw⟩
def FOV_CFG_FENCE_RELEASE : Fld := ⟨0x0F0_0004, 16, 8, 4, .rw⟩
def FOV_CFG_PEER_WAIT : Fld := ⟨0x0F0_0004, 24, 4, 2, .rw⟩
def FOV_CFG_WIT_TRIES : Fld := ⟨0x0F0_0004, 28, 4, 3, .rw⟩
def FOV_CFG2_RESYNC_BATCH : Fld := ⟨0x0F0_0008, 0, 16, 4096, .rw⟩
def FOV_CFG2_HANDOVER_MARK : Fld := ⟨0x0F0_0008, 16, 16, 1024, .rw⟩
def FOV_HANDOVER_LIMIT_BEATS : Fld := ⟨0x0F0_000C, 0, 32, 0xC0_0000, .rw⟩
def FOV_STS_STATE : Fld := ⟨0x0F0_0010, 0, 3, 0, .ro⟩
def FOV_STS_VAULT_HOLD : Fld := ⟨0x0F0_0010, 3, 1, 0, .ro⟩
def FOV_STS_WRITE_HOLD : Fld := ⟨0x0F0_0010, 4, 1, 0, .ro⟩
def FOV_STS_CLAIM_OUT : Fld := ⟨0x0F0_0010, 5, 1, 0, .ro⟩
def FOV_STS_CLAIM_IN : Fld := ⟨0x0F0_0010, 6, 1, 0, .ro⟩
def FOV_STS_FENCE_OUT : Fld := ⟨0x0F0_0010, 7, 1, 0, .ro⟩
def FOV_STS_FENCE_IN : Fld := ⟨0x0F0_0010, 8, 1, 0, .ro⟩
def FOV_STS_PULSE_IN : Fld := ⟨0x0F0_0010, 9, 1, 0, .ro⟩
def FOV_STS_RESYNC_SRC : Fld := ⟨0x0F0_0010, 10, 1, 0, .ro⟩
def FOV_STS_RESYNC_TGT : Fld := ⟨0x0F0_0010, 11, 1, 0, .ro⟩
def FOV_STS_VAULT_NEEDED : Fld := ⟨0x0F0_0010, 12, 1, 0, .ro⟩
def FOV_STS_HEALTHY : Fld := ⟨0x0F0_0010, 16, 3, 0, .ro⟩
def FOV_STS_FENCE_COUNT : Fld := ⟨0x0F0_0010, 20, 4, 0, .ro⟩
def FOV_STS_FENCE_CAUSE : Fld := ⟨0x0F0_0010, 24, 3, 0, .ro⟩
def FOV_LAST_HB_BEAT : Fld := ⟨0x0F0_0018, 0, 64, 0, .ro⟩
def FOV_LAST_PULSE_BEAT : Fld := ⟨0x0F0_0020, 0, 64, 0, .ro⟩
def FOV_LINK_DOWN_BEAT : Fld := ⟨0x0F0_0028, 0, 64, 0, .ro⟩
def FOV_HOME_MASK : Fld := ⟨0x0F0_0030, 0, 64, 0, .ro⟩
def FOV_WIT_GEN_OWN_GEN : Fld := ⟨0x0F0_0038, 0, 64, 0, .ro⟩
def FOV_WIT_STS_MODE : Fld := ⟨0x0F0_0040, 0, 2, 0, .ro⟩
def FOV_WIT_STS_DOM_HOLDER : Fld := ⟨0x0F0_0040, 2, 2, 0, .ro⟩
def FOV_WIT_STS_VAULT_ONLY : Fld := ⟨0x0F0_0040, 4, 2, 0, .ro⟩
def FOV_WIT_STS_MAJORITY : Fld := ⟨0x0F0_0040, 6, 1, 0, .ro⟩
def FOV_WIT_STS_ATTEMPTS : Fld := ⟨0x0F0_0040, 8, 8, 0, .ro⟩
def FOV_PEER_REFRESH_COUNT : Fld := ⟨0x0F0_0048, 0, 64, 0, .ro⟩
def FOV_HOLDOFF_LEFT_EPOCHS : Fld := ⟨0x0F0_0050, 0, 16, 0, .ro⟩
def FOV_RESYNC_BATCH_BATCH : Fld := ⟨0x0F0_0054, 0, 32, 0, .ro⟩
def FOV_RESYNC_LEFT_ENTRIES : Fld := ⟨0x0F0_0058, 0, 32, 0, .ro⟩
def FOV_TAKEOVER_BEATS_BEATS : Fld := ⟨0x0F0_005C, 0, 32, 0, .ro⟩
def FOV_TAKEOVERS_COUNT : Fld := ⟨0x0F0_0060, 0, 32, 0, .ro⟩
def FOV_HANDOVERS_COUNT : Fld := ⟨0x0F0_0064, 0, 32, 0, .ro⟩

/-! ### The register table of R524 -/
def MEM_STS_DDR_CFG : Fld := ⟨0x100_0000, 0, 2, 0 /- strap -/, .ro⟩
def MEM_STS_START : Fld := ⟨0x100_0000, 2, 2, 0, .ro⟩
def MEM_STS_FAIL_CODE : Fld := ⟨0x100_0000, 4, 8, 0, .ro⟩
def MEM_STS_HBM_CLASS : Fld := ⟨0x100_0000, 12, 2, 0, .ro⟩
def MEM_STS_DDR_CLASS : Fld := ⟨0x100_0000, 14, 2, 0, .ro⟩
def MEM_STS_DDR_GIB : Fld := ⟨0x100_0000, 16, 13, 0, .ro⟩
def MEM_CLASS_MED_PCT : Fld := ⟨0x100_0004, 0, 8, 25, .rw⟩
def MEM_CLASS_FULL_PCT : Fld := ⟨0x100_0004, 8, 8, 60, .rw⟩
def MEM_RETRAIN_TEMP_DELTA : Fld := ⟨0x100_0008, 0, 8, 10, .rw⟩
def MEM_RETRAIN_EPOCHS : Fld := ⟨0x100_0008, 8, 8, 64, .rw⟩
def MEM_PATROL_EN : Fld := ⟨0x100_000C, 0, 1, 1, .rw⟩
def MEM_PATROL_RATE : Fld := ⟨0x100_000C, 4, 4, 1, .rw⟩
def MEM_VAULT_CFG_VLOG_GIB : Fld := ⟨0x100_0010, 0, 9, 64, .rw⟩
def MEM_CE_COUNT : Fld := ⟨0x100_0020, 0, 64, 0, .ro⟩
def MEM_UE_COUNT : Fld := ⟨0x100_0028, 0, 64, 0, .ro⟩
def MEM_ERR_ADDR_ADDR : Fld := ⟨0x100_0030, 0, 44, 0, .ro⟩
def MEM_ERR_ADDR_VALID : Fld := ⟨0x100_0030, 63, 1, 0, .w1c⟩
def MEM_GEY_STS_STATE : Fld := ⟨0x100_0040, 0, 2, 0, .ro⟩
def MEM_GEY_STS_RESULT : Fld := ⟨0x100_0040, 2, 4, 0, .ro⟩
def MEM_GEY_STS_RESTORED : Fld := ⟨0x100_0040, 6, 1, 0, .ro⟩
def MEM_GEY_BYTES_BYTES : Fld := ⟨0x100_0048, 0, 64, 0, .ro⟩
def MEM_GEY_BEAT_BEAT : Fld := ⟨0x100_0050, 0, 64, 0, .ro⟩

/-! ### The register table of R530 -/
def MBX_DB_SEQ (c : Nat) : Fld := ⟨bar2 + c * 0x1_0000 + 0x2000, 0, 32, 0, .rw⟩
def MBX_STS_STATE (c : Nat) : Fld := ⟨bar2 + c * 0x1_0000 + 0x2004, 0, 2, 0, .ro⟩
def MBX_STS_DB_LOST (c : Nat) : Fld := ⟨bar2 + c * 0x1_0000 + 0x2004, 2, 1, 0, .w1c⟩
def MBX_STS_WR_LOST (c : Nat) : Fld := ⟨bar2 + c * 0x1_0000 + 0x2004, 3, 1, 0, .w1c⟩
def MBX_STS_RESTARTED (c : Nat) : Fld := ⟨bar2 + c * 0x1_0000 + 0x2004, 4, 1, 0, .w1c⟩
def MBX_REQ_SEQ_SEQ (c : Nat) : Fld := ⟨bar2 + c * 0x1_0000 + 0x2008, 0, 32, 0, .ro⟩
def MBX_RESP_SEQ_SEQ (c : Nat) : Fld := ⟨bar2 + c * 0x1_0000 + 0x200C, 0, 32, 0, .ro⟩
def MBX_CTL_IRQ_EN (c : Nat) : Fld := ⟨bar2 + c * 0x1_0000 + 0x2010, 0, 1, 1, .rw⟩
def MBX_DB_BEAT_BEAT (c : Nat) : Fld := ⟨bar2 + c * 0x1_0000 + 0x2018, 0, 64, 0, .ro⟩

/-! ### The register table of R531 -/
def MBX_GLB_STS_STEWARD : Fld := ⟨bar2 + 0x8_0000, 0, 2, 0, .ro⟩
def MBX_GLB_STS_RESTARTS : Fld := ⟨bar2 + 0x8_0000, 8, 8, 0, .ro⟩
def MBX_GLB_STS_TICKETS : Fld := ⟨bar2 + 0x8_0000, 16, 9, 0, .ro⟩
def MBX_FW_REL_MINOR : Fld := ⟨bar2 + 0x8_0004, 0, 16, 0, .ro⟩
def MBX_FW_REL_MAJOR : Fld := ⟨bar2 + 0x8_0004, 16, 16, 0, .ro⟩
def MBX_WDOG_TIMEOUT : Fld := ⟨bar2 + 0x8_0008, 0, 32, 0x40_0000, .rw⟩
def MBX_KICK_BEAT : Fld := ⟨bar2 + 0x8_0010, 0, 64, 0, .ro⟩

/-! ### The register table of R579 -/
def EVC_STS_FAULT : Fld := ⟨0x010_0004, 0, 1, 0, .ro⟩
def EVC_STS_ANY : Fld := ⟨0x010_0004, 1, 1, 0, .ro⟩
def EVC_STS_PENDING_CNT : Fld := ⟨0x010_0004, 16, 12, 0, .ro⟩
def EVC_SUMMARY_GROUP : Fld := ⟨0x010_0010, 0, 64, 0, .ro⟩

/-! ### The register table of R580 -/
def FUM_CTL_FLUSH : Fld := ⟨0x020_0000, 0, 1, 0, .w1s⟩
def FUM_CTL_RESUME : Fld := ⟨0x020_0000, 1, 1, 0, .w1s⟩
def FUM_CTL_NOR_RETRY : Fld := ⟨0x020_0000, 2, 1, 0, .w1s⟩
def FUM_STS_SEQ_LOADED : Fld := ⟨0x020_0004, 0, 1, 0, .ro⟩
def FUM_STS_FLUSHING : Fld := ⟨0x020_0004, 1, 1, 0, .ro⟩
def FUM_STS_FROZEN : Fld := ⟨0x020_0004, 2, 1, 0, .ro⟩
def FUM_STS_NOR_FAILED : Fld := ⟨0x020_0004, 3, 1, 0, .ro⟩
def FUM_STS_LG_VALID : Fld := ⟨0x020_0004, 4, 1, 0, .w1c⟩
def FUM_STS_PIN_VALID : Fld := ⟨0x020_0004, 5, 1, 0, .w1c⟩
def FUM_STS_LG_COUNT : Fld := ⟨0x020_0004, 8, 4, 0, .ro⟩
def FUM_STS_PIN_COUNT : Fld := ⟨0x020_0004, 16, 9, 0, .ro⟩
def FUM_NEWEST_SEQ : Fld := ⟨0x020_0008, 0, 32, 0, .ro⟩
def FUM_OLDEST_SEQ : Fld := ⟨0x020_000C, 0, 32, 0, .ro⟩
def FUM_FLUSHED_SEQ : Fld := ⟨0x020_0010, 0, 32, 0, .ro⟩
def FUM_SEQ_NEXT_SEQ : Fld := ⟨0x020_0014, 0, 32, 0, .ro⟩
def FUM_PART_BASE_OFFSET : Fld := ⟨0x020_0018, 0, 32, 0, .ro⟩
def FUM_UNFLUSHED_RECORDS : Fld := ⟨0x020_001C, 0, 14, 0, .ro⟩
def FUM_LOST_COUNT : Fld := ⟨0x020_0020, 0, 32, 0, .ro⟩
def FUM_DROPPED_COUNT : Fld := ⟨0x020_0024, 0, 32, 0, .ro⟩

/-! ### The register table of R598 -/
def PMC_BLK_CTL_FREEZE (b : Nat) : Fld := ⟨pmcBase b + 0x000, 0, 1, 0, .rw⟩
def PMC_BLK_CTL_USER_EN (b : Nat) : Fld := ⟨pmcBase b + 0x000, 8, 1, 0, .rw⟩
def PMC_BLK_STS_WRAPPED (b : Nat) : Fld := ⟨pmcBase b + 0x004, 0, 8, 0, .w1c⟩
def PMC_BLK_STS_OVF (b : Nat) : Fld := ⟨pmcBase b + 0x004, 8, 8, 0, .w1c⟩
def PMC_BLK_STS_LOST_CARRY (b : Nat) : Fld := ⟨pmcBase b + 0x004, 16, 8, 0, .w1c⟩
def PMC_CYCLE_CYCLE (b : Nat) : Fld := ⟨pmcBase b + 0x008, 0, 64, 0, .ro⟩
def PMC_CFG_EVENT (b n : Nat) : Fld := ⟨pmcBase b + 0x100 + n * 0x10 + 0x0, 0, 10, 0, .rw⟩
def PMC_CFG_EN (b n : Nat) : Fld := ⟨pmcBase b + 0x100 + n * 0x10 + 0x0, 12, 1, 0, .rw⟩
def PMC_CFG_CHAIN (b n : Nat) : Fld := ⟨pmcBase b + 0x100 + n * 0x10 + 0x0, 13, 1, 0, .rw⟩
def PMC_CFG_SAMPLE (b n : Nat) : Fld := ⟨pmcBase b + 0x100 + n * 0x10 + 0x0, 14, 1, 0, .rw⟩
def PMC_CFG_THRESH (b n : Nat) : Fld := ⟨pmcBase b + 0x100 + n * 0x10 + 0x0, 16, 16, 0, .rw⟩
def PMC_CNT_COUNT (b n : Nat) : Fld := ⟨pmcBase b + 0x100 + n * 0x10 + 0x4, 0, 32, 0, .rw⟩
def PMC_RELOAD_RELOAD (b n : Nat) : Fld := ⟨pmcBase b + 0x100 + n * 0x10 + 0x8, 0, 32, 0, .rw⟩
def PMC_SMP_STS_SAMPLE_VALID (b : Nat) : Fld := ⟨pmcBase b + 0x300, 0, 1, 0, .w1c⟩
def PMC_SMP_STS_COUNTER (b : Nat) : Fld := ⟨pmcBase b + 0x300, 1, 3, 0, .ro⟩
def PMC_SMP_STS_SAMPLE_LOST (b : Nat) : Fld := ⟨pmcBase b + 0x300, 8, 8, 0, .ro⟩
def PMC_SMP_STS_TAG (b : Nat) : Fld := ⟨pmcBase b + 0x300, 16, 16, 0, .ro⟩
def PMC_SMP_QP_QP (b : Nat) : Fld := ⟨pmcBase b + 0x304, 0, 14, 0, .ro⟩
def PMC_SMP_OVF_OVF_BEAT (b : Nat) : Fld := ⟨pmcBase b + 0x308, 0, 64, 0, .ro⟩
def PMC_SMP_DLV_DLV_BEAT (b : Nat) : Fld := ⟨pmcBase b + 0x310, 0, 64, 0, .ro⟩
def PMC_SNAP_EPOCH_EPOCH (b : Nat) : Fld := ⟨pmcBase b + 0x400, 0, 64, 0, .ro⟩
def PMC_SNAP_CYCLE_CYCLE (b : Nat) : Fld := ⟨pmcBase b + 0x408, 0, 64, 0, .ro⟩
def PMC_SNAP_CNT_COUNT (b n : Nat) : Fld := ⟨pmcBase b + 0x410 + n * 4, 0, 32, 0, .ro⟩

/-! ### The register table of R623 -/
def FIS_CTL_SERVICE : Fld := ⟨0x120_0000, 0, 1, 0, .w1s⟩
def FIS_CTL_ATTN : Fld := ⟨0x120_0000, 1, 1, 0, .rw⟩
def FIS_STS_PHASE : Fld := ⟨0x120_0004, 0, 2, 0, .ro⟩
def FIS_STS_SWITCHING : Fld := ⟨0x120_0004, 2, 1, 0, .ro⟩
def FIS_STS_STRAP_BAD : Fld := ⟨0x120_0004, 3, 1, 0, .ro⟩
def FIS_STS_SLOT_CONFLICT : Fld := ⟨0x120_0004, 4, 1, 0, .ro⟩
def FIS_STS_BUTTON : Fld := ⟨0x120_0004, 5, 1, 0, .ro⟩
def FIS_STRAP_VALUE : Fld := ⟨0x120_0008, 0, 16, 0 /- sampled -/, .ro⟩
def FIS_STRAP_DIR : Fld := ⟨0x120_0008, 16, 16, 0 /- sampled -/, .ro⟩
def FIS_LEVEL_LEVEL : Fld := ⟨0x120_000C, 0, 16, 0, .ro⟩
def FIS_LEVEL_DRIVEN : Fld := ⟨0x120_000C, 16, 16, 0, .ro⟩
def FIS_GPIO_OE14 : Fld := ⟨0x120_0010, 0, 1, 0, .rw⟩
def FIS_GPIO_OE15 : Fld := ⟨0x120_0010, 1, 1, 0, .rw⟩
def FIS_GPIO_OUT14 : Fld := ⟨0x120_0010, 8, 1, 0, .rw⟩
def FIS_GPIO_OUT15 : Fld := ⟨0x120_0010, 9, 1, 0, .rw⟩
def FIS_LED_DATA_DATA : Fld := ⟨0x120_0014, 0, 32, 0, .rw⟩
def FIS_LED_CFG_LEN : Fld := ⟨0x120_0018, 0, 6, 32, .rw⟩
def FIS_PHASE_BEAT_BEAT : Fld := ⟨0x120_0020, 0, 64, 0, .ro⟩

/-! ### The register table of R643 -/
def UPD_CTL_DISCARD : Fld := ⟨0x140_0000, 0, 1, 0, .w1s⟩
def UPD_CFG_CARD_EN : Fld := ⟨0x140_0004, 0, 1, 1, .rw⟩
def UPD_CFG_LIVE_TIMEOUT : Fld := ⟨0x140_0004, 4, 4, 4, .rw⟩
def UPD_CFG_HANDOFF_LIMIT : Fld := ⟨0x140_0004, 8, 8, 32, .rw⟩
def UPD_CFG_COMMIT_LIMIT : Fld := ⟨0x140_0004, 16, 16, 256, .rw⟩
def UPD_BOOT_SEL_VALID : Fld := ⟨0x140_0008, 0, 1, 0, .ro⟩
def UPD_BOOT_SEL_SLOT : Fld := ⟨0x140_0008, 1, 1, 0, .ro⟩
def UPD_STS_STAGE : Fld := ⟨0x140_0010, 0, 2, 0, .ro⟩
def UPD_STS_HOLDER : Fld := ⟨0x140_0010, 2, 2, 0, .ro⟩
def UPD_STS_ACT : Fld := ⟨0x140_0010, 4, 3, 0, .ro⟩
def UPD_STS_RUN_SLOT : Fld := ⟨0x140_0010, 7, 1, 0, .ro⟩
def UPD_STS_FALLBACK : Fld := ⟨0x140_0010, 8, 1, 0, .ro⟩
def UPD_STS_CARD : Fld := ⟨0x140_0010, 9, 1, 0, .ro⟩
def UPD_STS_SOAK : Fld := ⟨0x140_0010, 12, 4, 0, .ro⟩
def UPD_STS_RESULT : Fld := ⟨0x140_0010, 16, 8, 0, .ro⟩
def UPD_STS_DETAIL : Fld := ⟨0x140_0010, 24, 8, 0, .ro⟩
def UPD_ARM_EPOCH_EPOCH : Fld := ⟨0x140_0014, 0, 64, 0, .ro⟩
def UPD_REL_RUN_REL : Fld := ⟨0x140_001C, 0, 32, 0, .ro⟩
def UPD_REL_STAGED_REL : Fld := ⟨0x140_0020, 0, 32, 0, .ro⟩
def UPD_ROLLBACK_COUNT : Fld := ⟨0x140_0024, 0, 32, 0 /- fuses -/, .ro⟩
def UPD_SCHEMA_SCHEMA : Fld := ⟨0x140_0028, 0, 32, 0, .ro⟩
def UPD_PKG_LEN_BYTES : Fld := ⟨0x140_002C, 0, 32, 0, .ro⟩

/-! ### The register table of R652 -/
def FIS_PRB_CFG_DIV : Fld := ⟨0x120_0120, 0, 4, 11, .rw⟩
def FIS_PRB_CFG_EN : Fld := ⟨0x120_0120, 8, 1, 0, .rw⟩

/-! ### The register table of R662 -/
def SEC_CTL_ALARM_CLR : Fld := ⟨0x150_0000, 0, 1, 0, .w1s⟩
def SEC_STS_LOCKED : Fld := ⟨0x150_0004, 0, 1, 0, .ro⟩
def SEC_STS_ACTIVE : Fld := ⟨0x150_0004, 1, 4, 0, .ro⟩
def SEC_STS_ALARM_LATCH : Fld := ⟨0x150_0004, 5, 4, 0, .w1c⟩
def SEC_STS_CLR_REFUSED : Fld := ⟨0x150_0004, 9, 1, 0, .w1c⟩
def SEC_STS_DBG_STATE : Fld := ⟨0x150_0004, 10, 2, 0, .ro⟩
def SEC_STS_DUK_BLOCKED : Fld := ⟨0x150_0004, 12, 1, 0, .ro⟩
def SEC_STS_CHAL_VALID : Fld := ⟨0x150_0004, 13, 1, 0, .ro⟩
def SEC_STS_SCOPE : Fld := ⟨0x150_0004, 14, 2, 0, .ro⟩
def SEC_TEMP_NOW : Fld := ⟨0x150_0008, 0, 8, 0, .ro⟩
def SEC_TEMP_MAX : Fld := ⟨0x150_0008, 8, 8, 0, .ro⟩
def SEC_TEMP_ALARM_AT : Fld := ⟨0x150_0008, 16, 8, 0 /- strap -/, .ro⟩
def SEC_FUSE_KEY_PRESENT : Fld := ⟨0x150_000C, 0, 4, 0 /- fuses -/, .ro⟩
def SEC_FUSE_KEY_REVOKED : Fld := ⟨0x150_000C, 4, 4, 0 /- fuses -/, .ro⟩
def SEC_FUSE_DBG_PRESENT : Fld := ⟨0x150_000C, 8, 2, 0 /- fuses -/, .ro⟩
def SEC_FUSE_BOOT_KEY : Fld := ⟨0x150_000C, 12, 2, 0, .ro⟩
def SEC_SERIAL_SERIAL : Fld := ⟨0x150_0010, 0, 64, 0 /- fuses -/, .ro⟩
def SEC_ALARM_BEAT_BEAT : Fld := ⟨0x150_0018, 0, 64, 0, .ro⟩
def SEC_DBG_BEAT_BEAT : Fld := ⟨0x150_0020, 0, 64, 0, .ro⟩
def SEC_JTAG_IR : Fld := ⟨0x150_0028, 0, 8, 0x01, .ro⟩
def SEC_JTAG_REFUSED : Fld := ⟨0x150_0028, 16, 16, 0, .ro⟩
/-! ### Fields that the tables give as groups -/
/-- R681: slice s's control and status registers, at its base and at base + 4. -/
def SLI_CTL_EN (s : Nat) : Fld := ⟨sliceBase s, 0, 1, 0, .rw⟩
def SLI_STS_STATE (s : Nat) : Fld := ⟨sliceBase s + 4, 0, 3, 0, .ro⟩
def SLI_STS_START_FAIL (s : Nat) : Fld := ⟨sliceBase s + 4, 4, 1, 0, .w1c⟩
def SLI_STS_HW_STOP (s : Nat) : Fld := ⟨sliceBase s + 4, 5, 1, 0, .w1c⟩
def SLI_STS_STOP_LATE (s : Nat) : Fld := ⟨sliceBase s + 4, 6, 1, 0, .w1c⟩
def SLI_STS_FAIL_CODE (s : Nat) : Fld := ⟨sliceBase s + 4, 8, 8, 0, .ro⟩
/-- R58, R70: MODE of quad q, three bits at 4q. -/
def HPT_QUAD_MODE (q : Nat) : Fld := ⟨0x050_0000, 4 * q, 3, 0, .rw⟩
/-- R141: the ANA state of group g on this head, four bits, reset to Non-Optimized. -/
def NVT_ANA (g : Nat) : Fld := ⟨0x080_0010 + 4 * (g / 8), 4 * (g % 8), 4, 2, .ro⟩
/-- R141: whether the last majority witness record assigns group g to this head. -/
def NVT_ANA_OWN (g : Nat) : Fld := ⟨0x080_0030 + 4 * (g / 32), g % 32, 1, 0, .ro⟩
/-- R238, R262: word i of the key waiting in the KEY_LOAD registers. -/
def KEY_LOAD_K (i : Nat) : Fld := ⟨0x040_0010 + 4 * i, 0, 32, 0, .wo⟩
/-- R405, R410: the attach point of witness drive i. -/
def DRV_WIT_CFG_WIT (i : Nat) : Fld := ⟨0x0C0_0020, 8 * i, 7, 0, .rw⟩
/-- R579: the pending bit of event source n. -/
def EVC_PEND (n : Nat) : Fld := ⟨0x010_0100 + 4 * (n / 32), n % 32, 1, 0, .w1c⟩
/-- UPD_DIGEST and UPD_PEER_DIGEST, word i of 12. -/
def UPD_DIGEST (i : Nat) : Fld := ⟨0x140_0040 + 4 * i, 0, 32, 0, .ro⟩
def UPD_PEER_DIGEST (i : Nat) : Fld := ⟨0x140_0080 + 4 * i, 0, 32, 0, .ro⟩
/-- R579, R565: the routing register of event source n. -/
def EVC_ROUTE_MSIX_EN (n : Nat) : Fld := ⟨0x010_1000 + 4 * n, 0, 1, 0, .rw⟩
def EVC_ROUTE_STEW_EN (n : Nat) : Fld :=
  ⟨0x010_1000 + 4 * n, 1, 1, if faultClass (defaultSeverity n) then 1 else 0, .rw⟩
def EVC_ROUTE_FUM_EN (n : Nat) : Fld := ⟨0x010_1000 + 4 * n, 2, 1, 1, .rw⟩
def EVC_ROUTE_FAULT_EN (n : Nat) : Fld :=
  ⟨0x010_1000 + 4 * n, 3, 1, if faultClass (defaultSeverity n) then 1 else 0, .rw⟩
def EVC_ROUTE_SEV (n : Nat) : Fld := ⟨0x010_1000 + 4 * n, 4, 4, defaultSeverity n, .rw⟩
def EVC_ROUTE_VECTOR (n : Nat) : Fld := ⟨0x010_1000 + 4 * n, 16, 11, n % 2048, .rw⟩
def FIS_PRB_SEL_POINT (n : Nat) : Fld := ⟨0x120_0100 + 4 * n, 0, 12, 0, .rw⟩
/-- SEC_CHAL, word i of the challenge. -/
def SEC_CHAL (i : Nat) : Fld := ⟨0x150_0030 + 4 * i, 0, 32, 0, .ro⟩

end Sys2Proof.Machine.Reg
end

