-- ==== Sys2Proof/Machine/State.lean ====
section
/-! DEFINITION. The state of the FH6400: every register, table, buffer, queue and mode that spec/ gives
it, as plain data, and the queue of commands that wait. -/
namespace Sys2Proof.Machine

/-! ### Shared (chapters 1, 2 and 19) -/

/-- The states of a unit (R17); PEND_ON is STOPPING with a start requested. -/
inductive UState where
  | off | starting | on | stopping | pendOn
deriving DecidableEq, Repr

/-- A unit's EN, STATE and status flags (R17), as its registers or its context hold them. -/
structure UnitRec where
  en : Bool := false
  state : UState := .off
  startFail : Bool := false
  hwStop : Bool := false
  stopLate : Bool := false
  failCode : Nat := 0
deriving DecidableEq, Repr

/-- A raise on its way to the event controller (R563): source, code, three parameters, and its stamp. -/
structure Raise where
  src : Nat
  code : Nat
  p0 : Nat
  p1 : Nat
  p2 : Nat
  beat : Nat
deriving DecidableEq, Repr

/-- A window's registers (R25): INDEX, READY, BAD_INDEX, BEAT and the data words captured; `req` is a
capture requested and not yet made. -/
structure WinRec where
  idx : Nat := 0
  idxHi : Nat := 0
  req : Bool := false
  ready : Bool := false
  bad : Bool := false
  beat : Nat := 0
  data : List Nat := []
deriving DecidableEq, Repr

/-- For what a job of the write-path engine or of the erasure unit works: a grain of a read, a region group's merge, a segment's parity, its own verify
pass, a segment that the peer asked to verify, or a segment being rebuilt. The other engines' jobs are found by their engine. -/
inductive JobFor where
  | none | read (rd : Nat) | group (g : Nat) | parity (seg : Nat) | check (seg : Nat) | verify (seg : Nat) | rebuild (seg : Nat)
deriving DecidableEq, Repr

/-- A job on a slice's engine (R32, R33): the engine, its priority class there (a lower number goes
first), its size left in bytes, whether it has begun, and for what it works. -/
structure Job where
  eng : Engine
  cls : Nat
  left : Nat
  level : Nat
  begun : Bool
  held : Nat
  who : JobFor := .none
deriving DecidableEq, Repr

/-- A slice's scheduler, admission queue. `jobs` is in the order in which jobs began
or were posted; `waiting` holds commands in the order of arrival (R35). `wpeAt` is the beat edge, plus 1, at which the write-path engine last
took a quantum (R163). -/
structure Slice where
  jobs : List Job := []
  waiting : List HostCmd := []
  wpeAt : Nat := 0
  lastTag : Nat := 0
  lastTagQp : Nat := 0
deriving DecidableEq, Repr

/-- The follower's synchronisation (R43 to R46, R461). `slew` counts core cycles still to be slewed,
positive when the follower leads. -/
structure SyncSt where
  seq : Word := 0
  reqBeat : Nat := 0
  reqCycle : Nat := 0
  awaiting : Bool := false
  measured : Bool := false
  slew : Int := 0
  lastBeatLen : Nat := 256
deriving DecidableEq, Repr

/-! ### The transport (chapter 3) -/

/-- XSTATE of a queue pair (R76). -/
inductive XState where
  | reset | init | rtr | rts | error
deriving DecidableEq, Repr

/-- A message sent and not yet acknowledged: its path, the PSNs of its packets not yet acknowledged, how many packets came before them, its
MSG_ID and its work item. -/
structure SentMsg where
  path : Nat
  first : Psn
  last : Psn
  off : Nat
  msgId : BitVec 16
  item : WorkItem
deriving DecidableEq, Repr

/-- One path of a multipath queue pair (R95, R100). -/
structure PathRec where
  txNext : Psn := 0
  port : Nat := 0
  up : Bool := false
  txUna : Psn := 0
  retryLeft : Nat := 0
  rxEpsn : Psn := 0
  nakSent : Bool := false
deriving DecidableEq, Repr

/-- A queue-pair context: the fields of R100, then what the engine keeps beside them. -/
structure QpCtx where
  unit : UnitRec := {}
  cls : Nat := 0
  port : Nat := 0
  mp : Bool := false
  npath : Nat := 0
  attrValid : Bool := false
  incarn : Nat := 0
  xstate : XState := .reset
  destQpn : Psn := 0
  pmtu : Nat := 0
  ackTo : Nat := 0
  retryCnt : Nat := 0
  rnrRetry : Nat := 0
  rnrTimer : Nat := 0
  rdMax : Nat := 0
  pd : Nat := 0
  sqPsn : Psn := 0
  sqUna : Psn := 0
  retryLeft : Nat := 0
  rnrLeft : Nat := 0
  rqEpsn : Psn := 0
  creditTx : Nat := 0
  rqFree : Nat := 0
  rqSlots : Nat := 0
  rdOut : Nat := 0
  cc : Word := 0
  msn : Psn := 0
  msgTxNext : BitVec 16 := 0
  msgTxAck : BitVec 16 := 0
  msgRxBase : BitVec 16 := 0
  msgRxInfl : Nat := 0
  rate : Nat := 64
  path0 : PathRec := {}
  path1 : PathRec := {}
  path2 : PathRec := {}
  path3 : PathRec := {}
deriving DecidableEq, Repr

/-- What the transport engine holds for a queue pair outside the context window: the send queue, the
messages unacknowledged, the message being received with the own pages reserved for it (R150), the PSNs and sizes of the connection,
and the pairing of R685. `rnrWait` is the RNR wait of each path, `nextTx` the edge from which the rate limit lets it send (R67), and `mpIds` the
multipath messages that MSG_ACK has not passed: 1 for a SEND, 2 for an RDMA READ (R90). -/
structure QpWork where
  sendQ : List WorkItem := []
  sent : List SentMsg := []
  flushed : List WorkItem := []
  rx : List Byte := []
  rxKey : Option Reth := none
  rxOff : Nat := 0
  rxPages : List Nat := []
  rdBuf : List Byte := []
  nakSent : Bool := false
  startSqPsn : Psn := 0
  startRqPsn : Psn := 0
  msgWindow : Nat := 0
  pktMax : Nat := 0
  rnrWait : List (Nat × Nat) := []
  nextTx : Nat := 0
  mpIds : List (BitVec 16 × Nat) := []
  partnerStart : Bool := false
  peerReady : Bool := false
deriving DecidableEq, Repr

/-- A bitmap of the pool (R92, R99): its owner, its message and the packets that have arrived. `imm` and
`buf` hold what a message not yet released carries, `pages` the own pages reserved for its data (R150). -/
structure Bitmap where
  valid : Bool := false
  qp : Nat := 0
  msgId : BitVec 16 := 0
  pktLast : Nat := 0
  bits : Nat := 0
  imm : Option Word := none
  op : RcOp := .send
  buf : List (Nat × List Byte) := []
  pages : List Nat := []
deriving DecidableEq, Repr

/-- The state of a registered region (R96). -/
inductive MrState where
  | free | valid | revoking
deriving DecidableEq, Repr

/-- A registered region (R96, R99). -/
structure Region where
  state : MrState := .free
  write : Bool := false
  tag : Nat := 0
  pd : Nat := 0
  base : Nat := 0
  len : Nat := 0
  inflight : Nat := 0
deriving DecidableEq, Repr

/-- Bytes that passed the key check and are still being placed (R98), in the Caldera mirror window (`mirror`) or elsewhere. The last packet
of a put carries the whole put, which takes effect with it: context, PSN and bytes (R454). -/
structure Placing where
  mr : Nat
  mirror : Bool := false
  addr : Nat
  bytes : List Byte
  left : Nat
  put : Option (Nat × Psn × List Byte) := none
deriving DecidableEq, Repr

/-- A port's flow control and counters outside its registers (R65 to R68): bytes buffered and XOFF sent
per priority, and which priorities the partner holds paused. -/
structure PortRec where
  rxBufA : Nat := 0
  rxBufB : Nat := 0
  xoffA : Bool := false
  xoffB : Bool := false
  pausedA : Bool := false
  pausedB : Bool := false
  discardA : Bool := false
  discardB : Bool := false
  txQ : List (Prio × List Byte) := []
  ip4 : BitVec 32 := 0
  ip6 : List (List Byte) := []
deriving DecidableEq, Repr

/-- The host ports and the transport: `toSteward` holds frames and datagrams for the firmware (R63, R72),
`delivered` the complete messages of mirror and replication contexts, by context, and `imms` the immediate data of completed messages (R94). -/
structure XptSt where
  ports : List (Nat × PortRec) := []
  ctxs : List (Nat × QpCtx) := []
  works : List (Nat × QpWork) := []
  bitmaps : List (Nat × Bitmap) := []
  regions : List (Nat × Region) := []
  placing : List Placing := []
  toSteward : List (Nat × List Byte) := []
  delivered : List (Nat × List Byte) := []
  imms : List (Nat × Word) := []
deriving DecidableEq, Repr

/-! ### The NVMe target (chapter 4) -/

/-- An NVMe status: status code type and status code (R102, R140). -/
structure Status where
  sct : Nat
  sc : Nat
deriving DecidableEq, Repr

/-- The state of a tag (R141). -/
inductive TagState where
  | free | running | completing
deriving DecidableEq, Repr

/-- A tag (R118, R141): the command it holds, its volume, its admission, whether its path has begun, the
own pages of its cutter grains, its region groups queued, not yet placed, and on the vault path, the bytes fetched so
far, the last put that its completion waits for, the beat by which read data or forwarded parts are out, and
its status. -/
structure Tag where
  state : TagState := .free
  fwdOut : Bool := false
  fwdIn : Bool := false
  cmd : Option HostCmd := none
  vol : Nat := 0
  beat : Nat := 0
  order : Nat := 0
  begun : Bool := false
  pages : List Nat := []
  groupsLeft : Nat := 0
  vaultLeft : Nat := 0
  fetched : Nat := 0
  data : List Byte := []
  left : Nat := 0
  out : Nat := 0
  mirror : Option (Nat × Word) := none
  status : Option Status := none
  cplData : List Byte := []
  posted : Bool := false
  leaveAt : Bool := false
  ended : Nat := 0
  judged : Nat := 0
  resv : Bool := false
deriving DecidableEq, Repr

/-- A registrant of a volume: host index and reservation key (R132). -/
structure Registrant where
  host : Nat
  key : DWord
deriving DecidableEq, Repr

/-- The reservation state of a volume (R132 to R136). -/
structure Resv where
  rtype : Nat := 0
  ptpl : Bool := false
  holder : Nat := 0
  regs : List Registrant := []
  gen : Word := 0
deriving DecidableEq, Repr

/-- What a change of reservation was, for its notices (R136): who made it, by which action. -/
inductive ResvWhy where
  | quiet | release | preempt | clear
deriving DecidableEq, Repr

/-- A change of reservation that waits for its journal record (R135): the new state, the command that made it, by its tag or by the queue and
identifier of a Set Features, the put that mirrors it, and what it was. -/
structure ResvPend where
  new : Resv
  tag : Option Nat
  reply : Option (Nat × Nat) := none
  wait : Option (Nat × Word) := none
  host : Nat := 0
  why : ResvWhy := .quiet
deriving DecidableEq, Repr

/-- A volume as a namespace (R104, R105, R141), with its home subsystem, its reservation, and the
changes of reservation that wait for their journal records, oldest first (R135). `resvIn` is the state before a change whose records the peer
still sends, with what made it and its count of registrants. -/
structure Namespace where
  valid : Bool := false
  lbaf : Bool := false
  roVol : Bool := false
  anaGrp : Nat := 0
  subsys : Nat := 0
  nsid : Nat := 0
  size : Nat := 0
  deleting : Bool := false
  resv : Resv := {}
  resvNext : List ResvPend := []
  resvIn : Option (Resv × Nat × Nat) := none
deriving DecidableEq, Repr

/-- An NVM subsystem (R102): its name and the hosts allowed (R547). -/
structure Subsys where
  valid : Bool := false
  nqn : List Byte := []
  hosts : List Nat := []
deriving DecidableEq, Repr

/-- An entry of the Error Information log (R370): its number, the queue, command and NVMe status, the first failing LBA and its namespace. -/
structure ErrRec where
  num : Nat
  qid : Nat
  cid : Nat
  status : Nat
  lba : Nat
  nsid : Nat
deriving DecidableEq, Repr

/-- A controller (R102, R112, R113): subsystem, host, its queues by context index, properties, features,
held Asynchronous Event Requests and the keep-alive clock. `disc` is the discovery controller of the head. -/
structure Ctrl where
  valid : Bool := false
  disc : Bool := false
  subsys : Nat := 0
  host : Nat := 0
  adminQp : Nat := 0
  ioQps : List Nat := []
  cc : Word := 0
  csts : Word := 0
  numQueues : Nat := 0
  asyncConfig : Word := 0
  resvMask : Word := 0
  kato : Nat := 0
  lastCmdBeat : Nat := 0
  aers : List (BitVec 16) := []
  events : List Word := []
  resvLog : List (Nat × Nat) := []
  errors : Nat := 0
  errLog : List ErrRec := []
  changedNs : List Nat := []
deriving DecidableEq, Repr

/-- How far a DH-HMAC-CHAP exchange has come (R112): the next message that the steward has to give, or the end. -/
inductive AuthStep where
  | none | challenge | reply | success | failure (why : Nat) | done
deriving DecidableEq, Repr

/-- What a connection's queue pair serves: controller, queue identifier, host index, submission-queue
flow control, entries freed (R117) and the authentication exchange in progress with its hash, group and transaction. -/
structure QpBind where
  cntlid : Nat := 0
  qid : Nat := 0
  bound : Bool := false
  noFlow : Bool := false
  sqhd : BitVec 16 := 0
  sqSize : Nat := 0
  auth : AuthStep := .none
  authHash : Nat := 0
  authGroup : Nat := 0
  authTid : Nat := 0
  closing : Bool := false
deriving DecidableEq, Repr

/-- The NVMe target. `hosts` maps host identifiers to host indices by position (R132). -/
structure NvtSt where
  tags : List (Nat × Tag) := []
  ns : List (Nat × Namespace) := []
  subsys : List (Nat × Subsys) := []
  ctrls : List (Nat × Ctrl) := []
  binds : List (Nat × QpBind) := []
  hosts : List Nat := []
  adminWait : List Nat := []
deriving DecidableEq, Repr

/-! ### Maps, grain records, snapshots and the journal (chapter 10) -/

/-- The body of a journal record (R326). -/
inductive JBody where
  | ringHead (page prevSeg prevOff : Nat)
  | insert (tree key grid : Nat) (addref zero : Bool)
  | place (grid seg off stored gsize : Nat) (raw : Bool) (kslot : Nat) (fp : List Byte)
  | refcount (grid : Nat) (delta : Int)
  | remap (tree key newGrid drawn entries : Nat)
  | ret (grid : Nat)
  | nonceHwm (slot head gen counter : Nat)
  | snapshot (tree src group beat : Nat)
  | treeDelete (tree : Nat)
  | segment (seg event : Nat)
  | relocate (grid seg off stored : Nat)
  | steward (what a b c : Nat)
deriving DecidableEq, Repr

/-- A journal record (R325): its home slice and order of admission, its sequence number, its admission
beat, and whether the CRC of its stored form is good. -/
structure JRec where
  home : Nat
  order : Nat
  seq : Nat
  admitBeat : Nat
  body : JBody
  good : Bool
deriving DecidableEq, Repr

/-- A leaf entry (R309): its KEY (R310), its SHADOW and its grain record ID. -/
structure LeafEnt where
  key : Nat
  shadow : Nat
  grid : Nat
deriving DecidableEq, Repr

/-- A map page (R308, R309): a leaf has `ents`, an interior page `kids`, each the lowest KEY of a child and the
child's page number. `share` is the SHARE of its locator entry (R307). -/
structure MapPage where
  level : Nat := 0
  tree : Nat := 0
  low : Nat := 0
  ents : List LeafEnt := []
  kids : List (Nat × Nat) := []
  share : Nat := 0
  damaged : Bool := false
  resident : Bool := true
deriving DecidableEq, Repr

/-- The state of a tree (R340). -/
inductive TreeState where
  | free | pending | ready | deleting | damaged
deriving DecidableEq, Repr

/-- A tree entry (R340): a volume's or a snapshot's. `root` 0 is no page: a tree without entries. -/
structure Tree where
  state : TreeState := .free
  depth : Nat := 0
  root : Nat := 0
  source : Nat := 0x1FFFFF
  beat : Nat := 0
  group : Nat := 0
deriving DecidableEq, Repr

/-- The state of a grain record (R313). -/
inductive RecState where
  | free | unplaced | placed | dead
deriving DecidableEq, Repr

/-- A grain record (R313). `damaged` is that of its page (R335). -/
structure GrainRec where
  seg : Nat := 0
  off : Nat := 0
  stored : Nat := 0
  refs : Nat := 0
  gsize : Nat := 0
  raw : Bool := false
  state : RecState := .free
  kslot : Nat := 0
  fp : List Byte := []
  damaged : Bool := false
deriving DecidableEq, Repr

/-- The state of a segment in the segment table (R339). -/
inductive SegState where
  | free | live | relocating | reclaiming
deriving DecidableEq, Repr

/-- A segment-table entry: its state, its live units, its descriptor of R272, and the epoch at which its live
units became 0 (R338), counted from 1; whether it is VERIFIED (R293), and when it was written; the hooks that its manifest lists of volumes that
deduplicate (R196, R198), and the records that its relocation has not come to yet (R336). -/
structure SegEnt where
  state : SegState := .free
  live : Nat := 0
  desc : List Byte := []
  emptyEpoch : Nat := 0
  relocLeft : List Nat := []
  moved : Nat := 0
  verified : Bool := false
  written : Nat := 0
  hooks : List (List Byte × Nat) := []
  relocNext : List Nat := []
deriving DecidableEq, Repr

/-- A record relocated (R336, R337): its ID, its old segment, and its new segment, offset and stored length. -/
structure Move where
  grid : Nat
  old : Nat
  seg : Nat
  off : Nat
  stored : Nat
deriving DecidableEq, Repr

/-- A mark of the nonce mark table (R327). -/
structure Mark where
  gen : Nat := 0
  mark : Nat := 0
deriving DecidableEq, Repr

/-- A change of a reference count that waits for the peer (R314, R458). -/
structure RemoteRef where
  rseq : Nat
  grid : Nat
  delta : Int
  sent : Bool
deriving DecidableEq, Repr

/-- A snapshot that waits for older inserts (R321): its tree, its source and its effect beat. -/
structure PendSnap where
  tree : Nat
  src : Nat
  beat : Nat
  epoch : Nat
deriving DecidableEq, Repr

/-- Where a page's last version lies (R307): its place as SEGMENT × 2^16 + OFFSET, and its WRITE_EPOCH. -/
structure PageAt where
  place : Nat := 0
  epoch : Nat := 0
deriving DecidableEq, Repr

/-- The metadata engine. `ring` holds the journal records in ring pages not yet released; `inserts` those
not yet applied, in journal order; `cascade` pages to be freed; `dying` IDs that wait for a checkpoint;
`pools` the free IDs of each slice; `applied` the SEQ of the last record applied to each page (R308), `images` and `at_` each page's
last version and its place; `heads` PREV_RUN of each open ring page, `prevRun` and `cpPlace` the places of the last run and checkpoint
page, `cpAnchors` the anchors written for the running checkpoint (R330); `peerHeld` and `ownGone` say that the other domain is held
and the own one is not (R466); `cpOther` that the running checkpoint is the other domain's, `cpNext` that one of it is to follow, `otherNum`,
`otherCut` and `otherPrev` are its last one; `pageLive` the segment in which each page's live version lies, and
`runPages` the first SEQ of each ring page in a run, with its segment. -/
structure MdeSt where
  ring : List JRec := []
  inserts : List JRec := []
  pages : List (Nat × MapPage) := []
  pageNext : Nat := 1
  trees : List (Nat × Tree) := []
  recs : List (Nat × GrainRec) := []
  segs : List (Nat × SegEnt) := []
  marks : List (Nat × Mark) := []
  pools : List (Nat × List Nat) := []
  grNext : Nat := 0
  freeIds : List Nat := []
  dying : List (Nat × Nat) := []
  cascade : List (Nat × Nat) := []
  deleting : List Nat := []
  snaps : List PendSnap := []
  remote : List RemoteRef := []
  rseqNext : Nat := 1
  peerRseq : Nat := 0
  peerHeld : Bool := false
  ownGone : Bool := false
  peerRing : List JRec := []
  spillTo : Nat := 0
  runs : List (Nat × Nat) := []
  cpRun : Bool := false
  cpDue : Bool := false
  cpCut : Nat := 0
  reloc : List Nat := []
  relocReady : List Move := []
  loose : List JRec := []
  away : List Nat := []
  applied : List (Nat × Nat) := []
  images : List (Nat × List Byte) := []
  at_ : List (Nat × PageAt) := []
  heads : List (Nat × Nat) := []
  prevRun : Nat := 0
  cpPlace : Nat := 0
  prevCp : Nat := 0
  cpOther : Bool := false
  cpNext : Bool := false
  otherNum : Nat := 0
  otherCut : Nat := 0
  otherPrev : Nat := 0
  cpAnchors : Nat := 0
  pageLive : List (Nat × Nat) := []
  runPages : List (Nat × Nat) := []
deriving DecidableEq, Repr

/-! ### The write path and the Caldera (chapter 5) -/

/-- The state of a directory entry (R153, R187). -/
inductive GState where
  | free | staged | mirrored | destaging | placed | verified
deriving DecidableEq, Repr

/-- A directory entry (R187), with what the write path keeps beside it: the region group it came in, the
order of admission (R154), whether it is held for a retry at an
epoch edge, has been discarded or is a duplicate (R153), whether its release is under way (R183), and how
many reads refer to its pages (R364); whether it was adopted at a takeover, its pages in the mirror area (R482), and what an
uncorrectable memory error left of it: reads that go to flash, or a lost grain (R509); whether its vault write failed (R173), and whether its release waits for a LOG_RELEASE alone (R153). -/
structure DirEntry where
  state : GState := .free
  size : Nat := 0
  vaulted : Bool := false
  rmw : Bool := false
  vol : Nat := 0
  off : Nat := 0
  page : Nat := 0
  grid : Nat := 0
  mirrorQp : Nat := 0
  putCount : Word := 0
  admitBeat : Nat := 0
  order : Nat := 0
  segment : Nat := 0
  tag : Nat := 0
  grp : Nat := 0
  retryEpoch : Bool := false
  refused : Bool := false
  discarded : Bool := false
  dupOf : Option Nat := none
  releasing : Bool := false
  refs : Nat := 0
  level : Nat := 0
  adopted : Bool := false
  bad : Bool := false
  lost : Bool := false
  vaultRetry : Bool := false
  logRel : Bool := false
deriving DecidableEq, Repr

/-- A grain of the cutter (R143): byte offset in the volume and size in bytes. -/
structure Grain where
  off : Nat
  size : Nat
deriving DecidableEq, Repr

/-- A region group (R145): its command, its grains with the first own page of each, the bytes still missing
(R165) as runs of offset and length, its place in the order of admission, and, once placed, its entries,
its put and whether it takes the vault path (R172), and the SEQ up to which the vault log must then hold the journal. A gap names its source by
how far it lies from the destination (R138). A group without entries stands for journal records alone (R156). -/
structure RGroup where
  tag : Nat
  slice : Nat
  vol : Nat
  grains : List Grain
  pages : List Nat
  gaps : List (Nat × Nat × Int)
  rmw : Bool
  admitBeat : Nat
  order : Nat
  m : Nat
  placed : Bool := false
  entries : List Nat := []
  count : Word := 0
  put : Bool := false
  vault : Bool := false
  beat : Nat := 0
  upto : Nat := 0
deriving DecidableEq, Repr

/-- An insert into the map without grain data (R110, R138, R156): a deallocation (`grid` 0), a Copy or, with `rep`, an extent of replication (R428). It takes effect for
reads when its put's count on `m` is reached; from then on it hides older Caldera entries (R107, R154). -/
structure MapOnly where
  vol : Nat
  key : Nat
  grid : Nat
  admitBeat : Nat
  home : Nat
  order : Nat
  m : Nat
  count : Word
  grp : Nat := 0
  rep : Bool := false
deriving DecidableEq, Repr

/-- Who holds a run of own pages (R149). -/
inductive PageUse where
  | command (tag : Nat)     -- reserved at admission, or holding data of an admitted command
  | received (q : Nat)      -- in-capsule data of a message not yet admitted
  | forwarded (q rtag : Nat) -- data of a FWD_CMD that is arriving
  | grain (slice idx : Nat)
deriving DecidableEq, Repr

/-- A run of consecutive own pages in use. -/
structure PageRun where
  first : Nat
  len : Nat
  use : PageUse
deriving DecidableEq, Repr

/-- The Caldera. `own` and `mirror` are its two areas of 16 GiB, byte by byte (R146). -/
structure CalSt where
  own : List Host.Cell := []
  mirror : List Host.Cell := []
  runs : List PageRun := []
  dirs : List (Nat × DirEntry) := []
  mirDirs : List (Nat × DirEntry) := []
  placeQ : List (Nat × List Nat) := []
  groups : List (Nat × RGroup) := []
  nextGrp : Nat := 0
  order : Nat := 0
  putsPosted : List (Nat × Word) := []
  winKey : Word := 0
  mapOnly : List MapOnly := []
  holdupOk : Bool := false
  catchupN : Nat := 0
  pwrfail : Bool := false
deriving DecidableEq, Repr

/-! ### Reduction (chapter 6) -/

/-- The reduction settings and the key slot of a volume (R215, R236). -/
structure VolRed where
  dedup : Bool := false
  verify : Bool := false
  comp : Bool := false
  level : Nat := 0
  kslot : Nat := 0
deriving DecidableEq, Repr

/-- Where a grain in DESTAGING stands in the order of R189: waiting for a fingerprint unit or in one, due for the
Tephra check or waiting for manifest loads, in a byte comparison with a matched record, waiting for a compressor or
in one, waiting for a place in a segment, in the cipher, in a segment, or with its records journaled. -/
inductive RedStep where
  | idle | fpWait | hashing (u : Nat) | check | loadWait | verifying (grid : Nat) | compWait
  | compressing (c level : Nat) | packWait | sealing | packed | journaled
deriving DecidableEq, Repr

/-- A grain in reduction, by directory key: its fingerprint, the loads it waits for, what is to be stored, the segment it is
packed in, and the mirror count at which its journal records are mirrored (R178). `checking` is set once its check has begun and `looked` once it has
been looked up (R201, R216). -/
structure RedGrain where
  step : RedStep := .idle
  checking : Bool := false
  looked : Bool := false
  fp : List Byte := []
  loads : List Nat := []
  raw : Bool := false
  stored : List Byte := []
  seg : Nat := 0
  wait : Option (Nat × Word) := none
deriving DecidableEq, Repr

/-- A Tephra entry (R195). -/
structure TphEnt where
  fpHi : Nat := 0
  seg : Nat := 0
  gsize : Nat := 0
  slot : Nat := 0
  epoch16 : Nat := 0
  valid : Bool := false
deriving DecidableEq, Repr

/-- An entry of a manifest part (R278). -/
structure ManEntry where
  fp : List Byte
  grid : Nat
  off : Nat
  gsize : Nat
  kslot : Nat
  gen : Nat
  raw : Bool
  slen : Nat
deriving DecidableEq, Repr

/-- A cached manifest (R199): when its segment was written, and its last match. -/
structure Manifest where
  seg : Nat
  written : Nat
  last : Nat
  ents : List ManEntry
deriving DecidableEq, Repr

/-- A manifest load in progress (R201): the volume and the directory key of the grain that started it. -/
structure ManLoad where
  seg : Nat
  vol : Nat
  starter : Nat
deriving DecidableEq, Repr

/-- A Tephra batch on its way in (R459): its sequence number, its parts, and the number of the last one. -/
structure BatchIn where
  seq : Word
  parts : List (Nat × List (List Byte))
  last : Option Nat
  epoch : Nat
deriving DecidableEq, Repr

/-- The Tephra index; its table lies in DDR5 (R194). `insQ` holds the inserts that wait for their beat, whether each is this head's own, its bucket and
its entry, and `touched` the buckets used in this beat (R196); `outQ` the entries inserted since the last cut;
`expect` the sequence number of the next batch, once one has come. -/
structure TphSt where
  vols : List (Nat × VolRed) := []
  grains : List (Nat × RedGrain) := []
  insQ : List (Bool × Nat × TphEnt) := []
  touched : List Nat := []
  mans : List Manifest := []
  loads : List ManLoad := []
  outQ : List TphEnt := []
  overflow : Nat := 0
  seqOut : Word := 0
  sentEpoch : Nat := 0
  expect : Option Word := none
  batch : Option BatchIn := none
deriving DecidableEq, Repr

/-! ### The cipher and the key store (chapter 8) -/

/-- The state of a key slot (R240). -/
inductive KState where
  | empty | unsealed | ready | exhausted
deriving DecidableEq, Repr

/-- A key slot (R236, R263). -/
structure KeySlot where
  state : KState := .empty
  gen : Nat := 0
  kcv : Nat := 0
  counter : Nat := 0
  durable : Nat := 0
  durableValid : Bool := false
  warned : Bool := false
  hwmWait : Bool := false
  key : List Byte := []
deriving DecidableEq, Repr

/-- What a GCM job is for: sealing the record at an offset of a segment, or opening the record of a read. -/
inductive GcmWork where
  | sealRec (seg off : Nat)
  | openRec (rd : Nat)
deriving DecidableEq, Repr

/-- A job of a GCM engine (R254 to R261). `side` is 0 for the write side and 1 for the read side (R260). `latched` is true once its first quantum has run: it holds its key, its generation
and, when it encrypts, the counter value drawn. -/
structure GcmJob where
  slice : Nat
  eng : Nat
  cls : Nat
  side : Nat
  work : GcmWork
  slot : Nat
  gen : Nat := 0
  key : List Byte := []
  ctr : Nat := 0
  latched : Bool := false
  fails : Nat := 0
  len : Nat
deriving DecidableEq, Repr

/-- A high-water record posted and not yet committed (R249): the mirror context and count that commit it. -/
structure HwmPost where
  slot : Nat
  gen : Nat
  value : Nat
  m : Nat
  count : Word
  vault : Bool
deriving DecidableEq, Repr

/-- The key store and the jobs of the GCM engines, oldest first. -/
structure KeySt where
  slots : List (Nat × KeySlot) := []
  jobs : List GcmJob := []
  posts : List HwmPost := []
deriving DecidableEq, Repr

/-! ### The Travertine layout (chapter 9) -/

/-- Where a record of a segment comes from: a directory entry, a metadata page, a grain record being relocated from its old segment, a
manifest part, or the segment summary. -/
inductive RecSrc where
  | grain (dkey : Nat)
  | page (id : Nat)
  | reloc (old : Nat)
  | manifest
  | summary
deriving DecidableEq, Repr

/-- A record of a segment being built (R273, R274): its place, the fields of its header, its stored bytes, and the record's
bytes once the cipher has released them. -/
structure LayRec where
  src : RecSrc
  typ : Nat
  strip : Nat
  unit : Nat
  id : Nat
  lsize : Nat
  raw : Bool
  fp : List Byte
  kslot : Nat
  gen : Nat
  stored : List Byte
  out : List Byte
deriving DecidableEq, Repr

/-- STATE of a segment in the in-flight table (R293, R303). -/
inductive LState where
  | opened | closed | writing | written
deriving DecidableEq, Repr

/-- Where the erasure unit's work on a segment stands (R293, R300): its parity, and later the parity check of the own verify pass. -/
inductive EcuStep where
  | idle | parity | parityDone | check | checkDone
deriving DecidableEq, Repr

/-- A segment of the in-flight table (R303): its strips' drives and places, its records, and where the next one goes. -/
structure LaySeg where
  seg : Nat := 0
  state : LState := .opened
  ownPass : Bool := false
  k : Nat := 0
  m : Nat := 0
  isMeta : Bool := false
  slice : Nat := 0
  openBeat : Nat := 0
  stateBeat : Nat := 0
  strips : List (Nat × Nat) := []
  recs : List LayRec := []
  strip : Nat := 0
  unit : Nat := 0
  writes : Nat := 0
  bad : Option (Nat × Nat) := none
  retryOwn : Bool := false
  ecu : EcuStep := .idle
deriving DecidableEq, Repr

/-- A metadata page that waits for a place in the open metadata segment (R328, R330). A journal page carries its bytes; any other is
written as it stands when it gets its place. `first` marks the first page of a journal run, `last` is the last SEQ of the run that it
ends, plus 1, or 0. -/
structure MetaPage where
  id : Nat
  bytes : List Byte := []
  first : Bool := false
  last : Nat := 0
deriving DecidableEq, Repr

/-- The layout: the in-flight table by entry, pages waiting, the first result of each segment decided (plus 1),
and the scrub pass. -/
structure LaySt where
  segs : List (Nat × LaySeg) := []
  openMeta : Nat := 0
  metaQ : List MetaPage := []
  results : List (Nat × Nat) := []
  repair : List Nat := []
  relocQ : List LayRec := []
  checks : List (Nat × Bool) := []
  scrubbed : Nat := 0
  damaged : Nat := 0
  scrubCredit : Nat := 0
deriving DecidableEq, Repr

/-! ### The metadata cache (chapter 11) -/

/-- A line of the metadata cache (R342, R360): its line address L and its bytes. -/
structure CacheLine where
  valid : Bool := false
  dirty : Bool := false
  held : Bool := false
  prefetched : Bool := false
  line : Nat := 0
  bytes : List Byte := []
deriving DecidableEq, Repr

/-- A command of the metadata cache (R351). -/
inductive MdcOp where
  | flush | flushInv | invalidate | prefetchLock | lockSet | lockClear | zeroLine
deriving DecidableEq, Repr

/-- The command that runs: its operation and lock entry, whether it has taken effect, how far its walk is, its status, the lines it
filled, the locked lines it dropped with the first one's entry, and the dirty ones among them. -/
structure MdcCmd where
  op : MdcOp
  entry : Nat
  begun : Bool := false
  walk : Nat := 0
  status : Nat := 0
  filled : List Nat := []
  lockEntry : Nat := 0
  lockDrop : Nat := 0
  lockDirty : Nat := 0
deriving DecidableEq, Repr

/-- A lock entry as LOCK_SET enabled it (R348): a range of addresses and a way mask. -/
structure MdcLock where
  base : Nat := 0
  limit : Nat := 0
  ways : Nat := 0
deriving DecidableEq, Repr

/-- A write-back issued in this beat (R355): the way it came from, its line, and what caused it: 0 evict, 1 command, 2 drain. -/
structure MdcWb where
  key : Nat
  line : Nat
  bytes : List Byte
  cause : Nat
deriving DecidableEq, Repr

/-- The metadata cache. `lines` is keyed by 16 × set + way; `order` holds the ways of a set, most recently used first; `drain` the sets
that a stop has drained. -/
structure MdcSt where
  lines : List (Nat × CacheLine) := []
  order : List (Nat × List Nat) := []
  locks : List (Nat × MdcLock) := []
  cmd : Option MdcCmd := none
  wb : List MdcWb := []
  owed : Nat := 0
  drain : Nat := 0
deriving DecidableEq, Repr

/-! ### The read path (chapter 12) -/

/-- Where a grain of a read stands: waiting for its Caldera quanta, its map walk under way, waiting for buffer pages, its record with the drive, its record read, in the cipher,
decrypted and in a decompressor, in reconstruction, its data sent, or failed. -/
inductive RdStep where
  | calWait | lookup | bufWait | drive | record | opening | inflating | recon | sent | gone | failed (st : Status)
deriving DecidableEq, Repr

/-- A round of a record's reconstruction (R290, R377): its strips are being read, the erasure unit works on it, or it has had its quanta. -/
inductive SolveStep where
  | reading | solving | solved
deriving DecidableEq, Repr

/-- A grain of a read (R362 to R380): its command, its grain slice, the bytes of the volume wanted from it, its extent
there, its record, the strips of E, whether a hedge runs, the record's bytes and the buffer pages held, and what it refers to. `reloc` marks a record
read to be relocated (R336) and `rebuilt` one that a reconstruction gave (R377). `cols` holds the strips read over the record's units, kept from round to
round (R292), and `asked` those being read. `ready` is the count of edges at which its map walk is over (R317). -/
structure RdGrain where
  tag : Nat := 0
  slice : Nat := 0
  lo : Nat := 0
  hi : Nat := 0
  goff : Nat := 0
  gsize : Nat := 0
  grid : Nat := 0
  seg : Nat := 0
  off : Nat := 0
  slen : Nat := 0
  raw : Bool := false
  kslot : Nat := 0
  e0 : List Nat := []
  e : List Nat := []
  hedged : Bool := false
  driveBusy : Bool := false
  portOnly : Bool := true
  issued : Nat := 0
  bytes : List Byte := []
  data : List Byte := []
  pages : Nat := 0
  dirRef : Option Nat := none
  segRef : Bool := false
  rounds : Nat := 0
  reloc : Bool := false
  rebuilt : Bool := false
  cols : List (Nat × List Byte) := []
  asked : List Nat := []
  solve : SolveStep := .reading
  dec : Nat := 0
  ready : Nat := 0
  memErr : Bool := false
  step : RdStep := .bufWait
deriving DecidableEq, Repr

/-- The reads in flight, and how many read references each segment holds (R365). -/
structure RdSt where
  reads : List (Nat × RdGrain) := []
  next : Nat := 0
  segRefs : List (Nat × Nat) := []
deriving DecidableEq, Repr

/-! ### Drive ports (chapter 13) -/

/-- Who asked for a drive command: a grain's record, a strip of a reconstruction, a strip write of a segment, a strip of a
rebuild, the release of a strip, a witness drive, a preempt, or the model's name for any other. -/
inductive DrvReq where
  | record (rd : Nat)
  | column (rd s : Nat)
  | strip (seg s : Nat)
  | rebuild (seg s : Nat)
  | release (seg s : Nat)
  | witness (i : Nat)
  | anchor
  | preempt
  | vault (w : Nat)
  | other
deriving DecidableEq, Repr

/-- STATE of a drive command (R413). -/
inductive DState where
  | waiting | issued | timedOut
deriving DecidableEq, Repr

/-- A drive command (R398, R413). -/
structure DrvCmd where
  req : DrvReq
  cls : Nat
  op : Nat
  slice : Nat
  lba : Nat
  nlb : Nat
  data : List Byte := []
  arg : Nat := 0
  fua : Bool := false
  asked : Nat := 0
  state : DState := .waiting
  cid : Nat := 0
  queue : Nat := 0
  issued : Nat := 0
deriving DecidableEq, Repr

/-- What an attach point's start learns of its drive (R394, R395, R397, R402): bytes of an LBA, bytes of the largest
transfer, I/O queues and their entries, and for a zoned drive the zone size and capacity in strips. -/
structure AttRec where
  lba : Nat := 512
  mdts : Nat := 262144
  ioq : Nat := 0
  entries : Nat := 256
  handles : Nat := 2
  zs : Nat := 0
  zcap : Nat := 0
  vlog : Nat := 64
  timeouts : Nat := 0
  timeoutEpoch : Nat := 0
deriving DecidableEq, Repr

/-- The preempt window's entry (R414). -/
structure PreRec where
  result : Nat := 0
  status : Nat := 0
  key : Nat := 0
deriving DecidableEq, Repr

/-- A strip that a rebuild is writing (R408): its segment and number, where it goes, the writes still out, and whether one failed. -/
structure RebWrite where
  seg : Nat
  strip : Nat
  drive : Nat
  loc : Nat
  writes : Nat
  bad : Bool
deriving DecidableEq, Repr

/-- The drive complex. `queue` holds commands not yet issued by drive, oldest first; `slots` is keyed by
256 × drive + slot; `used` marks allocated strip units by 2^32 × drive + LOC (R401), `released` those of zoned drives that wait for
their zone's reset; `rebuilds` the strips still to rebuild, as segment and strip, `rebSolve` the strips whose solve is with an erasure unit, `rebuilt` how many each drive has had, and `rebuildCp`
the checkpoint that completes a drive's rebuild. `wit` keeps each witness drive's outcome plus 1, `perstWant` the ports with an attach
point that has left OFF. -/
structure DrvSt where
  atts : List (Nat × AttRec) := []
  queue : List (Nat × DrvCmd) := []
  slots : List (Nat × DrvCmd) := []
  used : List (Nat × Bool) := []
  pre : List (Nat × PreRec) := []
  preBeat : Nat := 0
  wit : List (Nat × Nat) := []
  released : List Nat := []
  rebuilds : List (Nat × Nat) := []
  rebWrites : List RebWrite := []
  rebSolve : List (Nat × List (Nat × List Byte)) := []
  rebuilt : List (Nat × Nat) := []
  rebuildCp : List (Nat × Nat) := []
  rebEpoch : Nat := 0
  rebUsed : Nat := 0
  perstWant : List Nat := []
deriving DecidableEq, Repr


/-! ### Replication (chapter 14) -/

/-- STATE of a session (R431, R435). -/
inductive RepState where
  | free | opening | streaming | committing | suspended | done | failed
deriving DecidableEq, Repr

/-- An entry of a batch (R425): its KEY, whether it is a ZERO entry, its fingerprint, and on the source the record that holds its
grain. -/
structure RepEnt where
  key : Nat
  zero : Bool
  fp : List Byte
  grid : Nat := 0
deriving DecidableEq, Repr

/-- A session entry (R416, R435), with what its two sides keep beside it: the SEQ last sent and received (R422), what was agreed
(R423), the receive window (R420), the batch, the EXTENTS not yet answered as SEQ, FIRST and COUNT, the grains that wait for a slot, and on
the target the entries that failed once, the slots to return and the commit that waits (R430); `diff` the pairs of leaf pages that the
map diff has still to compare (R426). -/
structure RepSess where
  state : RepState := .free
  target : Bool := false
  qp : Nat := 0
  srcVol : Nat := 0
  dstVol : Nat := 0
  session : Nat := 0
  baseGen : Nat := 0
  newGen : Nat := 0
  cursor : Nat := 0
  batch : Nat := 0
  reason : Nat := 0
  port : Nat := 0
  addr0 : List Byte := []
  addr1 : List Byte := []
  other : Bool := false
  opened : Bool := false
  txSeq : Nat := 0
  rxSeq : Nat := 0
  dedup : Bool := false
  frames : Bool := false
  want : Nat := 0
  mr : Option Nat := none
  base : Nat := 0
  key : Word := 0
  slots : List Nat := []
  ents : List RepEnt := []
  exts : List (Nat × Nat × Nat) := []
  sendQ : List (Nat × Bool × List Byte) := []
  batched : Bool := false
  final : Bool := false
  nextKey : Nat := 0
  missed : List Nat := []
  acks : List Nat := []
  commit : Bool := false
  snap : Nat := 0
  wait : Option (Nat × Word) := none
  ticket : Nat := 0
  diff : Option Nat := none
deriving DecidableEq, Repr

/-- Replication: the session entries, and the window slots of grains that have become STAGED, by session (R429), the generation
number of each snapshot's tree, and by volume the newest committed one of a replica (R416, R430). -/
structure RepSt where
  sess : List (Nat × RepSess) := []
  staged : List (Nat × Nat) := []
  gens : List (Nat × Nat) := []
  held : List (Nat × Nat) := []
deriving DecidableEq, Repr



/-! ### The peer link (chapter 15) -/

/-- What the FH6400 puts on its pins, links and buses, in order. A link message, a CTRL record and what a context of class 1 sends
leave as the symbols of flits (R440); a packet of another context leaves through a host port, on the lanes at its balls (R60). -/
inductive Out where
  | frame (port : Nat) (bytes : List Byte)
  | pfc (port : Nat) (prio : Prio) (xoff : Bool) (quanta : Nat)
  | request (q path : Nat) (first last : Psn) (off : Nat) (msgId : BitVec 16) (item : WorkItem)
  | roce (port : Nat) (lanes : List Nat) (bytes : List Byte)
  | cmReply (port : Nat) (qpn : Psn) (priv : List Byte)
  | cmReject (port code : Nat)
  | ack (q path : Nat) (psn : Psn) (credit : Nat) (msgAck : BitVec 16)
  | nak (q path : Nat) (psn : Psn) (kind : NakKind)
  | rnrNak (q path : Nat) (psn : Psn) (timer : Nat)
  | cnp (q : Nat)
  | msix (vector : Nat)
  | stewardIrq (src : Nat)
  | link (m : LinkMsg)
  | drive (a : Nat) (balls : List Nat) (c : DrvCmd)
  | driveAdmin (a op : Nat)
  | ctrl (ctype width first expect : Nat)
  | flit (symbols : List Nat)
  | smbus (bytes : List Byte)
  | smbusNack
  | scan (op : Nat) (bits : List Bool)
  | tdo (bits : List Bool)
  | led (bits : List Bool)
  | pins (drive levels : Nat)
deriving DecidableEq, Repr

/-- A DATA flit in the retry buffer (R446): its FSEQ, its payload, how often it has been sent. -/
structure TxFlit where
  fseq : Nat
  payload : List Byte
  sent : Nat := 1
deriving DecidableEq, Repr

/-- The link layer. `txq` holds link messages, CTRL records and transport packets' messages not yet cut into packets, `txPkts` packets by
context, `txSlots` slots not yet in a flit, `rxSlots` slots received and not yet taken; `txNext` and `rxNext` are the next FSEQ to be
sent and expected, `rxAck` the ACKSEQ to be sent; `inits` counts agreeing INIT records; `laneErr` symbols corrected in each lane's
window; `inbox` holds the commands that received packets and records give, `held` the messages whose work needs data from the drives; `hbSent` is the beat
of the last HEARTBEAT sent, plus 1; `replays` and `bad` count in epoch `ep`. -/
structure CdxSt where
  txq : List Out := []
  txPkts : List (Nat × List Byte) := []
  lastCtx : Nat := 0
  txSlots : List (List Byte) := []
  txNext : Nat := 0
  unacked : List TxFlit := []
  rxNext : Nat := 0
  rxAck : Nat := 0
  nakWait : Bool := false
  rxSlots : List (List Byte) := []
  inits : Nat := 0
  laneErr : List (Nat × Nat) := []
  inbox : List Instr := []
  held : List LinkMsg := []
  hbSeq : Word := 0
  hbSent : Nat := 0
  ep : Nat := 0
  replays : Nat := 0
  bad : Nat := 0
deriving DecidableEq, Repr


/-! ### Ownership, failover and failback (chapter 16) -/

/-- The witness record (R473), without MAGIC, VERSION and CRC. -/
structure WitRec where
  mode : Nat := 0
  dom : Nat := 0
  vaultOnly : Nat := 0
  tag : Nat := 0
  gen : Nat := 0
  owner : Nat := 0
  home : Nat := 0
  refresh0 : Nat := 0
  refresh1 : Nat := 0
  stamp0 : Nat := 0
  stamp1 : Nat := 0
  resv0 : Nat := 0
  resv1 : Nat := 0
deriving DecidableEq, Repr

/-- Why a compare-and-write of the record runs (R475): a refresh, a claim, VAULT_ONLY to be set or cleared, a SOLE or SHARED record,
the record of a join with the peer's new RESV_GEN, of a hand-over, or a home map. -/
inductive WitWhy where
  | refresh | claim | vaultOnly (set : Bool) | sole | shared | join (gen : Nat) | handover | home (mask : Nat)
deriving DecidableEq, Repr

/-- The failover block. `witness` is the last majority record known and `raw` its bytes, `copies` the three copies last read; `why` is the
change whose compare-and-write is out and `newRec` its record, `todo` the changes that wait for the record to be read. In arbitration `before` is the
state to return to, `claimIn` notes CLAIM_IN in the wait, `unchanged` the OWN_GEN at the edge of suspicion. `holdBeat` is the beat at which WRITE_HOLD
began, `single` the fast paths whose loss has been reported. `step` is the step of R482 at which a takeover stands, or 0, with the groups `moved`, the
beat `changeBeat` at which they entered Change, records `replayed` and grains `adopted`; `takeovers` the epochs of past ones, `doneEpoch` that of the
last. `replayDone` and `replayEpoch` say that the own journal has been replayed, and when; `joining` that a join which this head accepted waits for its
record, `joinEpoch` when this head last asked to join. Of a resync, `srcKeys` and `srcRing` are the directory keys and ring pages still to
copy, `batch` the number of the batch, `batchPuts` its puts by context and count, `batchIds` its grains, `sent` that its marker is out, `closing` that
RESYNC_DONE is, `kept` the grains of committed batches; `tgtPend` holds the puts of the batch that is coming in. `handStep` is the step of R492 at which a hand-over stands,
`handRole` 1 on the releasing head and 2 on the arriving one, with the groups, whether a domain moves, whether the whole head is handed over, whether the peer asked for it,
and the checkpoint to wait for; `epochOk` is false once this epoch is not healthy, `skipHoldoff` a FAILBACK not yet used. -/
structure FovSt where
  witness : Option WitRec := none
  raw : List Byte := []
  copies : List (Option (List Byte)) := []
  why : Option WitWhy := none
  newRec : WitRec := {}
  todo : List WitWhy := []
  before : Nat := 0
  claimIn : Bool := false
  unchanged : Nat := 0
  holdBeat : Nat := 0
  pulseLevel : Bool := false
  pulseSent : Nat := 0
  peerState : Nat := 0
  peerOwn : Nat := 0
  alive : Bool := false
  single : Nat := 0
  step : Nat := 0
  moved : Nat := 0
  changeBeat : Nat := 0
  replayed : Nat := 0
  adopted : Nat := 0
  takeovers : List Nat := []
  doneEpoch : Nat := 0
  replayDone : Bool := false
  replayEpoch : Nat := 0
  joining : Bool := false
  joinEpoch : Nat := 0
  srcKeys : List Nat := []
  srcRing : List Nat := []
  batch : Nat := 0
  batchPuts : List (Nat × Word) := []
  batchIds : List Nat := []
  sent : Bool := false
  closing : Bool := false
  kept : List Nat := []
  tgtPend : List (List Byte) := []
  handStep : Nat := 0
  handRole : Nat := 0
  handMask : Nat := 0
  handDomain : Bool := false
  handWhole : Bool := false
  handBack : Bool := false
  cpTarget : Nat := 0
  epochOk : Bool := true
  skipHoldoff : Bool := false
  asked : Nat := 0
  givesUp : Bool := false
  stale : Bool := false
deriving DecidableEq, Repr


/-! ### Memory (chapter 17) -/

/-- A memory channel (R524): STATE, the stamp of its training, its PHY temperature now, failures, counts, and the calibration beats that
its retrain still takes. -/
structure MemCh where
  state : Nat := 0
  cls : Nat := 0
  temp : Nat := 0
  now : Nat := 0
  fails : Nat := 0
  epoch : Nat := 0
  ce : Nat := 0
  cal : Nat := 0
  repairs : Nat := 0
  left : Nat := 0
  calBeat : Nat := 0
deriving DecidableEq, Repr

/-- What a vault write is for: a region group's commit (R172), a catch-up write by directory key (R173), journal records, releases, a
rewrite (R517), the Geyser image, or a label. -/
inductive VFor where
  | group (g : Nat) | catchup (key : Nat) | journal | release (ids : List Nat) | rewrite | image | label
deriving DecidableEq, Repr

/-- A LOG_GRAIN that is live (R517): the grain record ID that it names, its stored bytes and LOGICAL_SIZE, where it lies in the ring of each
vault SSD, and the write that carries it. -/
structure VRec where
  grid : Nat
  stored : List Byte
  lsize : Nat
  at_ : List (Nat × Nat)
  write : Nat
deriving DecidableEq, Repr

/-- A vault write in progress: the drive commands still out, the vault SSDs that it goes to, those on which a command failed, and the first SEQ
of the journal records in it. -/
structure VWrite where
  why : VFor
  left : Nat
  on : List Nat
  bad : List Nat := []
  jfrom : Option Nat := none
deriving DecidableEq, Repr

/-- Memory and the vaults. `vseq` is the highest VSEQ; `heads` the head position of each vault log by attach point, `live` its live
grains; `writes` by number, `next` the next number, and `done` the writes of groups and of the catch-up pass that have ended; `jseq` the first SEQ
not yet in the vault log; `relQ` the records to be named by a LOG_RELEASE. Of the Geyser flush: `stage` 0 none, 1 records, 2 GEY_HEAD,
3 NVMe Flush, 4 labels; `geyQ` the records still to be written as VKIND, LOGICAL_SIZE and bytes; `geyT` bytes striped so far; `geyAt` the bytes
used of each Geyser area, and `geyCnt` the records by 2 × VKIND + SSD. `image` is an image that restart used and that is not yet given up
(R523), `nonces` its counter values (R252). -/
structure MemSt where
  chans : List (Nat × MemCh) := []
  vseq : Nat := 0
  heads : List (Nat × Nat) := []
  live : List VRec := []
  writes : List (Nat × VWrite) := []
  next : Nat := 0
  done : List (VFor × Bool) := []
  jseq : Nat := 0
  relQ : List Nat := []
  stage : Nat := 0
  geyQ : List (Nat × Nat × List Byte) := []
  geyT : Nat := 0
  geyAt : List (Nat × Nat) := []
  geyCnt : List (Nat × Nat) := []
  image : Bool := false
  nonces : List (Nat × Mark) := []
  selfRefresh : Bool := false
deriving DecidableEq, Repr

/-! ### Mailboxes (chapter 18) -/

/-- A ticket (R540): its number and command, the status and DETAIL with which its work has ended, and the epoch in which its final status was
fixed, plus 1. -/
structure Ticket where
  num : Nat
  code : Nat
  result : Option (Nat × Nat) := none
  done : Nat := 0
deriving DecidableEq, Repr

/-- A run of SNAP_CREATE parts (R549): its channel, its volumes with their snapshot numbers, GROUP and GEN, the doorbell stamp of its last part,
and whether it has been discarded. -/
structure SnapRun where
  chan : Nat
  vols : List (Nat × Nat)
  grp : Nat
  gen : Nat
  beat : Nat
  dead : Bool := false
deriving DecidableEq, Repr

/-- The steward complex and the mailboxes. `mem` holds the request and response buffers by BAR2 offset (R529); `tickets` those open or kept, `nextTicket` the next number. `sets` are the SETTING_SET writes for the next epoch edge
as offset, mask, value, and 2 × ticket + PERSIST (R546); `snapRuns` has one run of parts for a channel. `snapTickets` names the tickets that wait for snapshots to become READY, `treeTickets` for trees to be
freed, by tree, and for home changes, by 2^21 + 2 × group + slot; `handTicket` the ticket of a hand-over, `restartTicket` that of a restart. Of the steward: the cause and beat of the restart that
runs, and the epochs of past ones (R557); `again` the channels whose request is run again after a restart (R556). `kek` is the key-encryption key
sealed in the settings region, `sysKeys` the generation and key of slots 4,094 and 4,095 kept beside it, `hostCfg` the hosts by index with NQN and secret reference, `rebuild` the rate and the segments left of a Tephra
rebuild; `lock` is the channel, plus 1, whose LOCK_ENTRY the metadata cache carries out; `inbox` holds the parts of array-wide changes that journal records
have brought (R543). -/
structure MbxSt where
  mem : List Host.Cell := []
  tickets : List Ticket := []
  nextTicket : Nat := 1
  sets : List (Nat × Nat × Nat × Nat) := []
  snapRuns : List SnapRun := []
  snapTickets : List (Nat × Nat) := []
  treeTickets : List (Nat × Nat) := []
  handTicket : Nat := 0
  restartTicket : Nat := 0
  restart : Option (Nat × Nat) := none
  restarts : List Nat := []
  again : List Nat := []
  kek : Option (List Byte) := none
  sysKeys : List (Nat × (Nat × List Byte)) := []
  hostCfg : List (Nat × (List Byte × Nat)) := []
  rebuild : Nat × List Nat := (0, [])
  lock : Nat := 0
  inbox : List (Nat × Nat × Nat × Nat) := []
deriving DecidableEq, Repr


/-! ### The Fumarole recorder (chapter 19) -/

/-- The recorder. `ring` holds SEQ and bytes of the ring's records, oldest first; `unflushed` is how many of its newest are not in the
partition; `bad` the slots found with an uncorrectable error. `queue` and `preload` hold raises with the severity each had; `drop` counts
raises dropped since the last record of code 0xF004. `lost` is the first and last SEQ overwritten before they were flushed, `fault` the first SEQ
of a flush that a fault-class record started, `lastFlush` the one flush after a freeze. `lg` and `pin` are the last-gasp bank and the pin store,
`pinLeft` the records still to be pinned. `nor` is the log partition by slot and `norAt` the slot after the last one written. -/
structure FumSt where
  ring : List (Nat × List Byte) := []
  unflushed : Nat := 0
  bad : List Nat := []
  queue : List (Raise × Nat) := []
  preload : List (Raise × Nat) := []
  drop : Nat := 0
  lost : Option (Nat × Nat) := none
  fault : Option Nat := none
  lastFlush : Bool := false
  lg : List (List Byte) := []
  pin : List (List Byte) := []
  pinLeft : Nat := 0
  nor : List (Nat × List Byte) := []
  norAt : Nat := 8192
deriving DecidableEq, Repr

/-! ### Performance counters (chapter 20) -/

/-- What the counter blocks keep beside their registers: the core cycles of the beats that are over (R583), samples due, as block, counter and the beat of the overflow, and the tag and
context of the command admitted last on any slice (R594). -/
structure PmcSt where
  cycles : Nat := 0
  due : List (Nat × Nat × Nat) := []
  lastTag : Nat := 0
  lastQp : Nat := 0
deriving DecidableEq, Repr

/-! ### The Fissure pins and start-up (chapter 21) -/

/-- The pins and the start-up. `step` is the step of R619 at which the steward stands, 0 before the first and after the last; `levels` the
levels of the input pins; `switchAt` the edge e of the phase change that runs, and whether it goes to PROBE. `pressed` is the edge at which the
service button was pressed, plus 1. -/
structure FisSt where
  step : Nat := 0
  levels : Nat := 0
  switchAt : Nat := 0
  toProbe : Bool := false
  pressed : Nat := 0
  restored : Bool := false
deriving DecidableEq, Repr

/-! ### Firmware and configuration update (chapter 22) -/

/-- STATE of an image slot or settings copy (R626, R628): erased, PENDING (NEXT), COMMITTED (CURRENT), RETIRED (STALE). -/
inductive FlashState where
  | erased | pending | committed | retired
deriving DecidableEq, Repr

/-- An image slot of the boot flash (R625, R626): STATE, SEQ, and the package. -/
structure ImgSlot where
  state : FlashState := .erased
  seq : Nat := 0
  pkg : List Byte := []
deriving DecidableEq, Repr

/-- A settings copy (R628), with the values that SETTING_SET persists by BAR0 offset as its body (R546). -/
structure SetCopy where
  state : FlashState := .erased
  schema : Nat := 0
  gen : Nat := 0
  vals : List (Nat × Nat) := []
deriving DecidableEq, Repr

/-- Updates. `slots` are the image slots A (0) and B (1) and `copies` the settings copies; `onCard` that the running image is the card's. `buf` is
the mailbox's staging buffer with the size announced (R631). `armSent` that an ARM waits for its answer, `ticket` the ticket of the activation, In a phase: `from_` its first epoch, `own` and `peer` that the two heads have reported its
end; `live` the epoch at which LIVE ended; `hand` the step of a hand-off phase on the head that restarts: 1 hand-over, 2 LEAVE done, 3 start-up,
4 failback; `parts` that this head runs new hand-off parts; `restarted` that the steward has
restarted in this epoch. Of a revert: `revert` that it begins at the next epoch edge, `undo` that the hand-off with the old parts is due;
`peerUndone` that slot 0 has undone
its parts, `tell` a cause that the peer is to be told when the link is UP. `prev` is the holder before an ARM, `peerCommit` the peer's COMMIT. -/
structure UpdSt where
  slots : List (Nat × ImgSlot) := []
  copies : List (Nat × SetCopy) := [(0, { state := .committed })]
  onCard : Bool := false
  buf : Option (Nat × List Byte) := none
  armSent : Bool := false
  ticket : Nat := 0
  from_ : Nat := 0
  own : Bool := false
  peer : Bool := false
  live : Nat := 0
  hand : Nat := 0
  parts : Bool := false
  restarted : Bool := false
  revert : Bool := false
  undo : Bool := false
  peerUndone : Bool := false
  tell : Nat := 0
  prev : Nat := 0
  peerCommit : Bool := false
deriving DecidableEq, Repr

/-! ### Security (chapter 23) -/

/-- The fuses (R646): the unit's serial, the image key hashes and which are revoked, the debug key hashes, the blown bits of the anti-rollback
field, and the junction maximum of the ordering code (R3). -/
structure Fuses where
  serial : Nat := 0
  keys : List (List Byte) := List.replicate 4 (List.replicate 48 0)
  revoked : Nat := 0
  dbg : List (List Byte) := List.replicate 2 (List.replicate 48 0)
  rollback : Nat := 0
  tjMax : Int := 105
deriving DecidableEq, Repr

/-- Debug, alarms and the test logic. `chal` is the challenge while it is valid; `step` the step of R656 at which an opening stands, 0 none, with
its ticket, its key index, and whether its step-1 flush runs; `since` the causes latched since the last ALARM_CLR; `bsr` the boundary register.
`temps` are the die sensors and `hbmTemps` the HBM3E stacks as last read, `refresh2` the stacks whose refresh rate is doubled (R677). -/
structure SecSt where
  fuses : Fuses := {}
  chal : Option (List Byte) := none
  step : Nat := 0
  ticket : Nat := 0
  key : Nat := 0
  flush : Bool := false
  since : Nat := 0
  bsr : List Bool := []
  temps : List Int := []
  hbmTemps : List Int := []
  refresh2 : List Nat := []
deriving DecidableEq, Repr

/-! ### The whole machine -/

/-- What waits for the next beat edge, where a rule says that a command takes effect there. -/
inductive EdgeAct where
  | revoke (r : Nat)
  | ana (grp st : Nat)
  | keyRun (op slot : Nat) (hv : Bool)
  | keyDone (status : Nat)
  | keyWarn (slot gen : Nat)
  | keyExhaust (slot gen : Nat)
  | keyPost (slot gen value : Nat)
  | release (seg : Nat)
  | linkDown
  | linkUp
  | stewardRestart (cause : Nat)
  | ringFreeze (slot : Nat)
  | switching
  | memFail (addr hit : Nat) (bytes : List Byte)
  | geyser
  | assign
  | fence (cause : Nat)
  | heard
  | doorbell (c seq : Nat)
  | write (off val : Nat)
  | red (vol code : Nat)
deriving DecidableEq, Repr

/-- The FH6400. `beat` is the beat number and `edges` the beat edges since power-on reset, which hardware
timers count (R30, R47); `fields` holds every register field that is not the view of other state; `wins`
the windows; `raised` the raises not yet taken by the event controller; `seen` when an event was raised
last, for the rules that say at most once per epoch; `marks` the timers that run, each with the edge at
which it was armed (R47); `hwPend` the hardware stops that arose in this beat (R18), by unit, and
`seqPend` the sequences that completed or failed in it; `free` counts the free values drawn; `stepPend`
the beats to be added at the next edge (R44), `jumps` the steps taken, each as the beat that it led to
and the beats added (R47); `newEpoch` that the edge just passed was an epoch edge (R31); `hot` is the
throttle of R676; `out` is what has left the chip, `edge` what waits for the next edge, `ram` the HBM3E
and DDR5 outside the Caldera. -/
structure Dev where
  beat : Nat := 0
  edges : Nat := 0
  fields : List (Nat × Nat) := []
  wins : List (Nat × WinRec) := []
  raised : List Raise := []
  seen : List (Nat × Nat) := []
  marks : List (Nat × Nat) := []
  hwPend : List (Nat × Nat) := []
  seqPend : List (Nat × SeqEvent) := []
  free : Nat := 0
  out : List Out := []
  edge : List EdgeAct := []
  ram : List Host.Cell := []
  sync : SyncSt := {}
  stepPend : Nat := 0
  jumps : List (Nat × Nat) := []
  newEpoch : Bool := false
  hot : Bool := false
  slices : List (Nat × Slice) := []
  xpt : XptSt := {}
  nvt : NvtSt := {}
  cal : CalSt := {}
  mde : MdeSt := {}
  tph : TphSt := {}
  key : KeySt := {}
  lay : LaySt := {}
  mdc : MdcSt := {}
  rd : RdSt := {}
  drv : DrvSt := {}
  rep : RepSt := {}
  cdx : CdxSt := {}
  fov : FovSt := {}
  mem : MemSt := {}
  fum : FumSt := {}
  pmc : PmcSt := {}
  mbx : MbxSt := {}
  fis : FisSt := {}
  upd : UpdSt := {}
  sec : SecSt := {}
deriving DecidableEq, Repr

/-- The state of the model: the device, and the commands that wait, first in, first out. -/
structure State where
  dev : Dev := {}
  pending : List Instr := []
deriving DecidableEq, Repr

/-- Why a step may stop with a fault. No command of this block does: the spec gives every one an effect
or says that it is ignored. The one constructor is kept for a register access through a base address
register that the management endpoint does not have; nothing raises it (safe). -/
inductive Fault where
  | noSuchBar
deriving DecidableEq, Repr

/-- Why a step may be refused. `notModelled` is answered by an arm of `exec` whose command has no meaning
yet, with that command's mnemonic (safe: nothing can be proved of what the command does). -/
inductive Refusal where
  | notModelled (mnemonic : String)
deriving DecidableEq, Repr

/-- The machine right after power-on reset (R600, R601): every register at its reset value, every table
empty, beat number 0, no command waiting. Reset values that spec/ does not give are in the log. -/
def State.reset : State := {}

end Sys2Proof.Machine
end

