-- ==== Sys2Proof/Machine/Table.lean ====
section
/-! DEFINITION. Sparse tables: a list of (key, entry) pairs in one canonical form, keys strictly rising
and no entry equal to what an unlisted key reads as. Every table of the FH6400 too large for a register
(R25) and its register file are held this way, so that equal tables are equal data. -/
namespace Sys2Proof.Machine

/-- The entry at key `k`; an unlisted key reads as `dv`. -/
def tget {α : Type} (dv : α) : List (Nat × α) → Nat → α
  | [], _ => dv
  | (j, v) :: t, k => if j = k then v else tget dv t k

/-- The list without key `k`. -/
def tdel {α : Type} : List (Nat × α) → Nat → List (Nat × α)
  | [], _ => []
  | (j, v) :: t, k => if j = k then tdel t k else (j, v) :: tdel t k

/-- The list with `(k, v)` put before the first larger key. -/
def tins {α : Type} : List (Nat × α) → Nat → α → List (Nat × α)
  | [], k, v => [(k, v)]
  | (j, w) :: t, k, v => if k < j then (k, v) :: (j, w) :: t else (j, w) :: tins t k v

/-- Write entry `v` at key `k`; writing what an unlisted key reads as removes the entry. -/
def tput {α : Type} [DecidableEq α] (dv : α) (l : List (Nat × α)) (k : Nat) (v : α) : List (Nat × α) :=
  if v = dv then tdel l k else tins (tdel l k) k v

/-- Change the entry at key `k` by `f`. -/
def tupd {α : Type} [DecidableEq α] (dv : α) (l : List (Nat × α)) (k : Nat) (f : α → α) :
    List (Nat × α) :=
  tput dv l k (f (tget dv l k))

/-- Keys strictly rising. -/
def tsorted {α : Type} : List (Nat × α) → Bool
  | [] => true
  | [_] => true
  | (j, _) :: (k, w) :: t => decide (j < k) && tsorted ((k, w) :: t)

/-- The canonical form of a table whose unlisted keys read as `dv`. -/
def twf {α : Type} [DecidableEq α] (dv : α) (l : List (Nat × α)) : Bool :=
  tsorted l && l.all (fun e => decide (e.2 ≠ dv))

/-- Run `f` over the numbers below `n` in rising order, carrying a value. -/
def loop {σ : Type} (f : Nat → σ → σ) : Nat → σ → σ
  | 0, s => s
  | n + 1, s => f n (loop f n s)

/-- The numbers below `n` that satisfy `p`, rising. -/
def below (n : Nat) (p : Nat → Bool) : List Nat := (List.range n).filter p

end Sys2Proof.Machine
end

