-- ==== Sys2Proof/Machine/Ops.lean ====
section
/-! DEFINITION. The named operations over the state that every meaning is written in: register fields,
table entries, raises, outputs, free values. Each meaning is a function of the device lifted to a step. -/
namespace Sys2Proof.Machine

/-- What a command answers. -/
abbrev Ans := Host.Outcome State Fault Refusal

/-- A meaning that changes the device and nothing else: the queue stays as it is. -/
def lift (f : Dev → Dev) (s : State) : Ans := .next { s with dev := f s.dev }

/-- Apply `f` when `c` holds. -/
def Dev.cond (d : Dev) (c : Bool) (f : Dev → Dev) : Dev := if c then f d else d

/-- Apply `f` to each element in order. -/
def Dev.each {α : Type} (d : Dev) (l : List α) (f : α → Dev → Dev) : Dev :=
  l.foldl (fun d x => f x d) d

/-! ### Register fields (R5) -/

/-- The value of a register field; one that was never changed holds its reset value. -/
def Dev.fld (d : Dev) (f : Fld) : Nat := tget f.reset d.fields f.key

/-- Set a register field, cut to its width. -/
def Dev.setFld (d : Dev) (f : Fld) (v : Nat) : Dev :=
  { d with fields := tput f.reset d.fields f.key (v % 2 ^ f.w) }

/-- A one-bit field read as a truth value. -/
def Dev.flag (d : Dev) (f : Fld) : Bool := decide (d.fld f = 1)

/-- Set a one-bit field. -/
def Dev.setFlag (d : Dev) (f : Fld) (b : Bool) : Dev := d.setFld f (if b then 1 else 0)

/-- Add to a counter that wraps at its width. -/
def Dev.bump (d : Dev) (f : Fld) (n : Nat) : Dev := d.setFld f (d.fld f + n)

/-- Add to a counter that saturates. -/
def Dev.bumpSat (d : Dev) (f : Fld) (n : Nat) : Dev := d.setFld f (min (d.fld f + n) (2 ^ f.w - 1))

/-! ### Time, raises, outputs, free values -/

/-- R31: the epoch number. -/
def Dev.epoch (d : Dev) : Nat := d.beat / Config.epochBeats

/-- R563, R40: raise an event source; the raise carries the beat in which it arises. -/
def Dev.raise (d : Dev) (src p0 p1 p2 : Nat) : Dev :=
  { d with
      raised := d.raised ++
      [⟨src, eventCode src, p0 % 2 ^ 32, p1 % 2 ^ 32, p2 % 2 ^ 32, d.beat⟩] }

/-- Raise an event whose chapter says "at most once per epoch" for key `key`. -/
def Dev.raiseOnce (d : Dev) (key src p0 p1 p2 : Nat) : Dev :=
  if tget 0 d.seen key = d.epoch + 1 then d
  else ({ d with seen := tput 0 d.seen key (d.epoch + 1) }).raise src p0 p1 p2

/-- What goes over the peer link: link messages, CTRL records, and what contexts of class 1 send (R451, R455). -/
def Out.onLink : Out → Bool
  | .link _ => true
  | .ctrl _ _ _ _ => true
  | .request q _ _ _ _ _ _ => decide (q < 64)
  | .ack q _ _ _ _ => decide (q < 64)
  | .nak q _ _ _ => decide (q < 64)
  | .rnrNak q _ _ _ => decide (q < 64)
  | _ => false

/-- CTRL records are the part of the link's traffic that does not wait for state SYNC (R449). -/
def Out.isCtrl : Out → Bool
  | .ctrl _ _ _ _ => true
  | _ => false

/-- Put something on a pin or bus, or give it to the link's transmitter. Before state SYNC the link carries CTRL records only
(R449), and anything else given to it is lost. -/
def Dev.emit (d : Dev) (o : Out) : Dev :=
  if o.onLink then
    if o.isCtrl || decide (2 ≤ d.fld Reg.CDX_STS_LINK) then { d with cdx := { d.cdx with txq := d.cdx.txq ++ [o] } } else d
  else { d with out := d.out ++ [o] }

/-- Draw a free value: the number of the draw, to which a constant of `Config` is applied. -/
def Dev.draw (d : Dev) : Nat × Dev := (d.free, { d with free := d.free + 1 })

/-- R606, R607: strap value of Fissure pin n, as sampled. -/
def Dev.strap (d : Dev) (n : Nat) : Bool := decide (d.fld Reg.FIS_STRAP_VALUE / 2 ^ n % 2 = 1)

/-! ### Timers (R39, R47): each counts beat edges from the edge at which it was armed -/

/-- The key of timer `i` of kind `cls`. -/
def tm (cls i : Nat) : Nat := cls * 2 ^ 20 + i
def Dev.armed (d : Dev) (k : Nat) : Bool := decide (tget 0 d.marks k ≠ 0)
def Dev.arm (d : Dev) (k : Nat) : Dev := { d with marks := tput 0 d.marks k (d.edges + 1) }
def Dev.disarm (d : Dev) (k : Nat) : Dev := { d with marks := tput 0 d.marks k 0 }
/-- Beats since a timer was armed. -/
def Dev.age (d : Dev) (k : Nat) : Nat := d.edges + 1 - tget 0 d.marks k
/-- R39: a window of `w` beats has passed since the timer was armed. -/
def Dev.expired (d : Dev) (k w : Nat) : Bool := d.armed k && decide (w ≤ d.age k)

/-- The number under which a unit's timers run. -/
def unitNo (u : UnitId) : Nat :=
  match u with
  | .slice s => s
  | .port p => 16 + p
  | .mdc => 40
  | .lane l => 48 + l
  | .att a => 128 + a
  | .qp q => 1024 + q

def tmStart (u : UnitId) : Nat := tm 0 (unitNo u)
def tmStop (u : UnitId) : Nat := tm 1 (unitNo u)
def tmPortLost (p : Nat) : Nat := tm 2 p
def tmPause (p : Nat) (pr : Prio) : Nat := tm 3 (2 * p + (if pr = .a then 0 else 1))
def tmLate (u : UnitId) : Nat := tm 12 (unitNo u)
def tmXoff (p : Nat) (pr : Prio) : Nat := tm 4 (2 * p + (if pr = .a then 0 else 1))
def tmCnp (q : Nat) : Nat := tm 5 q
def tmRate (q : Nat) : Nat := tm 6 q
def tmAck (q path : Nat) : Nat := tm 7 (4 * q + path)
def tmRnr (q path : Nat) : Nat := tm 8 (4 * q + path)
def tmRevoke (r : Nat) : Nat := tm 9 r
def tmSync : Nat := tm 10 0
def tmSyncReq : Nat := tm 10 1
def tmSlew : Nat := tm 10 2
def tmHoldup : Nat := tm 11 0
def tmVaults : Nat := tm 11 1
def tmRetire (a : Nat) : Nat := tm 13 a
def tmPerst (p : Nat) : Nat := tm 14 p
def tmMirrored (s idx : Nat) : Nat := 64 * 2 ^ 20 + s * 2 ^ 20 + idx
def tmLoadWait (s idx : Nat) : Nat := 80 * 2 ^ 20 + s * 2 ^ 20 + idx

/-- R47: beat edges since beat b. Beats stepped over after b do not count. -/
def Dev.since (d : Dev) (b : Nat) : Nat := d.beat - b - ((d.jumps.filter (fun j => decide (b < j.1))).map (·.2)).sum

/-! ### Slices (R12) -/

def Dev.slice (d : Dev) (s : Nat) : Slice := tget {} d.slices s
def Dev.updSlice (d : Dev) (s : Nat) (f : Slice → Slice) : Dev :=
  { d with slices := tupd {} d.slices s f }

/-- R188 and the engine chapters: source `k` of slice `s`. -/
def sliceSrc (s k : Nat) : Nat := 448 + 64 * s + k

/-! ### Tickets (R540) -/

/-- The work of a ticket has ended, with its final status; TICKET_DONE follows at the next epoch edge. Number 0 is no ticket. -/
def Dev.ticketEnd (d : Dev) (n st detail : Nat) : Dev :=
  { d with
      mbx := { d.mbx with
      tickets := d.mbx.tickets.map (fun t => if t.num = n ∧ t.result.isNone then { t with result := some (st, detail) } else t) } }

/-- A ticket's work ends with a status that spec/ does not state: a free value. -/
def Dev.ticketOpen (d : Dev) (n : Nat) : Dev :=
  let (k, d1) := d.draw
  d1.ticketEnd n (Config.freeNat k % 256) (Config.freeNat k / 256 % 2 ^ 16)

/-! ### The debug opening (R656) -/

/-- Debug is OPENING or OPEN: the failover block requests no group, starts no failback and makes no claim. -/
def Dev.dbgActive (d : Dev) : Bool := decide (d.fld Reg.SEC_STS_DBG_STATE ≠ 0)

/-- R605: the Fissure pins have their SERVICE functions, and inputs are stamped. -/
def Dev.pinsOn (d : Dev) : Bool := decide (d.fld Reg.FIS_STS_PHASE ≠ 0)

/-- R518, R656: a flush that a power failure started is over: the head is silent until power-on reset. -/
def Dev.geyOver (d : Dev) : Bool := d.cal.pwrfail && decide (d.fld Reg.MEM_GEY_STS_STATE = 2)

/-! ### Counters (chapter 20) -/

/-- R585: counter n of block b is the high half of a pair. -/
def Dev.pmcHigh (d : Dev) (b n : Nat) : Bool := decide (n % 2 = 1) && d.flag (Reg.PMC_CFG_CHAIN b (n - 1))

/-- R585: counter n of block b is the low half of a pair. -/
def Dev.pmcLow (d : Dev) (b n : Nat) : Bool := decide (n % 2 = 0) && d.flag (Reg.PMC_CFG_CHAIN b n)

/-- Set bit n of a field of PMC_BLK_STS. -/
def Dev.pmcBit (d : Dev) (f : Fld) (n : Nat) : Dev := d.setFld f (d.fld f ||| 2 ^ n)

/-- R594, R595: an overflow asks for a sample; with the buffer still full it is lost. -/
def Dev.pmcSample (d : Dev) (b n : Nat) : Dev :=
  if d.flag (Reg.PMC_SMP_STS_SAMPLE_VALID b) then d.bumpSat (Reg.PMC_SMP_STS_SAMPLE_LOST b) 1
  else { d with pmc := { d.pmc with due := d.pmc.due ++ [(b, n, d.beat)] } }

/-- R588: an unchained counter, or the high half of a pair, passes 0xFFFF_FFFF in a block in force of GLB_MODE; it holds `rest` above 0
or above RELOAD. -/
def Dev.pmcOver (d : Dev) (b n rest : Nat) : Dev :=
  if d.fld Reg.GLB_MODE_MODE ≠ 0 then (d.setFld (Reg.PMC_CNT_COUNT b n) rest).pmcBit (Reg.PMC_BLK_STS_WRAPPED b) n
  else
    let smp := d.flag (Reg.PMC_CFG_SAMPLE b n) && !d.pmcHigh b n
    let d1 := (d.setFld (Reg.PMC_CNT_COUNT b n) (rest + (if smp then d.fld (Reg.PMC_RELOAD_RELOAD b n) else 0))).pmcBit (Reg.PMC_BLK_STS_OVF b) n
    (d1.raise (1992 + b) b n (d1.fld (Reg.PMC_BLK_STS_OVF b))).cond smp (fun d => d.pmcSample b n)

/-- R584: a counter that is not a low half adds v. -/
def Dev.pmcAddOne (d : Dev) (b n v : Nat) : Dev :=
  let t := d.fld (Reg.PMC_CNT_COUNT b n) + v
  if t < 2 ^ 32 then d.setFld (Reg.PMC_CNT_COUNT b n) t else d.pmcOver b n (t - 2 ^ 32)

/-- R584, R585, R588: a counter adds v; the low half of a pair carries into the high half, but outside SERVICE. -/
def Dev.pmcAdd (d : Dev) (b n v : Nat) : Dev :=
  let t := d.fld (Reg.PMC_CNT_COUNT b n) + v
  if d.pmcLow b n = false then d.pmcAddOne b n v
  else if t < 2 ^ 32 then d.setFld (Reg.PMC_CNT_COUNT b n) t
  else
    let d1 := d.setFld (Reg.PMC_CNT_COUNT b n) (t - 2 ^ 32)
    if d.fld Reg.GLB_MODE_MODE ≠ 0 then d1.pmcBit (Reg.PMC_BLK_STS_WRAPPED b) n
    else d1.cond (d1.flag (Reg.PMC_CFG_EN b (n + 1))) (fun d => d.pmcAddOne b (n + 1) 1)

/-- R584: counter n of block b counts now. -/
def Dev.pmcRuns (d : Dev) (b n : Nat) : Bool :=
  d.flag (Reg.PMC_CFG_EN b n) && !d.flag (Reg.PMC_BLK_CTL_FREEZE b)

/-- R584: an event of block b has occurred v times: every counter set to it counts. -/
def Dev.count (d : Dev) (b ev v : Nat) : Dev :=
  d.each ((List.range 8).filter (fun n => d.pmcRuns b n && !d.pmcHigh b n && decide (d.fld (Reg.PMC_CFG_EVENT b n) = ev)))
    (fun n d => d.pmcAdd b n v)

/-! ### Ports, contexts, bitmaps, regions (chapter 3) -/

def Dev.port (d : Dev) (p : Nat) : PortRec := tget {} d.xpt.ports p
def Dev.updPort (d : Dev) (p : Nat) (f : PortRec → PortRec) : Dev :=
  { d with xpt := { d.xpt with ports := tupd {} d.xpt.ports p f } }

/-- R75, R683: a context that was never changed. Contexts 0 to 63 are class 1 with ATTR_VALID 1. -/
def ctxInit (q : Nat) : QpCtx := if q < 64 then { cls := 1, attrValid := true } else {}
def Dev.ctx (d : Dev) (q : Nat) : QpCtx := tget (ctxInit q) d.xpt.ctxs q
def Dev.updCtx (d : Dev) (q : Nat) (f : QpCtx → QpCtx) : Dev :=
  { d with xpt := { d.xpt with ctxs := tupd (ctxInit q) d.xpt.ctxs q f } }
def Dev.work (d : Dev) (q : Nat) : QpWork := tget {} d.xpt.works q
def Dev.updWork (d : Dev) (q : Nat) (f : QpWork → QpWork) : Dev :=
  { d with xpt := { d.xpt with works := tupd {} d.xpt.works q f } }
def Dev.bitmap (d : Dev) (i : Nat) : Bitmap := tget {} d.xpt.bitmaps i
def Dev.updBitmap (d : Dev) (i : Nat) (f : Bitmap → Bitmap) : Dev :=
  { d with xpt := { d.xpt with bitmaps := tupd {} d.xpt.bitmaps i f } }
def Dev.region (d : Dev) (r : Nat) : Region := tget {} d.xpt.regions r
def Dev.updRegion (d : Dev) (r : Nat) (f : Region → Region) : Dev :=
  { d with xpt := { d.xpt with regions := tupd {} d.xpt.regions r f } }

/-- R13: the home slice of context q. -/
def home (q : Nat) : Nat :=
  Nat.xor (q % 8) (Nat.xor (q / 8 % 8) (Nat.xor (q / 64 % 8) (Nat.xor (q / 512 % 8) (q / 4096 % 4))))

/-- R14: the xor of all 3-bit groups of a number below 2^(3 fuel). -/
def fold3Aux : Nat → Nat → Nat
  | 0, _ => 0
  | fuel + 1, x => Nat.xor (x % 8) (fold3Aux fuel (x / 8))

/-- R14: fold3; region indices are below 2^35 and volume IDs below 2^15. -/
def fold3 (x : Nat) : Nat := fold3Aux 16 x

/-- R14: the slice of the grains of region r of volume v. -/
def grainSlice (v r : Nat) : Nat := Nat.xor (fold3 r) (fold3 v)

/-! ### Tags, volumes, controllers (chapter 4) -/

def Dev.tag (d : Dev) (t : Nat) : Tag := tget {} d.nvt.tags t
def Dev.updTag (d : Dev) (t : Nat) (f : Tag → Tag) : Dev :=
  { d with nvt := { d.nvt with tags := tupd {} d.nvt.tags t f } }
def Dev.vol (d : Dev) (v : Nat) : Namespace := tget {} d.nvt.ns v
def Dev.updVol (d : Dev) (v : Nat) (f : Namespace → Namespace) : Dev :=
  { d with nvt := { d.nvt with ns := tupd {} d.nvt.ns v f } }
def Dev.subsystem (d : Dev) (i : Nat) : Subsys := tget {} d.nvt.subsys i
def Dev.updSubsys (d : Dev) (i : Nat) (f : Subsys → Subsys) : Dev :=
  { d with nvt := { d.nvt with subsys := tupd {} d.nvt.subsys i f } }
def Dev.ctrl (d : Dev) (c : Nat) : Ctrl := tget {} d.nvt.ctrls c
def Dev.updCtrl (d : Dev) (c : Nat) (f : Ctrl → Ctrl) : Dev :=
  { d with nvt := { d.nvt with ctrls := tupd {} d.nvt.ctrls c f } }
def Dev.bind (d : Dev) (q : Nat) : QpBind := tget {} d.nvt.binds q
def Dev.updBind (d : Dev) (q : Nat) (f : QpBind → QpBind) : Dev :=
  { d with nvt := { d.nvt with binds := tupd {} d.nvt.binds q f } }

/-! ### Directory entries (chapter 5) -/

/-- The table key of entry `idx` of slice `s`'s directory (R148). -/
def dirKey (s idx : Nat) : Nat := s * Config.dirEntries + idx
def Dev.dir (d : Dev) (s idx : Nat) : DirEntry := tget {} d.cal.dirs (dirKey s idx)
def Dev.updDir (d : Dev) (s idx : Nat) (f : DirEntry → DirEntry) : Dev :=
  { d with cal := { d.cal with dirs := tupd {} d.cal.dirs (dirKey s idx) f } }

/-! ### Key slots (chapter 8) -/

def Dev.kslot (d : Dev) (s : Nat) : KeySlot := tget {} d.key.slots s

/-! ### Metadata tables (chapter 10) -/

def Dev.page (d : Dev) (p : Nat) : MapPage := tget {} d.mde.pages p
def Dev.updPage (d : Dev) (p : Nat) (f : MapPage → MapPage) : Dev :=
  { d with mde := { d.mde with pages := tupd {} d.mde.pages p f } }
def Dev.tree (d : Dev) (t : Nat) : Tree := tget {} d.mde.trees t
def Dev.updTree (d : Dev) (t : Nat) (f : Tree → Tree) : Dev :=
  { d with mde := { d.mde with trees := tupd {} d.mde.trees t f } }
def Dev.grec (d : Dev) (g : Nat) : GrainRec := tget {} d.mde.recs g
def Dev.updGrec (d : Dev) (g : Nat) (f : GrainRec → GrainRec) : Dev :=
  { d with mde := { d.mde with recs := tupd {} d.mde.recs g f } }
def Dev.segEnt (d : Dev) (s : Nat) : SegEnt := tget {} d.mde.segs s
def Dev.updSegEnt (d : Dev) (s : Nat) (f : SegEnt → SegEnt) : Dev :=
  { d with mde := { d.mde with segs := tupd {} d.mde.segs s f } }
def Dev.pool (d : Dev) (s : Nat) : List Nat := tget [] d.mde.pools s
def Dev.setPool (d : Dev) (s : Nat) (l : List Nat) : Dev :=
  { d with mde := { d.mde with pools := tput [] d.mde.pools s l } }

end Sys2Proof.Machine
end

