-- ==== Sys2Proof/Machine/Memory.lean ====
section
/-! DEFINITION. Byte memory: the Caldera's own and mirror areas (R146) and the rest of HBM3E and DDR5, each a
list of (address, byte) pairs in the canonical form of Table.lean. A byte that nothing has written reads 0,
which the log names as a choice. -/
namespace Sys2Proof.Machine

/-- What an unlisted address reads as. -/
def memDefault : Byte := 0

/-- The canonical form of a byte memory. -/
def Memory.wf (m : List Host.Cell) : Bool := twf memDefault m

/-- Read one byte. -/
def readByte (m : List Host.Cell) (a : Nat) : Byte := tget memDefault m a

/-- Write one byte. -/
def writeByte (m : List Host.Cell) (a : Nat) (b : Byte) : List Host.Cell := tput memDefault m a b

/-- Read `n` bytes from address `a` upward. -/
def readBytes (m : List Host.Cell) (a : Nat) : Nat → List Byte
  | 0 => []
  | n + 1 => readByte m a :: readBytes m (a + 1) n

/-- Write bytes from address `a` upward. -/
def writeBytes (m : List Host.Cell) (a : Nat) : List Byte → List Host.Cell
  | [] => m
  | b :: bs => writeBytes (writeByte m a b) (a + 1) bs

/-- Bytes of a page (R146). -/
def pageBytes : Nat := 4096

end Sys2Proof.Machine
end

