-- ==== Sys2Proof/Machine/Mdc.lean ====
section
/-! DEFINITION. The metadata cache: its sets and ways, fills, lock entries, walking commands and the drain (R342 to R361). -/
namespace Sys2Proof.Machine

/-! ### Page identifiers (R306) -/

/-- R306: a page identifier. -/
def pageIdOf (head cls num : Nat) : Nat := head * 2 ^ 47 + cls * 2 ^ 44 + num

def pageClass (id : Nat) : Nat := id / 2 ^ 44 % 8
def pageNum (id : Nat) : Nat := id % 2 ^ 44

/-- R312: the page that holds a grain record. -/
def grainPage (g : Nat) : Nat := pageIdOf (g / 2 ^ 47) 1 (g % 2 ^ 47 / 128)

/-! ### Geometry (R343) -/

def mdcSet (l : Nat) : Nat := Nat.xor (l % 2 ^ 14) (Nat.xor (l / 2 ^ 14 % 2 ^ 14) (l / 2 ^ 28 % 2 ^ 8))
def mdcTag (l : Nat) : Nat := l / 2 ^ 14

def mdcSets : Nat := 16384
def mdcWays : Nat := 16

/-- The key of a set's way. -/
def wayKey (set way : Nat) : Nat := 16 * set + way

def Dev.mdcLine (d : Dev) (k : Nat) : CacheLine := tget {} d.mdc.lines k
def Dev.putLine (d : Dev) (k : Nat) (x : CacheLine) : Dev := { d with mdc := { d.mdc with lines := tput {} d.mdc.lines k x } }

/-- The way that holds line l. -/
def Dev.mdcFind (d : Dev) (l : Nat) : Option Nat :=
  ((List.range mdcWays).map (wayKey (mdcSet l))).find? (fun k => (d.mdcLine k).valid && decide ((d.mdcLine k).line = l))

/-- A set's ways, most recently used first (R344, R360). -/
def allWays : List Nat := List.range mdcWays
def Dev.mdcOrder (d : Dev) (set : Nat) : List Nat := tget allWays d.mdc.order set
def Dev.mdcTouch (d : Dev) (set way : Nat) : Dev :=
  { d with mdc := { d.mdc with order := tput allWays d.mdc.order set (way :: (d.mdcOrder set).filter (· ≠ way)) } }
def Dev.mdcLast (d : Dev) (set way : Nat) : Dev :=
  { d with mdc := { d.mdc with order := tput allWays d.mdc.order set ((d.mdcOrder set).filter (· ≠ way) ++ [way]) } }

/-- Memory behind the cache. -/
def lineBytes : Nat := 256
def Dev.memLine (d : Dev) (l : Nat) : List Byte := readBytes d.ram (l * lineBytes) lineBytes
def Dev.putMemLine (d : Dev) (l : Nat) (bs : List Byte) : Dev := { d with ram := writeBytes d.ram (l * lineBytes) bs }

/-- A line as the cache and the memory behind it hold it. -/
def Dev.lineNow (d : Dev) (l : Nat) : List Byte := match d.mdcFind l with
  | some k => (d.mdcLine k).bytes
  | none => d.memLine l

/-- The content of a line, wherever it lies, is replaced. -/
def Dev.setLine (d : Dev) (l : Nat) (bs : List Byte) : Dev := match d.mdcFind l with
  | some k => (d.putLine k { d.mdcLine k with bytes := bs }).putMemLine l bs
  | none => d.putMemLine l bs

/-! ### Lock entries (R348, R349) -/

def Dev.mdcActive (d : Dev) (n : Nat) : Bool := d.flag (Reg.MDC_LOCK_STS_ACTIVE n)
def Dev.mdcLock (d : Dev) (n : Nat) : MdcLock := tget {} d.mdc.locks n
def MdcLock.covers (x : MdcLock) (l : Nat) : Bool := decide (x.base ≤ l) && decide (l < x.limit)
def hasWay (mask w : Nat) : Bool := decide (mask / 2 ^ w % 2 = 1)

/-- The enabled entry whose range covers a line. -/
def Dev.lockOf (d : Dev) (l : Nat) : Option Nat := (List.range 12).find? (fun n => d.mdcActive n && (d.mdcLock n).covers l)

/-- The enabled entry that names a way. -/
def Dev.lockOfWay (d : Dev) (w : Nat) : Option Nat := (List.range 12).find? (fun n => d.mdcActive n && hasWay (d.mdcLock n).ways w)

/-- R349: the ways that a line may fill. -/
def Dev.mayFill (d : Dev) (l : Nat) : List Nat :=
  match d.lockOf l with
  | some n => allWays.filter (fun w => hasWay (d.mdcLock n).ways w)
  | none => allWays.filter (fun w => (d.lockOfWay w).isNone)

/-! ### Write-backs (R355) -/

/-- A dirty line is written back; a HELD one tries again, and is HELD no more unless this fails too. Those of commands and of the drain leave at 32 lines per
beat (R351). -/
def Dev.writeBack (d : Dev) (k cause : Nat) : Dev :=
  let x := d.mdcLine k
  if x.dirty = false then d
  else
    let d1 := (d.putMemLine x.line x.bytes).bump Reg.MDC_WRITEBACKS_COUNT 1
    let d2 := { d1 with mdc := { d1.mdc with wb := d1.mdc.wb ++ [MdcWb.mk k x.line x.bytes cause], owed := d1.mdc.owed + (if cause = 0 then 0 else 1) } }
    (d2.putLine k { x with dirty := false, held := false }).cond x.held
      (fun d => d.setFld Reg.MDC_ERR_COUNT_LINES (d.fld Reg.MDC_ERR_COUNT_LINES - 1))

def Dev.dropLine (d : Dev) (k : Nat) : Dev :=
  (d.putLine k {}).cond (d.mdcLine k).held (fun d => d.setFld Reg.MDC_ERR_COUNT_LINES (d.fld Reg.MDC_ERR_COUNT_LINES - 1))

/-- R361: the two parameters that name an address. -/
def adrLo (l : Nat) : Nat := l % 2 ^ 24
def adrHi (l : Nat) : Nat := l / 2 ^ 24

/-- WRITEBACK_FAILED, R355: a write-back of this beat met an uncorrectable error: its line is valid, dirty and HELD in its way. A line
that had filled the way since is written to memory. -/
def Dev.writebackFailed (d : Dev) (k : Nat) : Dev :=
  match d.mdc.wb.find? (fun w => decide (w.key = k)) with
  | none => d
  | some w =>
    let x := d.mdcLine k
    let d1 := d.cond (x.valid && x.dirty && decide (x.line ≠ w.line)) (fun d => d.putMemLine x.line x.bytes)
    let bytes := if x.valid ∧ x.line = w.line then x.bytes else w.bytes
    let d2 := ({ d1 with mdc := { d1.mdc with wb := d1.mdc.wb.filter (fun y => decide (y.key ≠ k)) } }).putLine k
      { valid := true, dirty := true, held := true, line := w.line, bytes := bytes }
    let d3 := d2.cond (d2.flag Reg.MDC_ERR_ADDR_LO_VALID = false)
      (fun d => (d.setFld Reg.MDC_ERR_ADDR_ADDR w.line).setFld Reg.MDC_ERR_ADDR_LO_VALID 1)
    let d4 := (d3.setFld Reg.MDC_ERR_COUNT_LINES (d3.fld Reg.MDC_ERR_COUNT_LINES + 1)).raise 1043 (adrLo w.line) (adrHi w.line) w.cause
    if w.cause = 1 then
      { d4 with
          mdc := { d4.mdc with
          cmd := d4.mdc.cmd.map (fun c =>
          if c.op = .flush ∨ c.op = .flushInv then { c with status := 0x0A } else c) } }
    else d4

def execWritebackFailed (k : Nat) (s : State) : Ans := lift (fun d => d.writebackFailed k) s

/-! ### Fills (R344 to R346) -/

/-- R344: the way that a line fills, among `ws`: the lowest invalid one, else the least recently used one not HELD. -/
def Dev.victim (d : Dev) (set : Nat) (ws : List Nat) : Option Nat :=
  match ws.find? (fun w => (d.mdcLine (wayKey set w)).valid = false) with
  | some w => some w
  | none => ((d.mdcOrder set).reverse.filter (fun w => ws.contains w)).find? (fun w => (d.mdcLine (wayKey set w)).held = false)

/-- Put a line into a way; a dirty line there is written back first. -/
def Dev.fillWay (d : Dev) (set way : Nat) (x : CacheLine) : Dev := (d.writeBack (wayKey set way) 0).putLine (wayKey set way) x

/-- R346, R504: the line at which a metadata page lies; hot metadata fills HBM3E from 56 GiB to 92 GiB. -/
def pageLine (n : Nat) : Nat := 56 * 2 ^ 22 + 16 * (Config.pagePlace n % (36 * 2 ^ 18))

/-- R347: a line was lost: the map page or the grain-record page that it belongs to must be read from flash again. -/
def Dev.pageLost (d : Dev) (l : Nat) : Dev :=
  let hit (n : Nat) : Bool := decide (pageLine n / 16 = l / 16)
  let gone := ((d.mde.recs.map (fun e => grainPage e.1)).eraseDups).filter (fun i => hit i && !d.mde.away.contains i)
  { d with
    mde := { d.mde with
      pages := d.mde.pages.map (fun (e : Nat × MapPage) => if hit e.1 then (e.1, { e.2 with resident := false }) else e)
      away := d.mde.away ++ gone } }

/-- R345: the prefetch that follows a demand miss of line l. -/
def Dev.mdcPrefetch (d : Dev) (l : Nat) (err : Bool) : Dev :=
  let n := l + 1
  if d.flag Reg.MDC_CTL_PF_EN = false ∨ n % 16 = 0 ∨ (d.mdcFind n).isSome then d
  else match d.victim (mdcSet n) (d.mayFill n) with
    | none => d
    | some w =>
      let d1 := d.bump Reg.MDC_PF_ISSUED_COUNT 1
      if err then d1.bumpSat Reg.MDC_PF_DROP_COUNT 1
      else (d1.fillWay (mdcSet n) w { valid := true, prefetched := true, line := n, bytes := d1.memLine n }).mdcLast (mdcSet n) w

/-- Bytes written over a line. -/
def overLine (old : List Byte) (wr : Option (List Byte)) : List Byte := match wr with
  | some bs => (bs ++ old.drop bs.length).take lineBytes
  | none => old

/-- A write that bypasses the cache goes to memory. -/
def Dev.mdcBypass (d : Dev) (l : Nat) (wr : Option (List Byte)) : Dev :=
  match wr with
  | some _ => d.putMemLine l (overLine (d.memLine l) wr)
  | none => d

/-- R344, R347: a demand miss. -/
def Dev.mdcMiss (d : Dev) (l : Nat) (wr : Option (List Byte)) (err : Option Nat) (pfErr : Bool) : Dev :=
  let d1 := (d.bump Reg.MDC_MISSES_COUNT 1).count 0 0x007 1
  let set := mdcSet l
  let d2 :=
    if err = some 0 then (d1.raise 1045 (adrLo l) (adrHi l) 0).pageLost l
    else match d1.victim set (d1.mayFill l) with
      | none => (d1.bumpSat Reg.MDC_BYPASS_COUNT 1).mdcBypass l wr
      | some w =>
        (d1.fillWay set w { valid := true, dirty := wr.isSome, line := l, bytes := overLine (d1.memLine l) wr }).mdcTouch set w
  d2.mdcPrefetch l pfErr

/-- R347: an error found in a line that is present: it is dropped, and a dirty one is lost. -/
def Dev.mdcLineError (d : Dev) (k kind : Nat) : Dev :=
  let x := d.mdcLine k
  let d1 := ((d.dropLine k).raise 1045 (adrLo x.line) (adrHi x.line) kind).pageLost x.line
  d1.cond (x.dirty && decide (kind = 2)) (fun d => d.raise 1046 (adrLo x.line) (adrHi x.line) 0)

/-- A hit: the line is read, or written and dirty. While the cache drains, a line of a set already drained stays clean. -/
def Dev.mdcHit (d : Dev) (k l : Nat) (wr : Option (List Byte)) : Dev :=
  let x := d.mdcLine k
  let set := mdcSet l
  let through := decide (set < d.mdc.drain) && wr.isSome && !x.held
  let d1 := ((d.bump Reg.MDC_HITS_COUNT 1).count 0 0x006 1).cond x.prefetched (fun d => d.bump Reg.MDC_PF_USED_COUNT 1)
  let bs := overLine x.bytes wr
  let d2 := d1.putLine k { x with prefetched := false, bytes := bs, dirty := x.dirty || (wr.isSome && !through) }
  (d2.cond through (fun d => d.putMemLine l bs)).mdcTouch set (k % 16)

/-- CACHE_ACCESS, R344, R347, R356: an access of the metadata engine to line l. -/
def Dev.cacheAccess (d : Dev) (l : Nat) (wr : Option (List Byte)) (err : Option Nat) (pfErr : Bool) : Dev :=
  match d.fld Reg.MDC_STS_STATE, d.mdcFind l with
  | 2, some k =>
    match err with
    | some (e + 1) => d.mdcLineError k (e + 1)
    | _ => d.mdcHit k l wr
  | 2, none => d.mdcMiss l wr err pfErr
  | st, some k =>
    if st = 3 ∨ st = 4 then
      match err with
      | some (e + 1) => d.mdcLineError k (e + 1)
      | _ => d.mdcHit k l wr
    else if (d.mdcLine k).held then
      match wr with
      | some _ => d.putLine k { d.mdcLine k with bytes := overLine (d.mdcLine k).bytes wr }
      | none => d
    else d.mdcBypass l wr
  | _, none => d.mdcBypass l wr

def execCacheAccess (l : Nat) (wr : Option (List Byte)) (err : Option Nat) (pfErr : Bool) (s : State) : Ans :=
  lift (fun d => d.cacheAccess (l % 2 ^ 36) wr err pfErr) s

/-! ### Commands (R350 to R354) -/

def MdcOp.code : MdcOp → Nat
  | .flush => 1 | .flushInv => 2 | .invalidate => 3 | .prefetchLock => 4 | .lockSet => 5 | .lockClear => 6 | .zeroLine => 7

/-- R351, R359: a write of MDC_CMD with OP 0 issues nothing; its fields hold what was written, unless a command runs (R352). -/
def Dev.mdcIdle (d : Dev) (entry : Nat) : Dev :=
  if d.flag Reg.MDC_CMD_STS_BUSY then d.setFld Reg.MDC_CMD_STS_CMD_LOST 1 else (d.setFld Reg.MDC_CMD_OP 0).setFld Reg.MDC_CMD_ENTRY entry

/-- R352: a write to MDC_CMD: the command runs from the next edge; one that arrives while BUSY is 1 is lost. -/
def Dev.mdcCmd (d : Dev) (op : MdcOp) (entry : Nat) : Dev :=
  if d.flag Reg.MDC_CMD_STS_BUSY then d.setFld Reg.MDC_CMD_STS_CMD_LOST 1
  else
    let d1 := (((d.setFld Reg.MDC_CMD_OP op.code).setFld Reg.MDC_CMD_ENTRY entry).setFld Reg.MDC_CMD_STS_BUSY 1).setFld
      Reg.MDC_CMD_STS_PROGRESS 0
    { d1 with mdc := { d1.mdc with cmd := some { op := op, entry := entry % 16 } } }

/-- The command's range of lines. -/
def Dev.mdcBase (d : Dev) : Nat := d.fld Reg.MDC_CMD_BASE_BASE
def Dev.mdcLimit (d : Dev) : Nat := d.fld Reg.MDC_CMD_LIMIT_LIMIT
def Dev.inRange (d : Dev) (l : Nat) : Bool := decide (d.mdcBase ≤ l) && decide (l < d.mdcLimit)

/-- Ways that a mask names. -/
def maskWays (m : Nat) : List Nat := allWays.filter (hasWay m)

/-- R348: entry n as its registers stand may be enabled beside the others. -/
def Dev.lockAllowed (d : Dev) (n : Nat) : Bool :=
  let b := d.fld (Reg.MDC_LOCK_BASE_BASE n)
  let e := d.fld (Reg.MDC_LOCK_LIMIT_LIMIT n)
  let w := d.fld (Reg.MDC_LOCK_WAYS_WAYS n)
  let others := (List.range 12).filter (fun m => decide (m ≠ n) && d.mdcActive m)
  decide (n < 12) && decide (w ≠ 0) && decide (b < e) &&
    others.all (fun m => (maskWays (d.mdcLock m).ways).all (fun x => !hasWay w x)) &&
    decide ((maskWays w).length + (others.map (fun m => (maskWays (d.mdcLock m).ways).length)).sum ≤ 12) &&
    others.all (fun m => decide (e ≤ (d.mdcLock m).base) || decide ((d.mdcLock m).limit ≤ b))

/-- R348, R351, R352: the status with which a command is refused when it would take effect, or 0. -/
def Dev.mdcRefuse (d : Dev) (c : MdcCmd) : Nat :=
  let range := decide (d.mdcBase < d.mdcLimit)
  if d.fld Reg.MDC_STS_STATE ≠ 2 then 0x01
  else
    let ok := match c.op with
      | .flush | .flushInv | .invalidate => range
      | .prefetchLock => range && decide (c.entry < 12) && d.mdcActive c.entry && decide ((d.mdcLock c.entry).base ≤ d.mdcBase) &&
          decide (d.mdcLimit ≤ (d.mdcLock c.entry).limit)
      | .lockSet => d.lockAllowed c.entry
      | .lockClear => decide (c.entry < 12)
      | .zeroLine => range && decide (d.mdcLimit - d.mdcBase ≤ 2 ^ 16)
    if ok then 0 else 0x04

/-- LOCKED_WAYS follows the enabled entries (R359). -/
def Dev.refreshLocked (d : Dev) : Dev :=
  d.setFld Reg.MDC_STS_LOCKED_WAYS ((List.range 12).map (fun n => if d.mdcActive n then (maskWays (d.mdcLock n).ways).length else 0)).sum

def Dev.updCmd (d : Dev) (f : MdcCmd → MdcCmd) : Dev := { d with mdc := { d.mdc with cmd := d.mdc.cmd.map f } }

/-- R352: a command takes effect at an edge: it is refused, or its lock entry changes and its walk begins. -/
def Dev.mdcBegin (d : Dev) : Dev :=
  match d.mdc.cmd with
  | none => d
  | some c =>
    if c.begun then d
    else
      let st := d.mdcRefuse c
      if st ≠ 0 then (d.updCmd (fun c => { c with begun := true, status := st, walk := 2 ^ 36 })).raise 1047 c.op.code st 0
      else
        let d1 := d.updCmd (fun c => { c with begun := true })
        match c.op with
        | .lockClear =>
          (((d1.setFld (Reg.MDC_LOCK_STS_ACTIVE c.entry) 0).updCmd (fun c => { c with walk := 2 ^ 36 }))).refreshLocked
        | .lockSet =>
          let x := MdcLock.mk (d.fld (Reg.MDC_LOCK_BASE_BASE c.entry)) (d.fld (Reg.MDC_LOCK_LIMIT_LIMIT c.entry)) (d.fld (Reg.MDC_LOCK_WAYS_WAYS c.entry))
          (({ d1 with mdc := { d1.mdc with locks := tput {} d1.mdc.locks c.entry x } }).setFld (Reg.MDC_LOCK_STS_ACTIVE c.entry) 1).refreshLocked
        | _ => d1

/-- R351, R354: what a set walk does with one line. -/
def Dev.walkLine (d : Dev) (c : MdcCmd) (k : Nat) : Dev :=
  let x := d.mdcLine k
  let locked := d.lockOfWay (k % 16)
  let count (d : Dev) (dirty : Bool) : Dev :=
    match locked with
    | none => d
    | some n =>
      (d.bumpSat Reg.MDC_LOCK_INV_COUNT 1).updCmd (fun c => { c with
        lockEntry := if c.lockDrop = 0 then n else c.lockEntry
        lockDrop := c.lockDrop + 1
        lockDirty := c.lockDirty + (if dirty then 1 else 0) })
  match c.op with
  | .flush => if d.inRange x.line then d.writeBack k 1 else d
  | .flushInv => if d.inRange x.line then count ((d.writeBack k 1).dropLine k) false else d
  | .invalidate =>
    if d.inRange x.line then
      count ((d.cond x.dirty (fun d => d.bumpSat Reg.MDC_DIRTY_DISCARD_COUNT 1)).dropLine k) x.dirty
    else d
  | .lockSet => if hasWay (d.mdcLock c.entry).ways (k % 16) ∧ (d.mdcLock c.entry).covers x.line = false then
      (d.writeBack k 1).dropLine k else d
  | _ => d

/-- A set walk over `n` sets from set `a`. -/
def Dev.walkSets (d : Dev) (c : MdcCmd) (a n : Nat) : Dev :=
  d.each ((d.mdc.lines.filter (fun e => decide (a ≤ e.1 / 16) && decide (e.1 / 16 < a + n) && e.2.valid)).map (·.1)) (fun k d => d.walkLine c k)

/-- R351, R352: PREFETCH_LOCK of one line. -/
def Dev.prefetchOne (d : Dev) (c : MdcCmd) (l : Nat) : Dev :=
  if (d.mdcFind l).isSome then d
  else
    let set := mdcSet l
    let filled := match d.mdc.cmd with
      | some c => c.filled
      | none => []
    let ws := (maskWays (d.mdcLock c.entry).ways).filter (fun w => !(filled.contains (wayKey set w)))
    match d.victim set ws with
    | none => d.bumpSat Reg.MDC_PL_SKIP_COUNT 1
    | some w =>
      ((d.fillWay set w { valid := true, line := l, bytes := d.memLine l }).mdcTouch set w).updCmd (fun c => { c with
        filled := c.filled ++ [wayKey set w] })

/-- R346: a zero-line operation. -/
def Dev.zeroOne (d : Dev) (l : Nat) : Dev :=
  let set := mdcSet l
  let z : CacheLine := { valid := true, dirty := true, line := l, bytes := List.replicate lineBytes 0 }
  let d1 := d.bump Reg.MDC_ZERO_LINES_COUNT 1
  match d1.mdcFind l with
  | some k => (d1.putLine k { z with held := (d1.mdcLine k).held }).mdcTouch set (k % 16)
  | none =>
    match d1.victim set (d1.mayFill l) with
    | none => (d1.bumpSat Reg.MDC_BYPASS_COUNT 1).putMemLine l z.bytes
    | some w => (d1.fillWay set w z).mdcTouch set w

/-- R346, R356: the zero-line operations for a new metadata page. While the cache does not serve, they go to memory. -/
def Dev.zeroPage (d : Dev) (n : Nat) : Dev :=
  d.each (List.range 16) (fun i d =>
    if d.fld Reg.MDC_STS_STATE = 2 then d.zeroOne (pageLine n + i)
    else (d.bump Reg.MDC_ZERO_LINES_COUNT 1).cacheAccess (pageLine n + i) (some (List.replicate lineBytes 0)) none false)

/-- R351: the steps of a walk: 64 sets a beat, or 16 lines. -/
def MdcOp.onSets : MdcOp → Bool
  | .prefetchLock | .zeroLine | .lockClear => false
  | _ => true

/-- How long a command's walk is, in sets or lines. -/
def Dev.walkLen (d : Dev) (c : MdcCmd) : Nat :=
  match c.op with
  | .lockClear => 0
  | .prefetchLock | .zeroLine => d.mdcLimit - d.mdcBase
  | _ => mdcSets

/-- One beat of the running command's walk, or `n` sets or lines of it. -/
def Dev.mdcStep (d : Dev) (n : Nat) : Dev :=
  match d.mdc.cmd with
  | none => d
  | some c =>
    let m := min n (d.walkLen c - c.walk)
    if c.begun = false ∨ m = 0 then d
    else
      let d1 := if c.op.onSets then d.walkSets c c.walk m
        else d.each ((List.range m).map (fun i => d.mdcBase + c.walk + i)) (fun l d =>
          if c.op = .zeroLine then d.zeroOne l else d.prefetchOne c l)
      (d1.updCmd (fun x => { x with walk := c.walk + m })).setFld Reg.MDC_CMD_STS_PROGRESS
        (if c.op.onSets then c.walk + m else (c.walk + m) / 16)

/-- R351: what a beat does with the running command. -/
def Dev.mdcTick (d : Dev) : Dev :=
  let d0 := { d with mdc := { d.mdc with wb := [], owed := d.mdc.owed - 32 } }
  let d1 := d0.mdcBegin
  d1.mdcStep (match d1.mdc.cmd with
    | some c => if c.op.onSets then 64 else 16
    | none => 0)

/-- The walk of the running command has ended and its write-backs have completed. -/
def Dev.mdcReady (d : Dev) : Bool := match d.mdc.cmd with
  | some c => c.begun && decide (d.walkLen c ≤ c.walk) && d.mdc.wb.isEmpty && decide (d.mdc.owed = 0)
  | none => false

/-- MDC_COMMAND_DONE, R352, R354: the walk and the write-backs of the running command end: STATUS holds its result. What is left of the walk
is done first. -/
def Dev.mdcCommandDone (d : Dev) : Dev :=
  match d.mdc.cmd with
  | none => d
  | some c0 =>
    let d1 := d.mdcBegin
    let d2 := d1.mdcStep (d1.walkLen c0)
    match d2.mdc.cmd with
    | none => d2
    | some c =>
      let d3 := d2.cond (decide (c.lockDrop ≠ 0)) (fun d => d.raise 1044 c.lockEntry c.lockDrop c.lockDirty)
      let d4 := (d3.setFld Reg.MDC_CMD_STS_BUSY 0).setFld Reg.MDC_CMD_STS_STATUS c.status
      { d4 with mdc := { d4.mdc with cmd := none } }

def execMdcFlush (s : State) : Ans := lift (fun d => d.mdcCmd .flush (d.fld Reg.MDC_CMD_ENTRY)) s
def execMdcFlushInv (s : State) : Ans := lift (fun d => d.mdcCmd .flushInv (d.fld Reg.MDC_CMD_ENTRY)) s
def execMdcInvalidate (s : State) : Ans := lift (fun d => d.mdcCmd .invalidate (d.fld Reg.MDC_CMD_ENTRY)) s
def execPrefetchLock (n : Nat) (s : State) : Ans := lift (fun d => d.mdcCmd .prefetchLock n) s
def execLockSet (n : Nat) (s : State) : Ans := lift (fun d => d.mdcCmd .lockSet n) s
def execLockClear (n : Nat) (s : State) : Ans := lift (fun d => d.mdcCmd .lockClear n) s
def execZeroLine (s : State) : Ans := lift (fun d => d.mdcCmd .zeroLine (d.fld Reg.MDC_CMD_ENTRY)) s
def execMdcCommandDone (s : State) : Ans := lift Dev.mdcCommandDone s

/-! ### The cache as a unit (R356, R357) -/

/-- R356: the start invalidates every tag except HELD lines and tries their write-backs again. -/
def Dev.mdcStart (d : Dev) : Dev :=
  let d1 := { d with mdc := { d.mdc with lines := d.mdc.lines.filter (fun e => e.2.held), order := [], drain := 0 } }
  d1.each (d1.mdc.lines.map (·.1)) (fun k d => (d.writeBack k 1).putLine k {})

/-- R356: the drain walks `n` sets more: dirty lines are written back, and lines are dropped, HELD ones after another try excepted. A
command already running completes first. -/
def Dev.mdcDrain (d : Dev) (n : Nat) : Dev :=
  if d.mdc.cmd.isSome then d
  else
    let a := d.mdc.drain
    let d1 := d.each ((d.mdc.lines.filter (fun e => decide (a ≤ e.1 / 16) && decide (e.1 / 16 < a + n))).map (·.1))
      (fun k d => (d.writeBack k 2).putLine k {})
    { d1 with mdc := { d1.mdc with drain := min mdcSets (a + n) } }

/-- R357: the stop is done; a HELD line shows as DRAIN_ERROR. -/
def Dev.mdcStopped (d : Dev) : Dev :=
  let d1 := (if d.mdc.cmd.isSome then d.mdcCommandDone else d).mdcDrain mdcSets
  let d2 := { d1 with mdc := { d1.mdc with drain := 0 } }
  if d2.fld Reg.MDC_ERR_COUNT_LINES = 0 then d2
  else (d2.setFld Reg.MDC_STS_DRAIN_ERROR 1).raise 1042 (d2.fld Reg.MDC_ERR_COUNT_LINES) 0 0

/-- R360: the words of a tag entry. -/
def Dev.tagWords (d : Dev) (k : Nat) : List Nat :=
  let x := d.mdcLine k
  let age := ((d.mdcOrder (k / 16)).zipIdx.find? (fun (y : Nat × Nat) => decide (y.1 = k % 16))).map (·.2)
  let lock := d.lockOfWay (k % 16)
  let bit (b : Bool) (n : Nat) : Nat := if b then 2 ^ n else 0
  [bit x.valid 0 + bit x.dirty 1 + bit x.held 2 + bit x.prefetched 3 + 16 * age.getD 0 + bit lock.isSome 8 + 4096 * lock.getD 15,
   x.line % 2 ^ 32, x.line / 2 ^ 32]

end Sys2Proof.Machine
end

