-- ==== Sys2Proof/Machine/RepCore.lean ====
section
/-! DEFINITION. Replication sessions as plain state: their entries, their suspension and what replay brings back
(R416 to R418, R431, R435). -/
namespace Sys2Proof.Machine

def RepState.code : RepState → Nat
  | .free => 0 | .opening => 1 | .streaming => 2 | .committing => 3 | .suspended => 4 | .done => 5 | .failed => 6

def Dev.sess (d : Dev) (i : Nat) : RepSess := tget {} d.rep.sess i

/-- A session not FREE, DONE or FAILED (R434). -/
def RepSess.active (s : RepSess) : Bool := decide (s.state ∉ [RepState.free, .done, .failed])

/-- Change a session entry; MDE_REP_STS.ACTIVE follows. -/
def Dev.updSess (d : Dev) (i : Nat) (f : RepSess → RepSess) : Dev :=
  let d1 := { d with rep := { d.rep with sess := tupd {} d.rep.sess i f } }
  d1.setFld Reg.MDE_REP_STS_ACTIVE (d1.rep.sess.filter (fun e => e.2.active)).length

/-- The timer of a session: since its last message (R424), or since its suspension (R431). -/
def tmRep (i : Nat) : Nat := tm 15 i

/-- R431: the batch in progress is discarded. -/
def RepSess.drop (s : RepSess) : RepSess :=
  { s with ents := [], exts := [], sendQ := [], batched := false, missed := [], commit := false, snap := 0, wait := none, opened := false, diff := none }

/-- R431: a session that runs is suspended. `cause` is 0 link, 1 timeout, 2 takeover. -/
def Dev.repSuspend (d : Dev) (i cause reason : Nat) : Dev :=
  let s := d.sess i
  if s.state ∈ [RepState.opening, .streaming, .committing] then
    ((d.updSess i (fun s => { s.drop with state := .suspended, reason := reason })).raise 981 i cause 0).arm (tmRep i)
  else d

/-- The session on a context. -/
def Dev.sessOf (d : Dev) (q : Nat) : Option Nat :=
  (d.rep.sess.find? (fun e => e.2.active && decide (e.2.qp = q))).map (·.1)

/-- R431: the queue pair of a session leaves ON. -/
def Dev.repLinkLost (d : Dev) (q : Nat) : Dev :=
  match d.sessOf q with
  | some i => d.repSuspend i 0 0
  | none => d

/-- The lowest session entry that is FREE. -/
def Dev.freeSess (d : Dev) : Option Nat := (List.range 256).find? (fun i => decide ((d.sess i).state = .free ∧ (d.sess i).session = 0))

/-- R326, R431, R433: the four STEWARD records that hold a session; their form is the model's own. -/
def repWhatA : Nat := 2
def repWhatB : Nat := 3
def repWhatC : Nat := 7
def repWhatD : Nat := 8

/-- The STEWARD record that holds the generation number of a snapshot's tree (R416). -/
def genWhat : Nat := 9

/-- R416, R431, R433: a session's state out of a STEWARD record that is replayed. It comes back as it was last journaled: DONE, or SUSPENDED at the last
committed cursor. -/
def Dev.repReplay (d : Dev) (what a b c : Nat) : Dev :=
  let old := (d.rep.sess.find? (fun e => decide (e.2.session = a))).map (·.1)
  if what % 256 = genWhat then { d with rep := { d.rep with gens := tput 0 d.rep.gens a b } }
  else if what % 256 = repWhatA then
    if what / 2 ^ 17 % 2 = 1 then old.elim d (fun i => d.updSess i (fun _ => {}))
    else
      match old.orElse (fun _ => d.freeSess) with
      | none => d
      | some i => d.updSess i (fun s => { s with
          session := a, newGen := b, cursor := c % 2 ^ 40, batch := c / 2 ^ 40
          state := if what / 2 ^ 16 % 2 = 1 then .done else .suspended })
  else
    match old with
    | none => d
    | some i =>
      if what % 256 = repWhatB then
        let d1 := d.updSess i (fun s => { s with
          srcVol := b % 2 ^ 16, dstVol := b / 2 ^ 16 % 2 ^ 16, qp := b / 2 ^ 32 % 2 ^ 14, target := decide (b / 2 ^ 46 % 2 = 1)
          want := b / 2 ^ 47 % 2 ^ 12, port := b / 2 ^ 59 % 2 ^ 4, baseGen := c })
        let s := d1.sess i
        if s.target ∧ c ≠ 0 then { d1 with rep := { d1.rep with held := tput 0 d1.rep.held s.dstVol c } } else d1
      else if what % 256 = repWhatC then d.updSess i (fun s => { s with addr0 := leBytes 8 b ++ leBytes 8 c })
      else if what % 256 = repWhatD then d.updSess i (fun s => { s with addr1 := leBytes 8 b ++ leBytes 8 c })
      else d

/-- R431, R436: the sessions that a replay brought back are SUSPENDED, the peer's by a takeover, the head's own because their queue pairs are not ON. `was`
is the sessions before. -/
def Dev.repReplayed (d : Dev) (peer : Bool) (was : List (Nat × RepSess)) : Dev :=
  d.each ((d.rep.sess.filter (fun e => decide (e.2.state = .suspended) && !(was.any (fun x => decide (x.1 = e.1) && decide (x.2.state = .suspended))))).map (·.1))
    (fun i d => (d.raise 981 i (if peer then 2 else 0) 0).arm (tmRep i))

end Sys2Proof.Machine
end

