-- ==== Sys2Proof/Machine/Units.lean ====
section
/-! DEFINITION. The enable and stop convention (R17 to R22) as one operation that every unit shares, with
what each kind of unit does when it begins to start, reaches ON, begins to stop and reaches OFF. -/
namespace Sys2Proof.Machine

/-! ### A unit's EN, STATE and flags -/

/-- The unit is a slice (R12). -/
def unitIsSlice (u : UnitId) : Bool :=
  match u with
  | .slice _ => true
  | _ => false

/-- Where a unit that has registers keeps EN, STATE, START_FAIL, HW_STOP, STOP_LATE and FAIL_CODE. -/
structure UnitFlds where
  en : Fld
  state : Fld
  sf : Fld
  hs : Fld
  sl : Fld
  code : Fld

/-- R681, R70, R359, R412, R464: the control and status fields of the units with registers. A queue
pair's lie in its context (R100). -/
def unitFlds (u : UnitId) : Option UnitFlds :=
  match u with
  | .slice s => some ⟨Reg.SLI_CTL_EN s, Reg.SLI_STS_STATE s, Reg.SLI_STS_START_FAIL s,
      Reg.SLI_STS_HW_STOP s, Reg.SLI_STS_STOP_LATE s, Reg.SLI_STS_FAIL_CODE s⟩
  | .port p => some ⟨Reg.HPT_CTL_EN p, Reg.HPT_STS_STATE p, Reg.HPT_STS_START_FAIL p,
      Reg.HPT_STS_HW_STOP p, Reg.HPT_STS_STOP_LATE p, Reg.HPT_STS_FAIL_CODE p⟩
  | .mdc => some ⟨Reg.MDC_CTL_EN, Reg.MDC_STS_STATE, Reg.MDC_STS_START_FAIL, Reg.MDC_STS_HW_STOP,
      Reg.MDC_STS_STOP_LATE, Reg.MDC_STS_FAIL_CODE⟩
  | .att a => some ⟨Reg.DRV_ATT_CTL_EN a, Reg.DRV_ATT_STS_STATE a, Reg.DRV_ATT_STS_START_FAIL a,
      Reg.DRV_ATT_STS_HW_STOP a, Reg.DRV_ATT_STS_STOP_LATE a, Reg.DRV_ATT_STS_FAIL_CODE a⟩
  | .lane l => some ⟨Reg.CDX_LANE_CTL_EN l, Reg.CDX_LANE_STS_STATE l, Reg.CDX_LANE_STS_START_FAIL l,
      Reg.CDX_LANE_STS_HW_STOP l, Reg.CDX_LANE_STS_STOP_LATE l, Reg.CDX_LANE_STS_FAIL_CODE l⟩
  | .qp _ => none

/-- R17: the encoding of STATE. -/
def UState.code : UState → Nat
  | .off => 0 | .starting => 1 | .on => 2 | .stopping => 3 | .pendOn => 4

/-- R17: the state that a STATE code names; codes 5 to 7 are not used. -/
def UState.ofCode : Nat → UState
  | 1 => .starting | 2 => .on | 3 => .stopping | 4 => .pendOn | _ => .off

/-- A unit's EN, STATE and flags. -/
def Dev.unit (d : Dev) (u : UnitId) : UnitRec :=
  match u, unitFlds u with
  | .qp q, _ => (d.ctx q).unit
  | _, some f => { en := d.flag f.en, state := UState.ofCode (d.fld f.state), startFail := d.flag f.sf,
                   hwStop := d.flag f.hs, stopLate := d.flag f.sl, failCode := d.fld f.code }
  | _, none => {}

/-- Write a unit's EN, STATE and flags. -/
def Dev.setUnit (d : Dev) (u : UnitId) (r : UnitRec) : Dev :=
  match u, unitFlds u with
  | .qp q, _ => d.updCtx q (fun c => { c with unit := r })
  | _, some f => (((((d.setFlag f.en r.en).setFld f.state r.state.code).setFlag f.sf r.startFail).setFlag
      f.hs r.hwStop).setFlag f.sl r.stopLate).setFld f.code r.failCode
  | _, none => d

/-- STATE of a unit. -/
def Dev.ustate (d : Dev) (u : UnitId) : UState := (d.unit u).state

/-- A unit accepts and performs work (R17). -/
def Dev.isOn (d : Dev) (u : UnitId) : Bool := decide (d.ustate u = .on)

/-- A hardware stop arises for a unit (R18): it is applied at the edge that ends this beat. A unit in OFF
ignores it (R19); a graceful PARENT_STOP does not replace a stop already arisen; a slice never receives one (R681). -/
def Dev.stopUnit (d : Dev) (u : UnitId) (code : Nat) : Dev :=
  if d.ustate u = .off ∨ unitIsSlice u then d
  else if tget 0 d.hwPend (unitNo u) ≠ 0 ∧ tget 0 d.hwPend (unitNo u) ≠ 9 + 1 then d
  else { d with hwPend := tput 0 d.hwPend (unitNo u) (code + 1) }

/-- The start or stop sequence of a unit completes or fails (R18): it counts at the edge that ends this beat. A slice's start never
fails (R681). -/
def Dev.seqNote (d : Dev) (u : UnitId) (ev : SeqEvent) : Dev :=
  match u, ev with
  | .slice _, .fail _ => d
  | _, _ => { d with seqPend := tput .none d.seqPend (unitNo u) ev }

/-! ### FAIL_CODE values -/

/-- R78, R450, R685: queue-pair FAIL_CODE values. -/
def qpParentNotOn : Nat := 0x01
def qpNoAttr : Nat := 0x02
def qpRetryExhausted : Nat := 0x03
def qpRnrExhausted : Nat := 0x04
def qpRemoteAccess : Nat := 0x05
def qpRemoteInvalid : Nat := 0x06
def qpRemoteOp : Nat := 0x07
def qpLocalLength : Nat := 0x08
def qpParentStop : Nat := 0x09
def qpLinkDown : Nat := 0x0A
def qpPeerRestart : Nat := 0x0C

/-- R69: port FAIL_CODE values. -/
def portLinkTimeoutCode : Nat := 0x03
def portLinkLostCode : Nat := 0x04
def portBadPort : Nat := 0x05

/-- R394, R396: attach-point FAIL_CODE values. -/
def attBadPort : Nat := 0x02
def attLinkDown : Nat := 0x06
def attTimeouts : Nat := 0x08
def attFenced : Nat := 0x09

/-- The Crediox link is UP (R449, R463). -/
def Dev.linkUp (d : Dev) : Bool := decide (d.fld Reg.CDX_STS_LINK = 3)

/-- The link takes packets: a resize keeps every context ON, and what is in flight is sent again after it (R450). -/
def Dev.linkSends (d : Dev) : Bool := decide (3 ≤ d.fld Reg.CDX_STS_LINK)

/-- R58: port p is valid in the mode of its quad. -/
def portValid (mode p : Nat) : Bool :=
  match mode with
  | 1 => true
  | 2 => decide (p % 2 = 0)
  | 3 => decide (p % 4 = 0)
  | 4 => decide (p = 0 ∨ p = 8)
  | _ => false

/-- R388: a vault port is held in MODE 2; any other port has the mode of its register. -/
def Dev.drvMode (d : Dev) (p : Nat) : Nat :=
  if d.flag (Reg.DRV_PORT_STS_VAULT p) then 2 else d.fld (Reg.DRV_PORT_CTL_MODE p)

/-- R386: attach point a is valid in the mode of its port. -/
def attValid (mode a : Nat) : Bool :=
  match mode with
  | 1 => decide (a % 4 = 0)
  | 2 => decide (a % 4 = 0 ∨ a % 4 = 2)
  | 3 => true
  | _ => false

/-- Why a unit's start fails at the edge at which it would begin (R59, R76, R387, R450). -/
def Dev.startRefused (d : Dev) (u : UnitId) : Option Nat :=
  match u with
  | .port p => if portValid (d.fld (Reg.HPT_QUAD_MODE (p / 4))) p then none else some portBadPort
  | .att a => if attValid (d.drvMode (a / 4)) a then none else some attBadPort
  | .qp q =>
    if !d.isOn (.slice (home q)) then some qpParentNotOn
    else if !(d.ctx q).attrValid then some qpNoAttr
    else if (d.ctx q).cls = 1 ∧ d.linkUp = false then some qpLinkDown
    else none
  | _ => none

/-! ### Events of units -/

/-- The event of a failed start or a hardware stop (R101, R361, R415, R465). No chapter gives a slice one. -/
def Dev.raiseUnit (d : Dev) (u : UnitId) (start : Bool) (code : Nat) : Dev :=
  match u with
  | .port p => d.raise (64 + 4 * p) 0 0 0
  | .qp q => d.raise (if start then 129 else 130) q 0 0
  | .mdc => d.raise 1040 code 0 0
  | .att a => d.raise (1088 + 4 * a) code a 0
  | .lane l => d.raise (1600 + l) l code 0
  | .slice _ => d

/-- The stop-late event (R21). Slices and Crediox lanes have no source for it. -/
def Dev.raiseLate (d : Dev) (u : UnitId) (p0 : Nat) : Dev :=
  match u with
  | .port p => d.raise (65 + 4 * p) 0 0 0
  | .qp q => d.raise 131 q 0 0
  | .mdc => d.raise 1041 p0 0 0
  | .att a => d.raise (1089 + 4 * a) p0 0 0
  | _ => d

/-- R21, R68, R77, R356, R396, R438, R681: a unit's maximum stop time in beats. -/
def Dev.maxStop (d : Dev) (u : UnitId) : Nat :=
  match u with
  | .slice _ => 2 ^ 20
  | .port _ => 16
  | .qp _ => 2 ^ 14
  | .mdc => 16384
  | .att _ => d.fld Reg.DRV_CFG_CMD_TIMEOUT + 2 ^ 14
  | .lane _ => 8

/-! ### What begins and ends with a unit -/

/-- R76, R77, R685: a queue pair's start begins. The context takes its PSNs and attributes; CC, credits and
rate state are cleared; a class-1 context takes the fixed values of R683 and sends QP_PAIR START. -/
def Dev.qpBegin (d : Dev) (q : Nat) : Dev :=
  let c := d.ctx q
  let w := d.work q
  let p1 := c.cls = 1
  let sq : Psn := if p1 then 0 else w.startSqPsn
  let rq : Psn := if p1 then 0 else w.startRqPsn
  let path (p : PathRec) (used : Bool) : PathRec :=
    { p with txNext := sq, txUna := sq, rxEpsn := rq, up := used, nakSent := false,
             retryLeft := c.retryCnt }
  let c1 : QpCtx := { c with
    xstate := .init, sqPsn := sq, sqUna := sq, rqEpsn := rq, cc := 0, msn := 0,
    creditTx := 0, rate := 64, rdOut := 0, msgTxNext := 0, msgTxAck := 0, msgRxBase := 0, msgRxInfl := 0 }
  let c2 : QpCtx := if p1 then { c1 with
      pmtu := 5, ackTo := 6, retryCnt := 7, rnrRetry := 7, rnrTimer := 1,
      rdMax := 16, rqSlots := 1024, creditTx := 1024, destQpn := BitVec.ofNat 24 q } else c1
  -- R685: a START that is held completes this start
  let c3 : QpCtx := { c2 with
      rqFree := c2.rqSlots, retryLeft := c2.retryCnt, rnrLeft := c2.rnrRetry,
      path0 := path c2.path0 true, path1 := path c2.path1 (c2.mp && decide (1 ≤ c2.npath)),
      path2 := path c2.path2 (c2.mp && decide (2 ≤ c2.npath)),
      path3 := path c2.path3 (c2.mp && decide (3 ≤ c2.npath)) }
  let d1 := (d.updCtx q (fun _ => c3)).updWork q (fun w => { w with
      sendQ := [], sent := [], flushed := [], nextTx := 0, mpIds := [], rnrWait := [],
      rx := [], rxKey := none, rxOff := 0, rxPages := [], rdBuf := [], nakSent := false, peerReady := w.partnerStart, partnerStart := false })
  let d1 := { d1 with
    cal := { d1.cal with putsPosted := tput 0 d1.cal.putsPosted q 0 }
    xpt := { d1.xpt with bitmaps := d1.xpt.bitmaps.filter (fun b => !b.2.valid || decide (b.2.qp ≠ q)) } }
  if p1 then d1.emit (.link (.qpPair q true)) else d1

/-- R76: a queue pair reaches ON, RTS. -/
def Dev.qpOn (d : Dev) (q : Nat) : Dev := d.updCtx q (fun c => { c with xstate := .rts })

/-- R121: what a tag's command holds and has not placed is dropped: its pages, and its groups that are not placed. -/
def Dev.dropUnplaced (d : Dev) (t : Nat) : Dev :=
  let mine := (d.cal.groups.filter (fun e => decide (e.2.tag = t) && !e.2.placed)).map (·.1)
  { d with
      cal := { d.cal with
      runs := d.cal.runs.filter (fun r => decide (r.use ≠ PageUse.command t))
      groups := d.cal.groups.filter (fun e => !(mine.contains e.1))
      placeQ := d.cal.placeQ.map (fun e => (e.1, e.2.filter (fun g => !(mine.contains g)))) } }

/-- R121: a tag's write or Compare whose data has not fully arrived by RDMA READ is abandoned: its pages are
released, its groups never placed, and its capsule is as good as returned FLUSHED. -/
def Dev.abandonTag (d : Dev) (t : Nat) : Dev :=
  (d.dropUnplaced t).updTag t (fun x => { x with state := .completing, leaveAt := true, posted := true })

/-- The tags that wait for data by RDMA READ on a queue pair. -/
def Dev.fetchingTags (d : Dev) (q : Nat) : List Nat :=
  (d.nvt.tags.filter (fun e => decide (e.2.state = .running) && !e.2.fwdIn && decide (e.2.fetched < e.2.left) &&
    (match e.2.cmd with
     | some c => decide (c.qp = q) && decide (c.opcode ∈ [0x01, 0x05])
     | none => false))).map (·.1)

/-- The pages hold data that a queue pair has received for no command that was admitted. -/
def PageUse.arriving (u : PageUse) (q : Nat) : Bool :=
  match u with
  | .received p => decide (p = q)
  | .forwarded p _ => decide (p = q)
  | _ => false

/-- R76, R121: a queue pair takes the error path. Commands still waiting for admission on it are dropped. -/
def Dev.qpError (d : Dev) (q : Nat) : Dev :=
  let d1 := d.updCtx q (fun c => { c with xstate := .error })
  let d2 := d1.updSlice (home q) (fun s => { s with waiting := s.waiting.filter (fun c => decide (c.qp ≠ q) || c.fwdIn) })
  let d3 := { d2 with cal := { d2.cal with runs := d2.cal.runs.filter (fun r => !r.use.arriving q) } }
  d3.each (d3.fetchingTags q) (fun t d => d.abandonTag t)

/-- R76, R431, R685: a queue pair begins to stop, gracefully or (for a stop other than PARENT_STOP) through the
error path. A class-1 context sends QP_PAIR STOP, and its leaving ON breaks the mirror (R171). -/
def Dev.qpStop (d : Dev) (q : Nat) (wasOn : Bool) (code : Option Nat) : Dev :=
  let fatal := match code with
    | some k => decide (k ≠ qpParentStop)
    | none => false
  let d1 := d.cond (wasOn && fatal) (fun d => d.qpError q)
  let d2 := d1.cond ((d1.ctx q).cls = 1) (fun d => d.emit (.link (.qpPair q false)))
  let d3 := d2.cond ((d2.ctx q).cls = 2 && wasOn) (fun d => d.repLinkLost q)
  d3.cond ((d3.ctx q).cls = 1 && wasOn) (fun d => d.setFld Reg.GLB_CAL_STS_MIRROR_BROKEN 1)

/-- R73, R76, R92, R682: a queue pair's stop completes, and its bitmaps return to the pool. A context whose connection ended loses ATTR_VALID, and its
class (R75). -/
def Dev.qpOff (d : Dev) (q : Nat) : Dev :=
  let closing := (d.bind q).closing
  let d1 := d.updCtx q (fun c => { c with
    incarn := (c.incarn + 1) % 1024,
    cls := if closing && decide (c.cls = 2) then 0 else c.cls
    xstate := if c.xstate = .error then .error else .reset,
    attrValid := if closing && decide (c.cls ≠ 1) then false else c.attrValid })
  let d2 := { d1 with xpt := { d1.xpt with bitmaps := d1.xpt.bitmaps.filter (fun b => !b.2.valid || decide (b.2.qp ≠ q)) } }
  d2.cond closing (fun d => d.updBind q (fun _ => {}))

/-- R681: a slice's start clears its engines' FAULT bits, resets its scheduler and sets both admission
budgets to SLI_ADM_CAP; its tag pool is the free tags of its slice. -/
def Dev.sliceBegin (d : Dev) (s : Nat) : Dev :=
  let d1 := d.each (List.range 16) (fun u d => d.setFld (Reg.SLI_FPU_STS_FAULT s u) 0)
  let d2 := d1.each (List.range 4) (fun u d =>
    (d.setFld (Reg.SLI_SNC_STS_FAULT s u) 0).setFld (Reg.SLI_SND_STS_FAULT s u) 0)
  let d3 := d2.each (List.range 2) (fun u d => (d.setFld (Reg.SLI_GCM_STS_FAULT s u) 0).setFld (Reg.SLI_GCM_STS_SERVING_BOTH s u) 0)
  let d4 := d3.setFld (Reg.SLI_ECU_STS_FAULT s) 0
  let d5 := d4.updSlice s (fun x => { x with jobs := x.jobs.filter (fun j => (decide (j.eng = .wpe) || decide (j.eng = .ecu)) && !j.begun) })
  (d5.setFld (Reg.SLI_ADM_IN_IN s) (d5.fld (Reg.SLI_ADM_CAP_CAP s))).setFld (Reg.SLI_ADM_OUT_OUT s)
    (d5.fld (Reg.SLI_ADM_CAP_CAP s))

/-- R22: a slice leaves ON; each of its queue pairs in STARTING, ON or PEND_ON receives a hardware stop. -/
def Dev.sliceStop (d : Dev) (s : Nat) : Dev :=
  let qs := (d.xpt.ctxs.map (·.1)).filter (fun q => decide (home q = s) &&
    decide ((d.ctx q).unit.state ∈ [UState.starting, .on, .pendOn]))
  d.each qs (fun q d => d.stopUnit (.qp q) qpParentStop)

/-- R439, R463: LANES_OK follows the lanes that are ON at this head. -/
def Dev.lanesOk (d : Dev) : Nat :=
  ((List.range 16).filter (fun l => d.isOn (.lane l))).foldl (fun m l => m + 2 ^ l) 0

def Dev.refreshLanes (d : Dev) : Dev := d.setFld Reg.CDX_STS_LANES_OK d.lanesOk

/-! ### The peer link's states (R439, R447, R449) -/

/-- Every lane of a group is in a mask. -/
def groupIn (mask first w : Nat) : Bool := (List.range w).all (fun i => decide (mask / 2 ^ (first + i) % 2 = 1))

/-- R439: the widest lane group within a mask, the lowest first lane among equals. -/
def lanesChoice (mask : Nat) : Option (Nat × Nat) :=
  [(16, 0), (8, 0), (8, 8), (4, 0), (4, 4), (4, 8), (4, 12)].find? (fun g => groupIn mask g.2 g.1)

/-- R439 applied to both heads' masks. -/
def Dev.linkChoice (d : Dev) : Option (Nat × Nat) := lanesChoice (Nat.land d.lanesOk (d.fld Reg.CDX_PEER_LANES_OK))

/-- The link's timers: acknowledgement, NAK, loss, negotiation, resize; and each lane's window of corrected symbols. -/
def tmFlitAck : Nat := tm 16 0
def tmFlitNak : Nat := tm 16 1
def tmFlitLoss : Nat := tm 16 2
def tmNegotiate : Nat := tm 16 3
def tmResize : Nat := tm 16 4
def tmLaneErr (l : Nat) : Nat := tm 16 (16 + l)

/-- R463, R464: the lane group in use. -/
def Dev.useGroup (d : Dev) (w first : Nat) : Dev :=
  ((d.setFld Reg.CDX_STS_WIDTH w).setFld Reg.CDX_STS_FIRST first).each (List.range 16)
    (fun l d => d.setFlag (Reg.CDX_LANE_STS_USED l) (decide (first ≤ l ∧ l < first + w)))

/-- Contexts of class 1 that are not OFF. -/
def Dev.mirrorQps (d : Dev) : List Nat :=
  (d.xpt.ctxs.map (·.1)).filter (fun q => decide ((d.ctx q).cls = 1) && decide (d.ustate (.qp q) ≠ .off))

/-- LINK_DOWN, R449, R450, R458, R685: the link goes DOWN. `cause` is that of R465; a failed negotiation has none. What was queued or in
flight is lost, except REFCOUNT records, which stay in the remote queue; class-1 contexts take the error path; the heads
count alone. -/
def Dev.linkDown (d : Dev) (cause : Option Nat) : Dev :=
  if d.fld Reg.CDX_STS_LINK = 0 then d
  else
    let up := d.linkSends
    let d1 := d.each d.mirrorQps (fun q d => d.stopUnit (.qp q) qpLinkDown)
    let d2 := d1.each (List.range 64) (fun q d => d.updWork q (fun w => { w with partnerStart := false }))
    let d3 := (((d2.setFld Reg.CDX_STS_LINK 0).useGroup 0 0).bumpSat Reg.CDX_DOWNS_COUNT 1).setFld Reg.CDX_RETRY_STS_UNACKED 0
    let d4 := { d3 with
      cdx := { d3.cdx with
      txq := [], txPkts := [], txSlots := [], unacked := [], rxSlots := [], nakWait := false, inits := 0 }
      sync := { d3.sync with awaiting := false, measured := false, slew := 0 } }
    let d5 := (((d4.setFld Reg.GLB_SYNC_STS_ROLE 0).setFld Reg.GLB_SYNC_STS_LOCKED 0).setFld Reg.GLB_SYNC_OFFSET_OFFSET 0).each
      [tmFlitAck, tmFlitNak, tmFlitLoss, tmNegotiate, tmResize, tmSync, tmSyncReq] (fun k d => d.disarm k)
    let d6 := match cause with
      | some c => d5.raise 1617 c 0 0
      | none => d5
    d6.cond up (fun d => { d.setFld Reg.FOV_LINK_DOWN_BEAT d.beat with edge := d.edge ++ [.linkDown] })

/-- R449: the link begins a resize, or with no width left goes DOWN. -/
def Dev.resize (d : Dev) : Dev :=
  match d.linkChoice with
  | none => d.linkDown (some 3)
  | some (w, f) =>
    let d1 := d.emit (.ctrl 3 w f 0)
    if d1.linkUp then (d1.setFld Reg.CDX_STS_LINK 4).arm tmResize else d1

/-- R449: a lane of the group has left ON. -/
def Dev.laneLeft (d : Dev) (used : Bool) : Dev :=
  if !used then d
  else if d.lanesOk = 0 ∨ d.fld Reg.CDX_STS_LINK = 2 then d.cond (decide (2 ≤ d.fld Reg.CDX_STS_LINK)) (fun d => d.linkDown (some 0))
  else if d.linkSends then d.resize
  else d

/-! ### Attach points (R391 to R397, R407, R412) -/

def Dev.att (d : Dev) (a : Nat) : AttRec := tget {} d.drv.atts a
def Dev.updAtt (d : Dev) (a : Nat) (f : AttRec → AttRec) : Dev :=
  { d with drv := { d.drv with atts := tupd {} d.drv.atts a f } }

/-- R388: attach point a is a vault's. -/
def Dev.isVault (d : Dev) (a : Nat) : Bool := d.flag (Reg.DRV_PORT_STS_VAULT (a / 4))

/-- R392: an attach point leaves OFF: its port's PERST_N may be released. -/
def Dev.attBegin (d : Dev) (a : Nat) : Dev :=
  ({ d with drv := { d.drv with perstWant := if d.drv.perstWant.contains (a / 4) then d.drv.perstWant else d.drv.perstWant ++ [a / 4] } }).setFld
    (Reg.DRV_ATT_STS_RESV_OK a) 0 |>.updAtt a (fun x => { x with vlog := max 32 (min 256 (d.fld Reg.MEM_VAULT_CFG_VLOG_GIB)) })

/-- R386: lanes of an attach point. -/
def attLanes (mode : Nat) : Nat := if mode = 1 then 4 else if mode = 2 then 2 else 1

/-- R394 to R397, R402: an attach point's start completes. What its drive reported is a free value within the limits of R395: the
link's rate and width, FLIT mode, the LBA size, the largest transfer, the queues, the strips and, for a zoned drive, its zones. -/
def Dev.attOn (d : Dev) (a : Nat) : Dev :=
  let x (i : Nat) : Nat := Config.freeNat (d.free + i)
  let lanes := attLanes (d.drvMode (a / 4))
  let zoned := decide (d.fld (Reg.DRV_ATT_CTL_PLACEMENT a) = 1)
  let ioq := 1 + x 3 % 8
  let r : AttRec := {
    lba := if x 4 % 2 = 0 then 512 else 4096, mdts := 4096 * (1 + x 5), ioq := ioq, entries := 2 + x 6 % 255, handles := 2 + x 7
    zs := if zoned then 1 + x 8 else 0, zcap := if zoned then 1 + x 9 % (1 + x 8) else 0
    vlog := (d.att a).vlog }
  let total := x 10 % 2 ^ 32
  let mine := (d.drv.used.filter (fun e => decide (e.1 / 2 ^ 32 = a))).length
  let d1 := (({ d with free := d.free + 11 }.updAtt a (fun _ => r)).disarm (tmRetire a)).setFld (Reg.DRV_ATT_STS_SPEED a) (1 + x 0 % 6)
  let d2 := ((d1.setFld (Reg.DRV_ATT_STS_WIDTH a) (lanes / 2 ^ (x 1 % (if lanes = 4 then 3 else if lanes = 2 then 2 else 1)))).setFld
    (Reg.DRV_ATT_STS_FLIT a) (x 2 % 2)).setFld (Reg.DRV_ATT_INFL_IOQ a) ioq
  if d2.isVault a then
    -- R173: the catch-up pass tries again what failed
    { d2 with cal := { d2.cal with dirs := d2.cal.dirs.map (fun e => if e.2.vaultRetry then (e.1, { e.2 with vaultRetry := false }) else e) } }
  else ((d2.setFld (Reg.DRV_ATT_STS_RESV_OK a) 1).setFld (Reg.DRV_ATT_STRIPS_TOTAL a) total).setFld (Reg.DRV_ATT_FREE_FREE a) (total - mine)

/-- R403, R407: an attach point begins to stop: from ON its retire timer starts; a fenced one has lost its registration. -/
def Dev.attStop (d : Dev) (a : Nat) (wasOn : Bool) (code : Option Nat) : Dev :=
  (d.cond (wasOn && !d.isVault a) (fun d => d.arm (tmRetire a))).cond (decide (code = some attFenced))
    (fun d => d.setFld (Reg.DRV_ATT_STS_RESV_OK a) 0)

/-- R399: an attach point is OFF: its command slots are free, and its link is down. -/
def Dev.attOff (d : Dev) (a : Nat) : Dev :=
  let d1 := { d with drv := { d.drv with slots := d.drv.slots.filter (fun e => decide (e.1 / 256 ≠ a)) } }
  ((((d1.setFld (Reg.DRV_ATT_INFL_INFLIGHT a) 0).setFld (Reg.DRV_ATT_INFL_IOQ a) 0).setFld (Reg.DRV_ATT_STS_SPEED a) 0).setFld
    (Reg.DRV_ATT_STS_WIDTH a) 0).setFld (Reg.DRV_ATT_STS_FLIT a) 0

/-- What a unit does when its start sequence begins. -/
def Dev.unitBegin (d : Dev) (u : UnitId) : Dev :=
  let d := d.arm (tmStart u)
  match u with
  | .qp q => d.qpBegin q
  | .slice s => d.sliceBegin s
  | .att a => d.attBegin a
  | .mdc => d.mdcStart
  | _ => d

/-- What a unit does when it reaches ON. A port's start is done with alignment and FEC lock (R68); its SPEED
follows the mode of its quad (R58, R70). -/
def Dev.unitOn (d : Dev) (u : UnitId) : Dev :=
  let d := d.disarm (tmStart u)
  match u with
  | .qp q => d.qpOn q
  | .port p => (d.setFld (Reg.HPT_STS_LINK p) 1).setFld (Reg.HPT_STS_SPEED p)
      (d.fld (Reg.HPT_QUAD_MODE (p / 4)))
  | .lane l => (d.setFld (Reg.CDX_LANE_STS_ALIGNED l) 1).refreshLanes
  | .att a => d.attOn a
  | _ => d

/-- What a unit does when it begins to stop. A port's stop discards the frames queued for transmission and
puts its lanes at electrical idle (R68). -/
def Dev.unitStop (d : Dev) (u : UnitId) (wasOn : Bool) (code : Option Nat) : Dev :=
  let d := ((d.disarm (tmStart u)).disarm (tmLate u)).arm (tmStop u)
  match u with
  | .qp q => d.qpStop q wasOn code
  | .slice s => d.cond wasOn (fun d => d.sliceStop s)
  | .port p => ((d.updPort p (fun r => { r with txQ := [] })).setFld (Reg.HPT_STS_LINK p) 0).setFld
      (Reg.HPT_STS_SPEED p) 0
  | .lane l => (((d.setFld (Reg.CDX_LANE_STS_ALIGNED l) 0).setFld (Reg.CDX_LANE_STS_USED l) 0).refreshLanes).laneLeft
      (d.flag (Reg.CDX_LANE_STS_USED l))
  | .att a => d.attStop a wasOn code
  | _ => d

/-- What a unit does when its stop completes. The cache's drain reports DRAIN_ERROR (R357). -/
def Dev.unitOff (d : Dev) (u : UnitId) : Dev :=
  let d := (d.disarm (tmStop u)).disarm (tmLate u)
  match u with
  | .qp q => d.qpOff q
  | .att a => d.attOff a
  | .mdc => d.mdcStopped
  | _ => d

/-! ### The edge (R18, R19) -/

/-- A start that fails: START_FAIL and FAIL_CODE are set, EN is cleared, the unit is OFF, its event raised. -/
def Dev.unitFail (d : Dev) (u : UnitId) (code : Nat) : Dev :=
  let r := d.unit u
  ((d.disarm (tmStart u)).setUnit u { r with
    en := false, state := .off, startFail := true,
    failCode := code % 256 }).raiseUnit u true code

/-- R685: a class-1 context's start is not done before the peer's QP_PAIR START. -/
def Dev.startHeld (d : Dev) (u : UnitId) : Bool :=
  match u with
  | .qp q => decide ((d.ctx q).cls = 1) && !(d.work q).peerReady
  | _ => false

/-- R18, step 1: the completion or failure of the current sequence. -/
def Dev.edgeSeq (d : Dev) (u : UnitId) (ev : SeqEvent) : Dev :=
  let r := d.unit u
  match ev, r.state with
  | .fail c, .starting => if unitIsSlice u then d else d.unitFail u c
  | .done, .starting => if d.startHeld u then d else (d.setUnit u { r with state := .on }).unitOn u
  | .done, .stopping => (d.setUnit u { r with state := .off }).unitOff u
  | .done, .pendOn => (d.setUnit u { r with state := .off }).unitOff u
  | _, _ => d

/-- R18, step 2: a hardware stop, applied to the state that step 1 left. -/
def Dev.edgeHw (d : Dev) (u : UnitId) (code : Nat) : Dev :=
  let r := d.unit u
  let r' : UnitRec := { r with en := false, state := .stopping, hwStop := true, failCode := code % 256 }
  match r.state with
  | .on => ((d.setUnit u r').unitStop u true (some code)).raiseUnit u false code
  | .starting => ((d.setUnit u r').unitStop u false (some code)).raiseUnit u false code
  | .stopping =>
    let d1 := d.setUnit u r'
    (match u with
     | .qp q => d1.cond (decide (code ≠ qpParentStop)) (fun d => d.qpError q)
     | _ => d1).raiseUnit u false code
  | .pendOn =>
    let d1 := d.setUnit u r'
    match u with
    | .qp q => d1.cond (decide (code ≠ qpParentStop)) (fun d => d.qpError q)
    | _ => d1
  | .off => d

/-- R18, step 3: EN as last written before the edge. -/
def Dev.edgeEn (d : Dev) (u : UnitId) : Dev :=
  let r := d.unit u
  match r.state, r.en with
  | .off, true =>
    match d.startRefused u with
    | some c => d.unitFail u c
    | none => (d.setUnit u { r with state := .starting }).unitBegin u
  | .starting, false => (d.setUnit u { r with state := .stopping }).unitStop u false none
  | .on, false => (d.setUnit u { r with state := .stopping }).unitStop u true none
  | .stopping, true => d.setUnit u { r with state := .pendOn }
  | .pendOn, false => d.setUnit u { r with state := .stopping }
  | _, _ => d

/-- R76: the first beat of a queue pair's start has ended: it accepts requests. -/
def Dev.qpAccepts (d : Dev) (u : UnitId) : Dev :=
  match u with
  | .qp q => if d.ustate u = .starting ∧ (d.ctx q).xstate = .init then d.updCtx q (fun c => { c with xstate := .rtr }) else d
  | _ => d

/-- R18, R19: what a unit does at a beat edge. `ev` is what happened to its sequence in the beat just ended and
`hw` a hardware stop of that beat, each given here or noted when it arose. The clearing of EN by a hardware
stop overrides every write of EN made in that beat, unless the unit was OFF. A slice has no hardware stop (R681). -/
def Dev.unitEdge (d : Dev) (u : UnitId) (ev : SeqEvent) (hw : Option Nat) : Dev :=
  let pend := tget 0 d.hwPend (unitNo u)
  let hw' := if unitIsSlice u then none else match hw with
    | some c => some c
    | none => if pend = 0 then none else some (pend - 1)
  let ev' := if ev = .none then tget .none d.seqPend (unitNo u) else ev
  let r := d.unit u
  let d0 := { d with hwPend := tput 0 d.hwPend (unitNo u) 0, seqPend := tput .none d.seqPend (unitNo u) .none }.qpAccepts u
  let d1 := if hw'.isSome && decide (r.state ≠ .off) then d0.setUnit u { r with en := false } else d0
  let d2 := d1.edgeSeq u ev'
  let stopped := decide (ev' = .done) && decide (r.state ∈ [UState.stopping, .pendOn])
  let d3 := match hw' with
    | some c => if stopped then d2 else d2.edgeHw u c
    | none => d2
  d3.edgeEn u

/-! ### Meanings -/

/-- UNIT_EN_WRITE, R18: a write to a unit's control register sets EN and the other RW fields there. The last
value written before the edge counts. -/
def Dev.writeCtl (d : Dev) (u : UnitId) (val : Nat) : Dev :=
  let bit (i n : Nat) : Nat := val / 2 ^ i % 2 ^ n
  match u with
  | .slice s => d.setFld (Reg.SLI_CTL_EN s) (bit 0 1)
  | .port p => (((d.setFld (Reg.HPT_CTL_EN p) (bit 0 1)).setFld (Reg.HPT_CTL_AN_EN p) (bit 8 1)).setFld
      (Reg.HPT_CTL_LT_EN p) (bit 9 1)).setFld (Reg.HPT_CTL_LOOP p) (bit 10 2)
  | .mdc => (d.setFld Reg.MDC_CTL_EN (bit 0 1)).setFld Reg.MDC_CTL_PF_EN (bit 8 1)
  | .att a =>
    let d1 := (d.setFld (Reg.DRV_ATT_CTL_EN a) (bit 0 1)).setFld (Reg.DRV_ATT_CTL_OPEN_ZONES a) (bit 16 4)
    -- R389: DATA_EN and META_EN of a vault attach point read 0
    if d.flag (Reg.DRV_PORT_STS_VAULT (a / 4)) then d1
    else ((d1.setFld (Reg.DRV_ATT_CTL_DATA_EN a) (bit 8 1)).setFld (Reg.DRV_ATT_CTL_META_EN a) (bit 9 1)).setFld
      (Reg.DRV_ATT_CTL_PLACEMENT a) (bit 10 2)
  | .lane l => d.setFld (Reg.CDX_LANE_CTL_EN l) (bit 0 1)
  | .qp q => d.updCtx q (fun c => { c with unit := { c.unit with en := decide (bit 0 1 = 1) } })

def execUnitEnWrite (u : UnitId) (val : Word) (s : State) : Ans := lift (fun d => d.writeCtl u val.toNat) s

/-- UNIT_STATE_EDGE, R18, R19. -/
def execUnitStateEdge (u : UnitId) (ev : SeqEvent) (hw : Option Nat) (s : State) : Ans :=
  lift (fun d => d.unitEdge u ev hw) s

/-- START_DONE, R18, R19: the start sequence of a unit in STARTING completes in this beat; the unit goes ON at the edge that ends it. -/
def execStartDone (u : UnitId) (s : State) : Ans :=
  lift (fun d => if d.ustate u = .starting then d.seqNote u .done else d) s

/-- R61: the port is a chip-to-module port. -/
def Dev.portModule (d : Dev) (p : Nat) : Bool := decide (d.fld (Reg.HPT_CFG_PMD p) = 2)

/-- The start sequence of a unit can fail in this way. A port's auto-negotiation and training run only where its control register turns them on, and neither on a
chip-to-module port (R62, R69). An attach point's link and a lane's training fail after their time only (R394, R438). -/
def Dev.canFail (d : Dev) (u : UnitId) (code : Nat) : Bool :=
  match u with
  | .port p => (code != 0x01 || (d.flag (Reg.HPT_CTL_AN_EN p) && !d.portModule p)) && (code != 0x02 || (d.flag (Reg.HPT_CTL_LT_EN p) && !d.portModule p))
  | .att a => decide (1 ≤ code) && decide (code ≤ 5) && (code != 0x01 || d.expired (tmStart u) (d.fld (Reg.DRV_PORT_LINK_LINK_TIMEOUT (a / 4))))
  | .lane _ => code == 0x01 || code == 0x04 || (code == 0x02 && d.expired (tmStart u) (d.fld Reg.CDX_LANE_CFG_LANE_TIMEOUT))
  | _ => true

/-- START_FAIL, R18, R19: the start sequence of a unit in STARTING fails in this beat with a FAIL_CODE; the unit goes OFF at the edge. -/
def execStartFail (u : UnitId) (code : Nat) (s : State) : Ans :=
  lift (fun d => if d.ustate u = .starting ∧ d.canFail u code then d.seqNote u (.fail code) else d) s

/-- STOP_DONE, R18, R19: the stop sequence of a unit in STOPPING or PEND_ON completes in this beat. -/
def execStopDone (u : UnitId) (s : State) : Ans :=
  lift (fun d => if d.ustate u = .stopping ∨ d.ustate u = .pendOn then d.seqNote u .done else d) s

/-- HW_STOP, R18, R19: the unit's own block stops it with a FAIL_CODE, from the edge that ends this beat. -/
def execHwStop (u : UnitId) (code : Nat) (s : State) : Ans :=
  lift (fun d => d.stopUnit u code) s

/-- STOP_LATE, R21: a stop has run past the unit's maximum stop time, once for each stop. STATE stays as it is. -/
def Dev.stopLate (d : Dev) (u : UnitId) : Dev :=
  let r := d.unit u
  let p0 := match u with
    | .att a => d.fld (Reg.DRV_ATT_INFL_INFLIGHT a)
    | .mdc => (d.mdc.lines.filter (fun e => e.2.dirty)).length
    | _ => 0
  if (r.state = .stopping ∨ r.state = .pendOn) ∧ d.expired (tmStop u) (d.maxStop u) ∧ d.armed (tmLate u) = false then
    ((d.setUnit u { r with stopLate := true }).arm (tmLate u)).raiseLate u p0
  else d

def execStopLate (u : UnitId) (s : State) : Ans := lift (fun d => d.stopLate u) s

end Sys2Proof.Machine
end

