-- ==== Sys2Proof/Machine/Time.lean ====
section
/-! DEFINITION. Time and scheduling: the epoch edge, the beat-quantum scheduler of a slice, and the
alignment of the two heads' beat numbers (R29 to R57, R461). -/
namespace Sys2Proof.Machine

/-! ### The epoch edge -/

/-- EPOCH_EDGE, R50: the epoch-edge event is raised. Grains whose cipher refused with NONCE_EXHAUSTED, and
grains whose vault writes all failed, are tried again from here (R153, R173). -/
def Dev.epochEdge (d : Dev) : Dev :=
  let d1 := d.raise 0 0 0 0
  d1.each (d1.cal.dirs.map (·.1)) (fun k d =>
    { d with cal := { d.cal with dirs := tupd {} d.cal.dirs k (fun e => { e with retryEpoch := false }) } })

def execEpochEdge (s : State) : Ans := lift Dev.epochEdge s

/-! ### The scheduler (R32 to R34) -/

/-- R34: an engine's quantum in bytes. -/
def quantum (e : Engine) (level : Nat) : Nat :=
  match e with
  | .wpe => 4096
  | .fpu _ => 256
  | .snc _ => if level = 0 then 2048 else if level ≤ 2 then 1024 else 512
  | .snd _ => 1024
  | .gcm _ => 4096
  | .ecu => 16384

/-- R34: the beats over which an engine holds one quantum; a compressor at level 4 to 7 takes 2^(level − 3). -/
def quantumBeats (e : Engine) (level : Nat) : Nat :=
  match e with
  | .snc _ => if 4 ≤ level then 2 ^ (level - 3) else 1
  | _ => 1

/-- One beat of work on a job: it has begun, and when the beats of its quantum are over the quantum is done. -/
def Job.run (j : Job) : Job :=
  if j.held + 1 < quantumBeats j.eng j.level then { j with begun := true, held := j.held + 1 }
  else { j with begun := true, held := 0, left := j.left - quantum j.eng j.level }

/-- R193, R212, R214, R261, R301: an engine whose FAULT is set is out of service. -/
def Dev.faulty (d : Dev) (s : Nat) (e : Engine) : Bool :=
  match e with
  | .wpe => false
  | .fpu u => d.flag (Reg.SLI_FPU_STS_FAULT s u)
  | .snc c => d.flag (Reg.SLI_SNC_STS_FAULT s c)
  | .snd c => d.flag (Reg.SLI_SND_STS_FAULT s c)
  | .gcm e => d.flag (Reg.SLI_GCM_STS_FAULT s e)
  | .ecu => d.flag (Reg.SLI_ECU_STS_FAULT s)

/-- Run the jobs of a list in order, each engine taking at most one (R32). `ok` tells whether a job may run, and `busy` holds engines taken. -/
def schedRun (ok : Job → Bool) : List Engine → List Job → List Engine × List Job
  | busy, [] => (busy, [])
  | busy, j :: t =>
    if ok j && !(busy.contains j.eng) then
      let r := schedRun ok (j.eng :: busy) t
      (r.1, j.run :: r.2)
    else
      let r := schedRun ok busy t
      (r.1, j :: r.2)

/-- R33: first the jobs already begun, in the order in which they began; then new jobs, class by class. Jobs that are done stay with nothing left. -/
def schedule (ok : Job → Bool) (jobs : List Job) : List Job :=
  let begun := jobs.filter (·.begun)
  let fresh := jobs.filter (fun j => !j.begun)
  let r0 := schedRun ok [] begun
  let r := (List.range 8).foldl (fun acc c =>
    let x := schedRun (fun j => ok j && !j.begun && decide (j.cls = c)) acc.1 acc.2
    (x.1, x.2)) (r0.1, fresh)
  r0.2 ++ r.2.filter (·.begun) ++ r.2.filter (fun j => !j.begun)

/-- R12: the BUSY and LEVEL fields of a slice's engines follow its jobs. -/
def Dev.engineBusy (d : Dev) (s : Nat) : Dev :=
  let js := ((d.slice s).jobs).filter (·.begun)
  let on (e : Engine) : Nat := if js.any (fun j => decide (j.eng = e)) then 1 else 0
  let d1 := d.each (List.range 16) (fun u d => d.setFld (Reg.SLI_FPU_STS_BUSY s u) (on (.fpu u)))
  let d2 := d1.each (List.range 4) (fun u d =>
    (d.setFld (Reg.SLI_SNC_STS_BUSY s u) (on (.snc u))).setFld (Reg.SLI_SND_STS_BUSY s u) (on (.snd u)))
  let d3 := d2.each (List.range 2) (fun u d => d.setFld (Reg.SLI_GCM_STS_BUSY s u) (on (.gcm u)))
  d3.setFld (Reg.SLI_ECU_STS_BUSY s) (on .ecu)

/-! ### Alignment between the heads (R43 to R47, R461) -/

/-- R54: GLB_SYNC_STS.ROLE. -/
def roleAlone : Nat := 0
def roleReference : Nat := 1
def roleFollower : Nat := 2

/-- R461: T(beat, cycle). -/
def coreTime (beat cycle : Nat) : Nat := 256 * beat + cycle

/-- GLB_CYCLE, R55: the cycle of the beat in which something happens, a free value below the beat's length. -/
def Dev.cycleNow (d : Dev) : Nat × Dev :=
  let (n, d1) := d.draw
  (Config.freeNat n % d.sync.lastBeatLen, d1)

/-- SYNC_REQ_SEND, R461: the follower sends a request and stamps its departure, in state SYNC or 1,024
beats after the last one. -/
def Dev.syncReqSend (d : Dev) : Dev :=
  if d.fld Reg.GLB_SYNC_STS_ROLE = roleFollower ∧
      (d.armed tmSyncReq = false ∨ d.expired tmSyncReq 1024) ∧
      (d.fld Reg.CDX_STS_LINK = 2 ∨ d.fld Reg.CDX_STS_LINK = 3 ∨ d.fld Reg.CDX_STS_LINK = 4) then
    let seq := d.sync.seq + 1
    let (c, d) := d.cycleNow
    ({ d with sync := { d.sync with seq := seq, reqBeat := d.beat, reqCycle := c, awaiting := true } }.emit
      (.link (.syncReq seq))).arm tmSyncReq
  else d

def execSyncReqSend (s : State) : Ans := lift Dev.syncReqSend s

/-- SYNC_REQ, R461: the reference answers with its beat, its cycle and HOLD. -/
def Dev.syncReq (d : Dev) (id : Word) (hold : Nat) : Dev :=
  if d.fld Reg.GLB_SYNC_STS_ROLE = roleReference then
    let (c, d) := d.cycleNow
    { d with sync := { d.sync with measured := true } }.emit (.link (.syncResp id d.beat c hold))
  else d

def execSyncReq (id : Word) (hold : Nat) (s : State) : Ans := lift (fun d => d.syncReq id hold) s

/-- R461: the offset in core cycles, positive when the follower leads. `half` says which way an odd sum is
cut, which the formula leaves open. -/
def syncOffset (t1 t4 b hold : Nat) (half : Int) : Int :=
  let n : Int := (t1 : Int) + t4 - 2 * b + hold
  if n % 2 = 0 then n / 2 else n / 2 + half

/-- A number in two's complement of 32 bits. -/
def int32 (i : Int) : Nat := (i % 2 ^ 32).toNat

/-- R44: the whole beats that a follower lags. -/
def lagBeats (off : Int) : Nat := (-off).toNat / 256

/-- SYNC_RESP, R44 to R46, R461: the follower measures its offset. On its first measurement it steps forward
by the whole beats it lags, at the next edge, where the event of the step is raised; what is left, and every later offset, it slews. -/
def Dev.syncResp (d : Dev) (id : Word) (refBeat refCycle hold : Nat) : Dev :=
  if d.fld Reg.GLB_SYNC_STS_ROLE = roleFollower ∧ d.sync.awaiting = true ∧ id = d.sync.seq then
    let (n, d1) := d.draw
    let (c, d0) := d1.cycleNow
    let off := syncOffset (coreTime d.sync.reqBeat d.sync.reqCycle) (coreTime d.beat c)
      (coreTime refBeat refCycle) hold (if Config.freeNat n % 2 = 0 then 0 else 1)
    let d1 := ((d0.setFld Reg.GLB_SYNC_OFFSET_OFFSET (int32 off)).setFld Reg.GLB_SYNC_STS_LOCKED 1).arm tmSync
    let step := if d.sync.measured then 0 else lagBeats off
    let rest : Int := off + 256 * step
    let d2 := { d1 with sync := { d1.sync with awaiting := false, measured := true, slew := rest } }
    let d3 := d2.cond (decide (0 < step)) (fun d =>
      (({ d with stepPend := d.stepPend + step }).bumpSat Reg.GLB_SYNC_STS_STEPS 1).setFld Reg.GLB_SYNC_STEP_BEATS step)
    -- DESIGN CHOICE (log 160): the out-of-bound event is raised at every measurement above the bound
    d3.cond (decide (512 < rest.natAbs)) (fun d => (d.setFld Reg.GLB_SYNC_STS_OUT_OF_BOUND 1).raise 3 0 0 0)
  else d

def execSyncResp (id : Word) (refBeat refCycle hold : Nat) (s : State) : Ans :=
  lift (fun d => d.syncResp id refBeat refCycle hold) s

/-- SYNC_LOCK_LOST, R46: no reply for 2^13 beats; the follower clears LOCKED and counts freely. -/
def Dev.syncLockLost (d : Dev) : Dev :=
  if d.fld Reg.GLB_SYNC_STS_ROLE = roleFollower ∧ d.flag Reg.GLB_SYNC_STS_LOCKED ∧ d.expired tmSync (2 ^ 13) then
    (({ d with sync := { d.sync with slew := 0 } }.setFld Reg.GLB_SYNC_STS_LOCKED 0).disarm tmSync).raise 2 0 0 0
  else d

def execSyncLockLost (s : State) : Ans := lift Dev.syncLockLost s

/-- R45: the length in core cycles of the beat now beginning, and the slew left after it. A beat of 255 or
257 cycles comes at most once in any 16 beats. -/
def Dev.slewBeat (d : Dev) : Nat × Dev :=
  if d.sync.slew ≠ 0 ∧ (d.armed tmSlew = false ∨ d.expired tmSlew 16) then
    let lead := decide (0 < d.sync.slew)
    let len := if lead then 257 else 255
    (len, { d with
        sync := { d.sync with
        slew := if lead then d.sync.slew - 1 else d.sync.slew + 1, lastBeatLen := len } }.arm tmSlew)
  else (256, { d with sync := { d.sync with lastBeatLen := 256 } })

end Sys2Proof.Machine
end

