-- ==== Sys2Proof/Machine/Crypto.lean ====
section
/-! DEFINITION. The published algorithms that spec/ names without repeating them: SHA-256 (FIPS 180-4, R190), AES-256
(FIPS 197) and GCM with a 96-bit IV and a 128-bit tag (NIST SP 800-38D, R253). -/
namespace Sys2Proof.Machine

/-! ### SHA-256 -/

/-- The words of `n` times 32 bits that a number holds, the most significant word first. -/
def words32 (n v : Nat) : List (BitVec 32) := (List.range n).map (fun i => BitVec.ofNat 32 (v >>> (32 * (n - 1 - i))))

/-- The round constants, as one number: the first 32 bits of the fractions of the cube roots of the first 64 primes, in order. -/
def shaRoots : Nat :=
  0x428a2f9871374491b5c0fbcfe9b5dba53956c25b59f111f1923f82a4ab1c5ed5d807aa9812835b01243185be550c7dc372be5d7480deb1fe9bdc06a7c19bf174e49b69c1efbe47860fc19dc6240ca1cc2de92c6f4a7484aa5cb0a9dc76f988da983e5152a831c66db00327c8bf597fc7c6e00bf3d5a7914706ca63511429296727b70a852e1b21384d2c6dfc53380d13650a7354766a0abb81c2c92e92722c85a2bfe8a1a81a664bc24b8b70c76c51a3d192e819d6990624f40e3585106aa07019a4c1161e376c082748774c34b0bcb5391c0cb34ed8aa4a5b9cca4f682e6ff3748f82ee78a5636f84c878148cc7020890befffaa4506cebbef9a3f7c67178f2

/-- The initial hash value, as one number: the same of the square roots of the first 8 primes. -/
def shaStart : Nat := 0x6a09e667bb67ae853c6ef372a54ff53a510e527f9b05688c1f83d9ab5be0cd19

/-- A number from big-endian bytes, and back. -/
def beNat (bs : List Byte) : Nat := bs.foldl (fun n b => n * 256 + b.toNat) 0
def beBytes (n v : Nat) : List Byte := (leBytes n v).reverse

/-- The message schedule: the last 16 words and the words still to come. -/
def shaSched : Nat → List (BitVec 32) → List (BitVec 32)
  | 0, _ => []
  | n + 1, w =>
    let g (i : Nat) := w.getD i 0
    let s0 := (g 1).rotateRight 7 ^^^ (g 1).rotateRight 18 ^^^ (g 1 >>> 3)
    let s1 := (g 14).rotateRight 17 ^^^ (g 14).rotateRight 19 ^^^ (g 14 >>> 10)
    let x := g 0 + s0 + g 9 + s1
    g 0 :: shaSched n (w.drop 1 ++ [x])

/-- One round on the eight working variables. -/
def shaRound (v : List (BitVec 32)) (kw : BitVec 32 × BitVec 32) : List (BitVec 32) :=
  match v with
  | [a, b, c, d, e, f, g, h] =>
    let s1 := e.rotateRight 6 ^^^ e.rotateRight 11 ^^^ e.rotateRight 25
    let ch := (e &&& f) ^^^ (~~~e &&& g)
    let t1 := h + s1 + ch + kw.1 + kw.2
    let s0 := a.rotateRight 2 ^^^ a.rotateRight 13 ^^^ a.rotateRight 22
    let maj := (a &&& b) ^^^ (a &&& c) ^^^ (b &&& c)
    [t1 + s0 + maj, a, b, c, d + t1, e, f, g]
  | l => l

/-- One 64-byte block. -/
def shaBlock (h : List (BitVec 32)) (blk : List Byte) : List (BitVec 32) :=
  let w := (List.range 16).map (fun i => BitVec.ofNat 32 (beNat ((blk.drop (4 * i)).take 4)))
  let v := ((words32 64 shaRoots).zip (shaSched 64 w)).foldl shaRound h
  (h.zip v).map (fun (x : BitVec 32 × BitVec 32) => x.1 + x.2)

/-- The padded message. -/
def shaPad (bs : List Byte) : List Byte :=
  bs ++ [0x80] ++ List.replicate ((119 - bs.length % 64) % 64) 0 ++ beBytes 8 (8 * bs.length)

/-- SHA-256 of a byte string: 32 bytes. -/
def sha256 (bs : List Byte) : List Byte :=
  let m := shaPad bs
  ((List.range (m.length / 64)).foldl (fun h i => shaBlock h ((m.drop (64 * i)).take 64)) (words32 8 shaStart)).flatMap
    (fun x => beBytes 4 x.toNat)

/-- R190: a grain's fingerprint. -/
def fingerprint (bs : List Byte) : List Byte := (sha256 bs).take 16

/-! ### AES-256 -/

/-- Double in the AES field. -/
def aesX (b : Byte) : Byte := if b.toNat / 128 = 1 then (b <<< 1) ^^^ 0x1B else b <<< 1

/-- Multiply in the AES field; `n` counts the bits of the second factor still to use. -/
def aesMul : Nat → Byte → Byte → Byte
  | 0, _, _ => 0
  | n + 1, a, b => (if b.toNat % 2 = 1 then a else 0) ^^^ aesMul n (aesX a) (b >>> 1)

/-- The S-box: the inverse in the field, then the affine map. -/
def aesInv (b : Byte) : Byte :=
  let m := aesMul 8
  let b2 := m b b
  let b4 := m b2 b2
  let b8 := m b4 b4
  let b16 := m b8 b8
  let b32 := m b16 b16
  let b64 := m b32 b32
  let b128 := m b64 b64
  m b2 (m b4 (m b8 (m b16 (m b32 (m b64 b128)))))

def aesSub (b : Byte) : Byte :=
  let i := aesInv b
  i ^^^ i.rotateLeft 1 ^^^ i.rotateLeft 2 ^^^ i.rotateLeft 3 ^^^ i.rotateLeft 4 ^^^ 0x63

/-- XOR of two byte strings, as long as the first. -/
def xorBytes : List Byte → List Byte → List Byte
  | [], _ => []
  | a :: t, [] => a :: t
  | a :: t, b :: u => (a ^^^ b) :: xorBytes t u

/-- The round constants of the key schedule. -/
def aesRcon : Nat → Byte
  | 0 => 1
  | n + 1 => aesX (aesRcon n)

/-- The key schedule: words of four bytes; `i` is the number of the next word. -/
def aesExpand : Nat → Nat → List (List Byte) → List (List Byte)
  | 0, _, ws => ws
  | n + 1, i, ws =>
    let t := ws.getD (i - 1) []
    let t' := if i % 8 = 0 then xorBytes ((t.drop 1 ++ t.take 1).map aesSub) [aesRcon (i / 8 - 1), 0, 0, 0]
      else if i % 8 = 4 then t.map aesSub else t
    aesExpand n (i + 1) (ws ++ [xorBytes (ws.getD (i - 8) []) t'])

/-- The round keys of a 32-byte key: 15 of 16 bytes. -/
def aesKeys (key : List Byte) : List (List Byte) :=
  let ws := aesExpand 52 8 ((List.range 8).map (fun i => (key.drop (4 * i)).take 4))
  (List.range 15).map (fun r => ((ws.drop (4 * r)).take 4).flatten)

def aesShift (s : List Byte) : List Byte := (List.range 16).map (fun i => s.getD ((i + 4 * (i % 4)) % 16) 0)

def aesMixCol (c : List Byte) : List Byte :=
  match c with
  | [a, b, d, e] =>
    [aesX a ^^^ (aesX b ^^^ b) ^^^ d ^^^ e, a ^^^ aesX b ^^^ (aesX d ^^^ d) ^^^ e,
     a ^^^ b ^^^ aesX d ^^^ (aesX e ^^^ e), (aesX a ^^^ a) ^^^ b ^^^ d ^^^ aesX e]
  | l => l

def aesMix (s : List Byte) : List Byte := (List.range 4).flatMap (fun i => aesMixCol ((s.drop (4 * i)).take 4))

/-- AES-256 encryption of one 16-byte block under expanded keys. -/
def aesBlock (ks : List (List Byte)) (blk : List Byte) : List Byte :=
  let s0 := xorBytes blk (ks.getD 0 [])
  let s1 := ((ks.drop 1).take 13).foldl (fun s k => xorBytes (aesMix (aesShift (s.map aesSub))) k) s0
  xorBytes (aesShift (s1.map aesSub)) (ks.getD 14 [])

/-- R239: the key check value. -/
def keyCheck (key : List Byte) : Nat := leNat ((aesBlock (aesKeys key) (List.replicate 16 0)).take 3)

/-! ### GCM -/

/-- Multiplication in the field of GHASH; blocks are 128-bit numbers, first byte highest. -/
def ghMul : Nat → BitVec 128 → BitVec 128 → BitVec 128
  | 0, _, _ => 0
  | n + 1, x, v =>
    (if x.getLsbD n then v else 0) ^^^
      ghMul n x (if v.getLsbD 0 then (v >>> 1) ^^^ ((0xE1 : BitVec 128) <<< 120) else v >>> 1)

/-- GHASH over whole blocks. -/
def ghash (h : BitVec 128) (bs : List Byte) : BitVec 128 :=
  (List.range (bs.length / 16)).foldl
    (fun y i => ghMul 128 (y ^^^ BitVec.ofNat 128 (beNat ((bs.drop (16 * i)).take 16))) h) 0

/-- Zeros up to the next multiple of 16 bytes. -/
def pad16 (bs : List Byte) : List Byte := bs ++ List.replicate ((16 - bs.length % 16) % 16) 0

/-- The key stream of `n` blocks from counter value 2. -/
def gcmStream (ks : List (List Byte)) (iv : List Byte) (n : Nat) : List Byte :=
  (List.range n).flatMap (fun i => aesBlock ks (iv ++ beBytes 4 (i + 2)))

/-- The tag over AAD and ciphertext. -/
def gcmTag (ks : List (List Byte)) (iv aad ct : List Byte) : List Byte :=
  let h := BitVec.ofNat 128 (beNat (aesBlock ks (List.replicate 16 0)))
  let s := ghash h (pad16 aad ++ pad16 ct ++ beBytes 8 (8 * aad.length) ++ beBytes 8 (8 * ct.length))
  xorBytes (beBytes 16 s.toNat) (aesBlock ks (iv ++ beBytes 4 1))

/-- Encrypt, or decrypt, by the key stream. -/
def gcmCrypt (ks : List (List Byte)) (iv bs : List Byte) : List Byte :=
  xorBytes bs (gcmStream ks iv ((bs.length + 15) / 16))

end Sys2Proof.Machine
end

