-- ==== Sys2Proof/Machine/Wire.lean ====
section
/-! DEFINITION. The reliable-connected transport on the wire: its numbers, and its packets from the base transport header on (R71, R80, R81,
R88 to R90, R451). -/
namespace Sys2Proof.Machine

/-! ### Numbers of the transport -/

/-- R100: the path MTU in bytes. -/
def mtuBytes (code : Nat) : Nat := if code = 4 then 2048 else if code = 5 then 4096 else 1024

/-- How many packets `len` bytes take; an empty message takes one. -/
def packetsOf (len mtu : Nat) : Nat := max 1 ((len + mtu - 1) / mtu)

/-- `a` is before `b` in a PSN space: their distance forward is below 2^23. -/
def psnBefore (a b : Psn) : Bool := decide (a ≠ b) && decide ((b - a).toNat < 2 ^ 23)

/-- The credit counts that the AETH encoding of the InfiniBand transport can express (R81), rising. -/
def aethCredits : List Nat :=
  [0, 1, 2, 3, 4, 6, 8, 12, 16, 24, 32, 48, 64, 96, 128, 192, 256, 384, 512, 768, 1024, 1536, 2048, 3072,
   4096, 6144, 8192, 12288, 16384, 24576, 32768]

/-- R81: a count rounded down to the nearest value that the encoding can express. -/
def aethRound (n : Nat) : Nat := (aethCredits.filter (fun c => decide (c ≤ n))).foldl max 0

/-- R100: CREDIT_TX of an unlimited responder. -/
def creditUnlimited : Nat := 0xFFFF

/-- R80: the acknowledgement timeout of encoded value n in beats; 0 means none. -/
def ackTimeoutBeats (n : Nat) : Nat := if n = 0 then 0 else 33 * 2 ^ n

/-- The RNR NAK timer encodings of the InfiniBand transport (R80, R82), in units of 0.01 ms. -/
def rnrUnits : List Nat :=
  [65536, 1, 2, 3, 4, 6, 8, 12, 16, 24, 32, 48, 64, 96, 128, 192, 256, 384, 512, 768, 1024, 1536, 2048, 3072,
   4096, 6144, 8192, 12288, 16384, 24576, 32768, 49152]

/-- An RNR NAK timer in beats of 125 ns. -/
def rnrBeats (enc : Nat) : Nat := 80 * rnrUnits.getD (enc % 32) 65536

/-! ### Headers -/

/-- A field whose most significant byte comes first (R8, R451). -/
def beField (bs : List Byte) (off len : Nat) : Nat := leNat (((bs.drop off).take len).reverse)

/-- R451: a base transport header; a multipath packet carries 0xC0 more in its opcode (R88). -/
def bthBytes (op pad dqpn psn : Nat) (ackReq : Bool) : List Byte :=
  leBytes 1 op ++ leBytes 1 (pad * 16) ++ beBytes 2 0xFFFF ++ leBytes 1 0 ++ beBytes 3 dqpn ++
    leBytes 1 (if ackReq then 128 else 0) ++ beBytes 3 psn

/-- Where packet i of n stands. -/
def pktPos (i n : Nat) : PktPos := if n = 1 then .only else if i = 0 then .first else if i + 1 = n then .last else .middle

/-- The opcode of a packet of the reliable-connected transport. -/
def bthOp (w : WorkOp) (p : PktPos) : Nat :=
  match w, p with
  | .send, .only => 0x04 | .send, .first => 0x00 | .send, .middle => 0x01 | .send, .last => 0x02
  | .sendImm _, .only => 0x05 | .sendImm _, .first => 0x00 | .sendImm _, .middle => 0x01 | .sendImm _, .last => 0x03
  | .sendInv _, .only => 0x17 | .sendInv _, .first => 0x00 | .sendInv _, .middle => 0x01 | .sendInv _, .last => 0x16
  | .write _ _, .only => 0x0A | .write _ _, .first => 0x06 | .write _ _, .middle => 0x07 | .write _ _, .last => 0x08
  | .writeImm _ _ _, .only => 0x0B | .writeImm _ _ _, .first => 0x06 | .writeImm _ _ _, .middle => 0x07 | .writeImm _ _ _, .last => 0x09
  | .read _ _ _, _ => 0x0C

/-- The extension headers of a packet: RETH on a write's first packet, or on multipath on each (R88), immediate data or the key to invalidate on the last. -/
def extBytes (mp : Bool) (w : WorkOp) (p : PktPos) (len : Nat) : List Byte :=
  let begins := mp || decide (p = .only ∨ p = .first)
  let ends := decide (p = .only ∨ p = .last)
  let reth (va : Nat) (key : Word) : List Byte := if begins then beBytes 8 va ++ beBytes 4 key.toNat ++ beBytes 4 len else []
  match w with
  | .write va key => reth va key
  | .writeImm va key imm => reth va key ++ (if ends then beBytes 4 imm.toNat else [])
  | .read va key n => beBytes 8 va ++ beBytes 4 key.toNat ++ beBytes 4 n
  | .sendImm imm => if ends then beBytes 4 imm.toNat else []
  | .sendInv key => if ends then beBytes 4 key.toNat else []
  | .send => []

/-- R88: the multipath extension header. -/
def mpethBytes (m : Mpeth) : List Byte :=
  leBytes 2 m.msgId.toNat ++ leBytes 1 m.pktIdx ++ leBytes 1 m.pktLast ++ leBytes 4 m.offset ++ leBytes 1 (m.path % 4) ++ leBytes 1 1 ++
    leBytes 2 m.msgAck.toNat ++ leBytes 4 m.msgLen

/-- R88: what multipath adds to an opcode. -/
def mpOp (mp : Bool) (op : Nat) : Nat := if mp then 0xC0 + op else op

/-- The AETH credit code of a count (R81). -/
def creditCode (n : Nat) : Nat := (aethCredits.zipIdx.find? (fun (x : Nat × Nat) => decide (x.1 = n))).elim 31 (·.2)

def nakCode (k : NakKind) : Nat :=
  match k with
  | .seqErr => 0 | .invalidReq => 1 | .remoteAccess => 2 | .remoteOp => 3

/-! ### Packets -/

/-- The packets of a work item whose PSNs are `first` to `last`; `off` packets of it came before. An RDMA READ is one request for what is
left of it (R89). On multipath every packet of an RDMA WRITE carries its RETH (R88). -/
def reqPackets (mp : Bool) (mtu dqpn path off : Nat) (msgId : BitVec 16) (first last : Psn) (w : WorkItem) : List (List Byte) :=
  let head (op pad : Nat) (psn : Psn) (ack : Bool) (i n at_ len : Nat) : List Byte :=
    bthBytes (mpOp mp op) pad dqpn psn.toNat ack ++
      (if mp then mpethBytes { msgId := msgId, pktIdx := i, pktLast := n - 1, offset := at_, path := path, msgAck := 0, msgLen := len } else [])
  match w.op with
  | .read va key len =>
    [head 0x0C 0 first true 0 1 0 len ++ beBytes 8 (va + mtu * off) ++ beBytes 4 key.toNat ++ beBytes 4 (len - mtu * off)]
  | _ =>
    let n := packetsOf w.bytes.length mtu
    (List.range ((last - first).toNat + 1)).map (fun k =>
      let i := off + k
      let body := (w.bytes.drop (mtu * i)).take mtu
      let p := pktPos i n
      let pad := (4 - body.length % 4) % 4
      head (bthOp w.op p) pad (first + BitVec.ofNat 24 k) (decide (i + 1 = n)) i n (mtu * i) w.bytes.length ++
        extBytes mp w.op p w.bytes.length ++ body ++ List.replicate pad 0)

/-- An acknowledgement packet: its AETH syndrome and MSN; on multipath MSG_ACK stands in its header, and MSN is 0 (R90). -/
def ackPacket (mp : Bool) (dqpn path psn syndrome msn : Nat) (msgAck : BitVec 16) : List Byte :=
  bthBytes (mpOp mp 0x11) 0 dqpn psn false ++
    (if mp then mpethBytes { msgId := 0, pktIdx := 0, pktLast := 0, offset := 0, path := path, msgAck := msgAck, msgLen := 0 } else []) ++
    leBytes 1 syndrome ++ beBytes 3 (if mp then 0 else msn)

/-- The context that sends. -/
def outCtx (o : Out) : Nat :=
  match o with
  | .request q _ _ _ _ _ _ => q
  | .ack q _ _ _ _ => q
  | .nak q _ _ _ => q
  | .rnrNak q _ _ _ => q
  | .cnp q => q
  | _ => 0

/-- The packets of what a context sends, from the base transport header to the end of the payload. A congestion notification has opcode 0x81
and 16 bytes 0 (R67). -/
def Dev.wire (d : Dev) (o : Out) : List (List Byte) :=
  let c := d.ctx (outCtx o)
  let dq := c.destQpn.toNat
  match o with
  | .request _ p first last off id w => reqPackets c.mp (mtuBytes c.pmtu) dq p off id first last w
  | .ack _ p psn credit a => [ackPacket c.mp dq p psn.toNat (creditCode credit) c.msn.toNat a]
  | .nak _ p psn k => [ackPacket c.mp dq p psn.toNat (0x60 + nakCode k) c.msn.toNat c.msgRxBase]
  | .rnrNak _ p psn t => [ackPacket c.mp dq p psn.toNat (0x20 + t % 32) c.msn.toNat c.msgRxBase]
  | .cnp _ => [bthBytes 0x81 0 dq 0 false ++ List.replicate 16 0]
  | _ => []

end Sys2Proof.Machine
end

