-- ==== Sys2Proof/Machine/Xpt.lean ====
section
/-! DEFINITION. The transport engine's own operations: sequence numbers, credits, sending, resending, the
registration table (R71 to R98). -/
namespace Sys2Proof.Machine

/-! ### Paths -/

def QpCtx.path (c : QpCtx) (p : Nat) : PathRec :=
  match p with
  | 0 => c.path0 | 1 => c.path1 | 2 => c.path2 | _ => c.path3

def QpCtx.setPath (c : QpCtx) (p : Nat) (r : PathRec) : QpCtx :=
  match p with
  | 0 => { c with path0 := r }
  | 1 => { c with path1 := r }
  | 2 => { c with path2 := r }
  | _ => { c with path3 := r }

/-- The paths of a context that are up, lowest first. -/
def QpCtx.upPaths (c : QpCtx) : List Nat :=
  (List.range (c.npath + 1)).filter (fun p => (c.path p).up)

/-- The path on which the next message goes. DESIGN CHOICE (log 162): on multipath the lowest path that is up. -/
def QpCtx.nextPath (c : QpCtx) : Nat := if c.mp then c.upPaths.headD 0 else 0

/-- Next PSN and oldest unacknowledged PSN of a path; the single path has its own fields (R100). -/
def QpCtx.txNext (c : QpCtx) (p : Nat) : Psn := if c.mp then (c.path p).txNext else c.sqPsn
def QpCtx.txUna (c : QpCtx) (p : Nat) : Psn := if c.mp then (c.path p).txUna else c.sqUna
def QpCtx.setTxNext (c : QpCtx) (p : Nat) (v : Psn) : QpCtx :=
  if c.mp then c.setPath p { c.path p with txNext := v } else { c with sqPsn := v }
def QpCtx.setTxUna (c : QpCtx) (p : Nat) (v : Psn) : QpCtx :=
  if c.mp then c.setPath p { c.path p with txUna := v } else { c with sqUna := v }
def QpCtx.retry (c : QpCtx) (p : Nat) : Nat := if c.mp then (c.path p).retryLeft else c.retryLeft
def QpCtx.setRetry (c : QpCtx) (p : Nat) (n : Nat) : QpCtx :=
  if c.mp then c.setPath p { c.path p with retryLeft := n } else { c with retryLeft := n }

/-! ### Sending -/

/-- A SEND is limited by credits; RDMA WRITE and RDMA READ are not (R83). -/
def workIsSend : WorkOp → Bool
  | .send | .sendInv _ | .sendImm _ => true
  | _ => false

def workIsRead : WorkOp → Bool
  | .read _ _ _ => true
  | _ => false

/-- The packets that a work item takes in its path's PSN space. An RDMA READ takes those of its response; on
a multipath queue pair its request travels as one packet (R89). -/
def workPackets (w : WorkItem) (mtu : Nat) (mp : Bool) : Nat :=
  match w.op with
  | .read _ _ len => if mp then 1 else packetsOf len mtu
  | _ => packetsOf w.bytes.length mtu

/-- R100, R72: the RDMA READ depth; 0 means 16. -/
def QpCtx.readDepth (c : QpCtx) : Nat := if c.rdMax = 0 then 16 else min 16 c.rdMax

/-- R83, R72: whether the head item may go now. -/
def QpCtx.maySend (c : QpCtx) (w : WorkItem) : Bool :=
  (!workIsSend w.op || decide (0 < c.creditTx)) && (!workIsRead w.op || decide (c.rdOut < c.readDepth))

/-- R64: a context sends on priority B when it is a replication queue pair and B is enabled, else on A. -/
def Dev.onPrioB (d : Dev) (q p : Nat) : Bool :=
  decide ((d.ctx q).cls = 2) && d.flag (Reg.HPT_PFC_PRIO_B_EN (if (d.ctx q).mp then ((d.ctx q).path p).port else (d.ctx q).port))

def PortRec.paused (r : PortRec) : Prio → Bool
  | .a => r.pausedA
  | .b => r.pausedB
def PortRec.discard (r : PortRec) : Prio → Bool
  | .a => r.discardA
  | .b => r.discardB

/-- The host port of a context's path (R100). -/
def QpCtx.portOf (c : QpCtx) (p : Nat) : Nat := if c.mp then (c.path p).port else c.port

/-- Lanes of a port in a quad mode, which is also the SPEED of HPT_STS (R58, R70). -/
def speedLanes (n : Nat) : Nat := if n = 4 then 8 else if n = 3 then 4 else if n = 2 then 2 else 1

/-- R58: the lanes of a port that starts at lane p, and the lanes at whose balls they lie (R60). -/
def Dev.hostBall (d : Dev) (l : Nat) : Nat := if d.strap 3 then 4 * (l / 4) + 3 - l % 4 else l
def Dev.portBalls (d : Dev) (p : Nat) : List Nat :=
  (List.range (speedLanes (d.fld (Reg.HPT_QUAD_MODE (p / 4))))).map (fun i => d.hostBall (p + i))

/-- Send something of context q on its path p. A mirror context sends on Crediox. A host port that is not ON loses the packets (R68), one
whose priority is discarded too (R66), and on a paused priority they are queued (R65). -/
def Dev.transmit (d : Dev) (q p : Nat) (o : Out) : Dev :=
  if q < 64 then d.emit o
  else
    let port := (d.ctx q).portOf p
    let pr : Prio := if d.onPrioB q p then .b else .a
    let r := d.port port
    if !d.isOn (.port port) || r.discard pr then d
    else if r.paused pr then d.updPort port (fun r => { r with txQ := r.txQ ++ (d.wire o).map (fun b => (pr, b)) })
    else { d with out := d.out ++ (d.wire o).map (fun b => Out.roce port (d.portBalls port) b) }

/-- A work item may be posted and sent: RTS, in ON or in a graceful stop (R76). -/
def Dev.accepts (d : Dev) (q : Nat) : Bool :=
  let c := d.ctx q
  decide (c.xstate = .rts) && decide (c.unit.state ∈ [UState.on, .stopping, .pendOn])

/-- R67: a host queue pair below its full rate waits until its limit lets it send. -/
def Dev.paced (d : Dev) (q : Nat) : Bool :=
  decide (64 ≤ q) && decide ((d.ctx q).rate < 64) && decide (d.edges < (d.work q).nextTx)

/-- The send queue may be served (R67, R76). While the RNR timer of the path runs, nothing new goes on it: what is refused is retried first (R80). -/
def Dev.canSend (d : Dev) (q : Nat) : Bool := d.accepts q && !d.paced q && !d.armed (tmRnr q (d.ctx q).nextPath)

/-- R67: the beats that `len` bytes take at a rate limit, in 64ths of the port rate. 100 Gbit/s are 3,125 bytes in two beats. -/
def rateBeats (rate lanes len : Nat) : Nat := (len * 128 + rate * lanes * 3125 - 1) / max 1 (rate * lanes * 3125)

/-- R67: `len` bytes have been sent; the next may follow when the limit lets them. -/
def Dev.notePace (d : Dev) (q p len : Nat) : Dev :=
  let c := d.ctx q
  if q < 64 ∨ 64 ≤ c.rate then d
  else d.updWork q (fun w => { w with
    nextTx := max d.edges w.nextTx + rateBeats c.rate (speedLanes (d.fld (Reg.HPT_STS_SPEED (c.portOf p)))) len })

/-- Put the packets of a message on its path. -/
def Dev.emitReq (d : Dev) (q : Nat) (m : SentMsg) : Dev := d.transmit q m.path (.request q m.path m.first m.last m.off m.msgId m.item)

/-- A mirror put (R454): an RDMA WRITE with immediate data on a mirror context. -/
def isPut (w : WorkItem) : Bool := match w.op with
  | .writeImm _ _ _ => true
  | _ => false

/-- R120, R127: what leaving the send queue means to the producer of an item. A completion capsule frees its tag at
the next edge, and so does an owner's FWD_CPL; read data counts down to its command's completion. -/
def Dev.itemLeft (d : Dev) (w : WorkItem) : Dev :=
  match w.prod with
  | .completion t => (d.updTag t (fun x => { x with leaveAt := true })).count 0 0x002 1
  | .fwd t => if w.bytes.head? = some 3#8 then d.updTag t (fun x => { x with leaveAt := true }) else d
  | .hostData t => d.updTag t (fun x => { x with out := x.out - 1 })
  | _ => d

/-- Send one work item: it takes the next PSNs of its path and stays until it is acknowledged. -/
def Dev.sendItem (d : Dev) (q : Nat) (w : WorkItem) : Dev :=
  let c := d.ctx q
  let p := c.nextPath
  let n := workPackets w (mtuBytes c.pmtu) c.mp
  let first := c.txNext p
  let last : Psn := first + BitVec.ofNat 24 (n - 1)
  let c1 := c.setTxNext p (first + BitVec.ofNat 24 n)
  let c2 := if workIsSend w.op && decide (c1.creditTx ≠ creditUnlimited) then
    { c1 with creditTx := c1.creditTx - 1 } else c1
  let c3 := if workIsRead w.op then { c2 with rdOut := c2.rdOut + 1 } else c2
  let c4 := if c.mp then { c3 with msgTxNext := c3.msgTxNext + 1 } else c3
  let m : SentMsg := ⟨p, first, last, 0, c.msgTxNext, w⟩
  let d1 := (d.updCtx q (fun _ => c4)).updWork q (fun x => { x with
    sent := x.sent ++ [m]
    mpIds := if c.mp then x.mpIds ++ [(c.msgTxNext, if workIsSend w.op then 1 else if workIsRead w.op then 2 else 0)] else x.mpIds })
  let d2 := (((d1.emitReq q m).notePace q p w.bytes.length).itemLeft w).cond (decide (q < 64) && isPut w) (fun d => d.count 0 0x003 1)
  if d2.armed (tmAck q p) then d2 else d2.arm (tmAck q p)

/-- Send items from the head of the send queue until one waits, lacks credit or lacks depth. -/
def Dev.pump (d : Dev) (q : Nat) : Nat → Dev
  | 0 => d
  | fuel + 1 =>
    match (d.work q).sendQ with
    | [] => d
    | w :: rest =>
      if d.canSend q && w.wait.isNone && (d.ctx q).maySend w then
        ((d.updWork q (fun x => { x with sendQ := rest })).sendItem q w).pump q fuel
      -- R83: with no credit the acknowledgement timer runs towards a probe
      else if d.canSend q && w.wait.isNone && workIsSend w.op && decide ((d.ctx q).creditTx = 0) &&
          !d.armed (tmAck q 0) then d.arm (tmAck q 0)
      else d

/-- WORK_ITEM_POST, R85, R76: a producer posts a work item. On a queue pair that sends it joins the send
queue; on one in the error path, in OFF or in STARTING it is to be returned FLUSHED. -/
def Dev.post (d : Dev) (q : Nat) (w : WorkItem) : Dev :=
  let d0 := if q < 64 then
    { d with cal := { d.cal with putsPosted := tupd 0 d.cal.putsPosted q (fun n => n + 1) } } else d
  if d0.accepts q then
    (d0.updWork q (fun x => { x with sendQ := x.sendQ ++ [w] })).pump q ((d0.work q).sendQ.length + 1)
  else d0.updWork q (fun x => { x with flushed := x.flushed ++ [w] })

/-- R91: cut `n` bytes from offset `off` into pieces of at most `size`. -/
def pieces (size : Nat) : Nat → Nat → Nat → List (Nat × Nat)
  | 0, _, _ => []
  | fuel + 1, off, n => if n ≤ size then [(off, n)] else (off, size) :: pieces size fuel (off + size) (n - size)

/-- R87, R91: on a multipath queue pair a transfer longer than the packets agreed for a message goes as several messages. -/
def Dev.splitItem (d : Dev) (q : Nat) (w : WorkItem) : List WorkItem :=
  let c := d.ctx q
  let size := ((d.work q).pktMax + 1) * mtuBytes c.pmtu
  if !c.mp then [w]
  else
    match w.op with
    | .write va key => (pieces size (w.bytes.length / size + 1) 0 w.bytes.length).map (fun p =>
        { w with op := .write (va + p.1) key, bytes := (w.bytes.drop p.1).take p.2 })
    | .read va key len => (pieces size (len / size + 1) 0 len).map (fun p =>
        { w with op := .read (va + p.1) key p.2 })
    | _ => [w]

/-- R85: a wait condition holds when (CC − WAIT_COUNT) modulo 2^32 is below 2^31. -/
def waitHolds (cc count : Word) : Bool := decide ((cc - count).toNat < 2 ^ 31)

/-- Every packet of a message has been acknowledged; an RDMA READ on multipath then waits for its response alone (R89). -/
def SentMsg.acked (m : SentMsg) : Bool := decide (m.first = m.last + 1)

/-- The messages of a path with packets unacknowledged, oldest first. -/
def Dev.unacked (d : Dev) (q p : Nat) : List SentMsg := (d.work q).sent.filter (fun m => decide (m.path = p) && !m.acked)

/-- R79, R80: send again from the oldest unacknowledged PSN of a path; no sequence field changes. -/
def Dev.resend (d : Dev) (q p : Nat) : Dev := d.each (d.unacked q p) (fun m d => d.emitReq q m)

/-- R67: the queue pairs whose rate limit lets them send again go on. -/
def Dev.paceBeat (d : Dev) : Dev :=
  d.each ((d.xpt.works.filter (fun e => decide (e.2.nextTx ≠ 0) && decide (e.2.nextTx ≤ d.edges) && !e.2.sendQ.isEmpty)).map (·.1))
    (fun q d => d.pump q ((d.work q).sendQ.length + 1))

/-! ### Registered regions (R96 to R98) -/

/-- R96: the fields of an R_Key. -/
def rkeyTag (k : Word) : Nat := k.toNat % 256
def rkeyIndex (k : Word) : Nat := k.toNat / 256 % 1024
def rkeyOf (idx tag : Nat) : Word := BitVec.ofNat 32 (idx * 256 + tag)

/-- R97: the key check of `len` bytes at address `va` for a queue pair with protection domain `pd`. -/
def Dev.keyCheck (d : Dev) (pd : Nat) (k : Word) (va len : Nat) : Bool :=
  let r := d.region (rkeyIndex k)
  decide (k.toNat / 2 ^ 18 = 0) && decide (r.state = .valid) && decide (r.tag = rkeyTag k) &&
    decide (r.pd = pd) && r.write && decide (r.base ≤ va) && decide (va + len ≤ r.base + r.len)

/-- R98: a packet that passed the check begins its placement. It ends within 2 beats; which of them is a free value, and packets for a region
end in the order of their checks (log 164). -/
def Dev.place (d : Dev) (p : Placing) : Dev :=
  let (n, d1) := (d.updRegion p.mr (fun x => { x with inflight := x.inflight + 1 })).draw
  let floor := ((d.xpt.placing.filter (fun x => decide (x.mr = p.mr))).map (·.left)).foldl max 0
  { d1 with xpt := { d1.xpt with placing := d1.xpt.placing ++ [{ p with left := max floor (1 + Config.freeNat n % 2) }] } }

/-- Bytes for a registered region. -/
def Dev.placeAt (d : Dev) (k : Word) (va : Nat) (bs : List Byte) : Dev := d.place { mr := rkeyIndex k, addr := va, bytes := bs, left := 1 }

/-- R146, R453: the region is the Caldera mirror window: the second 16 GiB of the Caldera (log 165). -/
def mirrorBase : Nat := 2 ^ 34
def Region.isWindow (r : Region) : Bool := decide (r.base = mirrorBase) && decide (r.len = 2 ^ 34)

/-- R453: the key check of a packet of a put, against the whole window. -/
def Dev.windowCheck (d : Dev) (pd : Nat) (k : Word) : Bool :=
  let r := d.region (rkeyIndex k)
  r.isWindow && d.keyCheck pd k r.base r.len

/-! ### Views of the transport's registers -/

/-- R99: contexts in ON and free bitmaps. -/
def Dev.qpOnCount (d : Dev) : Nat :=
  (d.xpt.ctxs.filter (fun e => decide (e.2.unit.state = .on))).length
def Dev.bmpFree (d : Dev) : Nat :=
  Config.bitmaps - (d.xpt.bitmaps.filter (fun e => e.2.valid)).length

/-- The lowest bitmap of the pool not in use (R92). DESIGN CHOICE (log 163): spec/ does not say which free bitmap a message takes. -/
def Dev.freeBitmap (d : Dev) : Option Nat :=
  (List.range (d.xpt.bitmaps.length + 1)).find? (fun i => !(d.bitmap i).valid && decide (i < Config.bitmaps))

/-- The bitmap of message `id` of a queue pair, in the direction of requests or of RDMA READ responses (R89). -/
def Dev.bitmapOf (d : Dev) (q : Nat) (id : BitVec 16) (resp : Bool) : Option Nat :=
  (d.xpt.bitmaps.find? (fun e => e.2.valid && decide (e.2.qp = q) && decide (e.2.msgId = id) &&
    decide (e.2.op = .readResp) == resp)).map (·.1)

end Sys2Proof.Machine
end

