-- ==== Sys2Proof/Machine/Journal.lean ====
section
/-! DEFINITION. The metadata journal: its 64-byte records and the ring in the Caldera that holds them first
(R325 to R329). -/
namespace Sys2Proof.Machine

/-- R583 strap SLOT: which head this is (KEY_STS.HEAD). -/
def Dev.slotId (d : Dev) : Nat := d.fld Reg.KEY_STS_HEAD

/-- A number in two's complement of `8 n` bits, as bytes. -/
def leInt (n : Nat) (i : Int) : List Byte := leBytes n (i % (2 : Int) ^ (8 * n)).toNat

/-- A two's-complement number of `n` bytes. -/
def intOf (n v : Nat) : Int := if v < 2 ^ (8 * n - 1) then v else (v : Int) - 2 ^ (8 * n)

/-- R326: the TYPE of a record. -/
def JBody.type : JBody → Nat
  | .ringHead _ _ _ => 0x00 | .insert _ _ _ _ _ => 0x01 | .place _ _ _ _ _ _ _ _ => 0x02
  | .refcount _ _ => 0x03 | .remap _ _ _ _ _ => 0x04 | .ret _ => 0x05 | .nonceHwm _ _ _ _ => 0x06
  | .snapshot _ _ _ _ => 0x07 | .treeDelete _ => 0x08 | .segment _ _ => 0x09
  | .relocate _ _ _ _ => 0x0A | .steward _ _ _ _ => 0x0B

/-- R325: FLAGS; for INSERT bit 0 ADDREF and bit 1 ZERO. -/
def JBody.flags : JBody → Nat
  | .insert _ _ _ addref zero => (if addref then 1 else 0) + (if zero then 2 else 0)
  | _ => 0

/-- A place: SEGMENT (4), OFFSET (2). -/
def placeBytes (seg off : Nat) : List Byte := leBytes 4 seg ++ leBytes 2 off

/-- R326: the 36 bytes of a record's body, record offsets 24 to 59. -/
def JBody.bytes : JBody → List Byte
  | .ringHead page seg off => padTo 36 (leBytes 2 page ++ leBytes 2 0 ++ placeBytes seg off)
  | .insert tree key grid _ _ => padTo 36 (leBytes 4 tree ++ leBytes 5 key ++ leBytes 6 grid)
  | .place grid seg off stored gsize raw kslot fp =>
    padTo 36 (leBytes 6 grid ++ placeBytes seg off ++ leBytes 2 stored ++
      leBytes 1 (gsize + (if raw then 4 else 0)) ++ leBytes 1 0 ++ leBytes 2 kslot ++ padTo 16 fp)
  | .refcount grid delta => padTo 36 (leBytes 6 grid ++ leInt 4 delta)
  | .remap tree key new drawn ents =>
    padTo 36 (leBytes 4 tree ++ leBytes 5 key ++ leBytes 6 new ++ leBytes 6 drawn ++ leBytes 2 ents)
  | .ret grid => padTo 36 (leBytes 6 grid)
  | .nonceHwm slot head gen counter =>
    padTo 36 (leBytes 2 slot ++ leBytes 2 (head * 2 ^ 15 + gen) ++ leBytes 8 counter)
  | .snapshot tree src group beat => padTo 36 (leBytes 4 tree ++ leBytes 4 src ++ leBytes 2 group ++
      leBytes 2 0 ++ leBytes 8 beat)
  | .treeDelete tree => padTo 36 (leBytes 4 tree)
  | .segment seg event => padTo 36 (leBytes 4 seg ++ leBytes 1 event)
  | .relocate grid seg off stored =>
    padTo 36 (leBytes 6 grid ++ placeBytes seg off ++ leBytes 2 stored)
  | .steward what a b c => padTo 36 (leBytes 4 what ++ leBytes 8 a ++ leBytes 8 b ++ leBytes 8 c)

/-- R325: the 64 bytes of a journal record. -/
def JRec.bytes (r : JRec) : List Byte :=
  withCrc (leBytes 1 r.body.type ++ leBytes 1 r.body.flags ++ leBytes 1 r.home ++ leBytes 1 0 ++
    leBytes 2 r.order ++ leBytes 2 0 ++ leBytes 8 r.seq ++ leBytes 8 r.admitBeat ++ r.body.bytes)

/-- R326: the body that a record's bytes hold; a reserved TYPE has none. -/
def decodeBody (bs : List Byte) : Option JBody :=
  let f := leField bs
  match f 0 1 with
  | 0x00 => some (.ringHead (f 24 2) (f 28 4) (f 32 2))
  | 0x01 => some (.insert (f 24 4) (f 28 5) (f 33 6) (decide (f 1 1 % 2 = 1)) (decide (f 1 1 / 2 % 2 = 1)))
  | 0x02 => some (.place (f 24 6) (f 30 4) (f 34 2) (f 36 2) (f 38 1 % 4) (decide (f 38 1 / 4 % 2 = 1))
      (f 40 2 % 4096) ((bs.drop 42).take 16))
  | 0x03 => some (.refcount (f 24 6) (intOf 4 (f 30 4)))
  | 0x04 => some (.remap (f 24 4) (f 28 5) (f 33 6) (f 39 6) (f 45 2))
  | 0x05 => some (.ret (f 24 6))
  | 0x06 => some (.nonceHwm (f 24 2 % 4096) (f 26 2 / 2 ^ 15) (f 26 2 % 2 ^ 15) (f 28 8))
  | 0x07 => some (.snapshot (f 24 4) (f 28 4) (f 32 2) (f 36 8))
  | 0x08 => some (.treeDelete (f 24 4))
  | 0x09 => some (.segment (f 24 4) (f 28 1))
  | 0x0A => some (.relocate (f 24 6) (f 30 4) (f 34 2) (f 36 2))
  | 0x0B => some (.steward (f 24 4) (f 28 8) (f 36 8) (f 44 8))
  | _ => none

/-- R325, R326: a record from its 64 bytes; a reserved TYPE or a CRC that fails makes it bad. -/
def decodeJRec (bs : List Byte) : JRec :=
  let f := leField bs
  match decodeBody bs with
  | some b => ⟨f 2 1, f 4 2, f 8 8, f 16 8, b, crcGood (bs.take 64) && decide (64 ≤ bs.length)⟩
  | none => ⟨f 2 1, f 4 2, f 8 8, f 16 8, .ret 0, false⟩

/-! ### The ring -/

/-- R325: records per ring page. -/
def recsPerPage : Nat := 63

/-- R146: ring pages. -/
def ringPages : Nat := 65536

/-- Ring pages that hold records not yet released. -/
def Dev.ringUsed (d : Dev) : Nat := (d.mde.ring.length + recsPerPage - 1) / recsPerPage

/-- R329: no further record fits into the ring. -/
def Dev.ringFull (d : Dev) (n : Nat) : Bool := decide (ringPages * recsPerPage < d.mde.ring.length + n)

/-- R185, R329: GLB_CAL_JRNL follows the ring; above 75 % SPILL_BEHIND is set and the event raised. -/
def Dev.ringMark (d : Dev) : Dev :=
  let used := d.ringUsed
  let d1 := d.setFld Reg.GLB_CAL_JRNL_PAGES used
  if ringPages * 3 < used * 4 then
    if d1.flag Reg.MDE_STS_SPILL_BEHIND then d1
    else (d1.setFld Reg.MDE_STS_SPILL_BEHIND 1).raise 960 used 0 0
  else d1.setFld Reg.MDE_STS_SPILL_BEHIND 0

/-- Write one journal record (R325): it takes the next SEQ. Answers the record as well. -/
def Dev.journalRec (d : Dev) (home order admitBeat : Nat) (body : JBody) : JRec × Dev :=
  let r : JRec := ⟨home, order, d.fld Reg.MDE_JSEQ_NEXT_SEQ, admitBeat, body, true⟩
  let d1 := { d with mde := { d.mde with ring := d.mde.ring ++ [r] } }.setFld Reg.MDE_JSEQ_NEXT_SEQ (r.seq + 1)
  -- R326: RING_HEAD of the page that this record opens
  let d2 := d1.cond (decide (r.seq % recsPerPage = 0)) (fun d =>
    { d with mde := { d.mde with heads := d.mde.heads ++ [(r.seq / recsPerPage, d.mde.prevRun)] } })
  (r, d2.ringMark)

/-- R325: a record that no command caused; HOME, ORDER and ADMIT_BEAT are 0. It goes to the peer at the next edge. -/
def Dev.journal (d : Dev) (body : JBody) : Dev :=
  let (r, d1) := d.journalRec 0 0 0 body
  { d1 with mde := { d1.mde with loose := d1.mde.loose ++ [r] } }

/-- Put a record into a list of records in the order of SEQ; one with the same SEQ is replaced. -/
def recIns (r : JRec) : List JRec → List JRec
  | [] => [r]
  | x :: t => if r.seq < x.seq then r :: x :: t else if r.seq = x.seq then r :: t else x :: recIns r t

end Sys2Proof.Machine
end

