-- ==== Sys2Proof/Machine/Outer.lean ====
section
/-! DEFINITION. The outer code of a segment over GF(2^8): parity and the solve of erased strips (R284 to R286). -/
namespace Sys2Proof.Machine

/-- R284: `gf_mul`; `n` counts the bits of the second factor still to use. -/
def gfMulAux : Nat → Nat → Nat → Nat
  | 0, _, _ => 0
  | n + 1, a, b =>
    let a2 := if 256 ≤ 2 * a then Nat.xor (2 * a) 0x11D else 2 * a
    Nat.xor (if b % 2 = 1 then a else 0) (gfMulAux n a2 (b / 2))

def gfMul (a b : Nat) : Nat := gfMulAux 8 a b

/-- R284: `gf_inv`, a^254. -/
def gfInv (a : Nat) : Nat :=
  let a2 := gfMul a a
  let a4 := gfMul a2 a2
  let a8 := gfMul a4 a4
  let a16 := gfMul a8 a8
  let a32 := gfMul a16 a16
  let a64 := gfMul a32 a32
  let a128 := gfMul a64 a64
  gfMul a2 (gfMul a4 (gfMul a8 (gfMul a16 (gfMul a32 (gfMul a64 a128)))))

/-- R284: the coefficient of data strip j in parity row i. -/
def coef (i j : Nat) : Nat := gfMul (4 + j) (gfInv (Nat.xor i (4 + j)))

/-- XOR of a list of numbers. -/
def xorSum (l : List Nat) : Nat := l.foldl Nat.xor 0

/-- R284: one byte of parity row i over the bytes of the data strips. -/
def parityByte (i : Nat) (col : List Nat) : Nat := xorSum (col.zipIdx.map (fun (x : Nat × Nat) => gfMul (coef i x.2) x.1))

/-- The bytes of all strips at one position. -/
def column (strips : List (List Byte)) (b : Nat) : List Nat := strips.map (fun s => (s.getD b 0).toNat)

/-- R284: parity row i over `n` bytes of the data strips. -/
def parityStrip (i n : Nat) (data : List (List Byte)) : List Byte :=
  (List.range n).map (fun b => BitVec.ofNat 8 (parityByte i (column data b)))

/-- Scale a row. -/
def rowMul (f : Nat) (r : List Nat) : List Nat := r.map (gfMul f)

/-- Add a multiple of a row to another. -/
def rowAdd (g : Nat) (p r : List Nat) : List Nat := (r.zip p).map (fun (x : Nat × Nat) => Nat.xor x.1 (gfMul g x.2))

/-- R286: one column of `gauss`, on rows augmented by their right side. -/
def gaussCol (c : Nat) (rows : List (List Nat)) : List (List Nat) :=
  match ((List.range rows.length).filter (fun r => decide (c ≤ r) && decide ((rows.getD r []).getD c 0 ≠ 0))).head? with
  | none => rows
  | some p =>
    let sw := (rows.set c (rows.getD p [])).set p (rows.getD c [])
    let piv := rowMul (gfInv ((sw.getD c []).getD c 0)) (sw.getD c [])
    (sw.set c piv).zipIdx.map (fun (x : List Nat × Nat) => if x.2 = c then x.1 else rowAdd (x.1.getD c 0) piv x.1)

/-- R286: `gauss`: the solution of an augmented system. -/
def gauss (rows : List (List Nat)) : List Nat :=
  let n := rows.length
  ((List.range n).foldl (fun rs c => gaussCol c rs) rows).map (fun r => r.getD n 0)

/-- R286: the data strips of E, ascending. -/
def dataOf (k : Nat) (e : List Nat) : List Nat := (List.range k).filter (fun j => e.contains j)

/-- R286: the parity rows that a solve uses. -/
def solveRows (k m : Nat) (e : List Nat) : List Nat :=
  ((List.range m).filter (fun i => !(e.contains (k + i)))).take (dataOf k e).length

/-- R286: the bytes of the erased data strips at one position. -/
def solveByte (k m : Nat) (e : List Nat) (col : List Nat) : List Nat :=
  let l := dataOf k e
  gauss ((solveRows k m e).map (fun i =>
    l.map (fun t => coef i t) ++
      [Nat.xor (col.getD (k + i) 0)
        (xorSum (((List.range k).filter (fun j => !(l.contains j))).map (fun j => gfMul (coef i j) (col.getD j 0))))]))

/-- R286: rebuild the strips of E over `n` bytes; parity strips of E are computed again from the data. -/
def solve (k m n : Nat) (e : List Nat) (strips : List (List Byte)) : List (List Byte) :=
  let l := dataOf k e
  let xs := (List.range n).map (fun b => solveByte k m e (column strips b))
  let data := (List.range k).map (fun j =>
    match l.idxOf? j with
    | some t => xs.map (fun x => BitVec.ofNat 8 (x.getD t 0))
    | none => strips.getD j [])
  data ++ (List.range m).map (fun i => if e.contains (k + i) then parityStrip i n data else strips.getD (k + i) [])

end Sys2Proof.Machine
end

