-- ==== Sys2Proof/Machine/Sinter.lean ====
section
/-! DEFINITION. The Sinter compressed format: the decoder of R231 and what a compressor's frame must meet (R222 to R234). -/
namespace Sys2Proof.Machine

/-- How a decode ends (R231). -/
inductive Decoded where
  | ok (out : List Byte)
  | malformed
  | crcMismatch
deriving DecidableEq, Repr

/-- R227: an extension value and the bytes after it. -/
def sinterExt : List Byte → Option (Nat × List Byte)
  | [] => none
  | b0 :: t =>
    if b0.toNat < 128 then some (b0.toNat, t)
    else match t with
      | [] => none
      | b1 :: u => if b1 = 0 then none else some (b0.toNat % 128 + 128 * b1.toNat, u)

/-- R226: the length of a token of a kind with length field `n`, and the bytes after it. -/
def sinterLen (kind n : Nat) (t : List Byte) : Option (Nat × List Byte) :=
  let base := if kind = 0 then 1 else if kind = 1 then 3 else 4
  if n < 63 then some (n + base, t)
  else match sinterExt t with
    | none => none
    | some (x, u) => some (63 + base + x, u)

/-- R229: copy `n` bytes from distance `d` back; `out` holds the bytes produced, the newest first. -/
def sinterCopy (d : Nat) : Nat → List Byte → List Byte
  | 0, out => out
  | n + 1, out => sinterCopy d n (out.getD (d - 1) 0 :: out)

/-- R231: the token loop. `out` holds the bytes produced, the newest first; `fuel` bounds the tokens. A failure tells how many bytes came before the
token that breaks a rule (R233). -/
def sinterBody (g : Nat) : Nat → List Byte → List Byte → Except Nat (List Byte)
  | 0, _, out => .error out.length
  | _ + 1, [], out => .error out.length
  | fuel + 1, t :: rest, out =>
    if t = 0xC0 then (if rest.isEmpty ∧ out.length = g then .ok out else .error out.length)
    else if 0xC0 < t.toNat then .error out.length
    else
      let kind := t.toNat / 64
      match sinterLen kind (t.toNat % 64) rest with
      | none => .error out.length
      | some (len, r1) =>
        if g < out.length + len then .error out.length
        else if kind = 0 then
          if r1.length < len then .error out.length
          else sinterBody g fuel (r1.drop len) ((r1.take len).reverse ++ out)
        else if kind = 1 then
          match r1 with
          | [] => .error out.length
          | v :: r2 => sinterBody g fuel r2 (List.replicate len v ++ out)
        else
          match r1 with
          | o0 :: o1 :: r2 =>
            let o := o0.toNat + 256 * o1.toNat
            if 32768 ≤ o then .error out.length
            else if out.length < o + 1 then .error out.length
            else sinterBody g fuel r2 (sinterCopy (o + 1) len out)
          | _ => .error out.length

/-- R231: the header of a frame for a grain of `g` bytes is good. -/
def sinterHead (fr : List Byte) (g : Nat) : Bool :=
  decide (14 ≤ fr.length) && decide (leField fr 0 2 = 0x53E1) && decide (leField fr 2 1 = 1) && decide (leField fr 3 1 < 32) &&
    decide (leField fr 6 2 = 0) && decide (4096 * 2 ^ (leField fr 3 1 % 4) = g) && decide (12 + leField fr 4 2 = fr.length)

/-- The token loop over a frame's body. -/
def sinterRun (fr : List Byte) (g : Nat) : Except Nat (List Byte) := sinterBody g (g + 1) ((fr.drop 8).take (leField fr 4 2)) []

/-- R231: decode a frame for a grain of `g` bytes. -/
def sinterDecode (fr : List Byte) (g : Nat) : Decoded :=
  if sinterHead fr g = false then .malformed
  else match sinterRun fr g with
    | .error _ => .malformed
    | .ok out => if (crc32c out.reverse).toNat = leField fr (8 + leField fr 4 2) 4 then .ok out.reverse else .crcMismatch

/-- R233: the output bytes whose beats a decode takes: all of them, or up to the token that breaks a rule; a header failure takes one beat. -/
def sinterReach (fr : List Byte) (g : Nat) : Nat :=
  if sinterHead fr g = false then 1
  else match sinterRun fr g with
    | .error n => n + 1
    | .ok _ => g

/-- R223: LEVEL of a frame. -/
def frameLevel (fr : List Byte) : Nat := leField fr 3 1 / 4 % 8

/-- Tags of a body, token by token, for the level-0 rule of R234. -/
def sinterTags (fuel : Nat) (body : List Byte) : List Nat :=
  match fuel, body with
  | fuel + 1, t :: rest =>
    let kind := t.toNat / 64
    if 0xC0 ≤ t.toNat then [t.toNat]
    else match sinterLen kind (t.toNat % 64) rest with
      | none => [t.toNat]
      | some (len, r1) => t.toNat :: sinterTags fuel (r1.drop (if kind = 0 then len else if kind = 1 then 1 else 2))
  | _, _ => []

/-- R234: a frame that a compressor may release at a level. -/
def frameAllowed (fr : List Byte) (level g : Nat) : Bool :=
  decide (frameLevel fr = level) && decide (fr.length ≤ g - 64) &&
    (decide (level ≠ 0) || (sinterTags (fr.length) ((fr.drop 8).take (leField fr 4 2))).all (fun t => decide (t < 128 ∨ t = 0xC0)))

end Sys2Proof.Machine
end

