-- ==== Sys2Proof/Machine/Segment.lean ====
section
/-! DEFINITION. The bytes of a segment: record headers, manifest parts, the descriptor and the summary, and the checks that a
reader makes of them (R246, R254, R272 to R283, R294, R295). -/
namespace Sys2Proof.Machine

/-- R266: bytes of a strip, of a unit, and units of a strip. -/
def stripBytes : Nat := 262144
def unitBytes : Nat := 512
def stripUnits : Nat := 512

/-- R273: units of a record with `n` stored bytes. -/
def unitsOf (n : Nat) : Nat := (64 + n + 511) / 512

/-- R269: the offset in the data area of unit u of strip s. -/
def offsetOf (strip unit : Nat) : Nat := 512 * strip + unit

/-! ### Records -/

def tyData : Nat := 1
def tyMeta : Nat := 2
def tyManifest : Nat := 3
def tySummary : Nat := 4

/-- R246: a nonce in storage order. -/
def nonceBytes (slot head gen ctr : Nat) : List Byte :=
  leBytes 8 ctr ++ leBytes 2 (gen + 2 ^ 15 * head) ++ leBytes 2 slot

/-- R274: SYNC. -/
def syncWord : List Byte := [0xC2, 0x5B, 0x96, 0x0F, 0xD4, 0xE1, 0x3C, 0x7A]

/-- R274: bytes 0 to 43 of a header. -/
def headBytes (typ flags strip seg id off lsize slen : Nat) (nonce : List Byte) : List Byte :=
  syncWord ++ leBytes 1 typ ++ leBytes 1 flags ++ leBytes 1 1 ++ leBytes 1 strip ++ leBytes 4 seg ++ leBytes 6 id ++
    leBytes 2 off ++ leBytes 4 lsize ++ leBytes 4 slen ++ nonce

/-- R254, R274: a whole record: header with tag and HCRC, then the stored bytes, then zeros to a unit boundary. -/
def sealBytes (key : List Byte) (gmac : Bool) (head nonce stored : List Byte) : List Byte :=
  let ks := aesKeys key
  let aad := head ++ List.replicate 20 0
  let body := if gmac then stored else gcmCrypt ks nonce stored
  let tag := if gmac then gcmTag ks nonce (aad ++ stored) [] else gcmTag ks nonce aad body
  padTo (512 * unitsOf stored.length) (withCrc (head ++ tag) ++ body)

/-- A header's fields (R274). -/
structure RecHdr where
  typ : Nat
  flags : Nat
  strip : Nat
  seg : Nat
  id : Nat
  off : Nat
  lsize : Nat
  slen : Nat
  nonce : List Byte
  tag : List Byte
deriving DecidableEq, Repr

/-- R275: the fields of a header agree with its TYPE. -/
def hdrAgrees (h : RecHdr) : Bool :=
  let raw := h.flags % 2
  let gmac := h.flags / 2 % 2
  if h.typ = tyData then
    decide (h.lsize ∈ [4096, 8192, 16384, 32768]) && decide (gmac = 0) &&
      (if raw = 1 then decide (h.slen = h.lsize) else decide (14 ≤ h.slen) && decide (h.slen + 64 ≤ h.lsize))
  else if h.typ = tyMeta then decide (h.lsize = 4096) && decide (h.slen = 4096) && decide (raw = 0)
  else if h.typ = tyManifest then
    decide (h.id = 0) && decide (h.lsize = h.slen) && decide (16 ≤ h.slen) && decide ((h.slen - 16) % 32 = 0) && decide (raw = 0)
  else if h.typ = tySummary then
    decide (h.id = 0) && decide (h.lsize = h.slen) && decide (256 ≤ h.slen) && decide ((h.slen - 256) % 4 = 0) && decide (raw = 0)
  else false

/-- R276: the header at the start of `bs`, found at unit u of strip s of a segment, when it is valid. -/
def headerAt (seg strip unit : Nat) (bs : List Byte) : Option RecHdr :=
  let f := leField bs
  let h : RecHdr := ⟨f 8 1, f 9 1, f 11 1, f 12 4, f 16 6, f 22 2, f 24 4, f 28 4, (bs.drop 32).take 12, (bs.drop 44).take 16⟩
  if bs.take 8 = syncWord ∧ crcGood (bs.take 64) = true ∧ f 10 1 = 1 ∧ 1 ≤ h.typ ∧ h.typ ≤ 4 ∧ h.flags < 4 ∧ h.off < 2 ^ 14 ∧
      h.seg = seg ∧ h.strip = strip ∧ h.off = offsetOf strip unit ∧ unit + unitsOf h.slen ≤ 512 ∧ hdrAgrees h = true
  then some h else none

/-- R256: how opening a record ends. -/
inductive Opened where
  | ok (bs : List Byte)
  | tagMismatch
  | keyErased
deriving DecidableEq, Repr

/-- R254, R256: open a record's bytes under the keys that `keyOf` gives (generation and key of a slot that is not EMPTY). -/
def openBytes (keyOf : Nat → Option (Nat × List Byte)) (h : RecHdr) (bs : List Byte) : Opened :=
  let slot := leField h.nonce 10 2
  if 4096 ≤ slot then .tagMismatch
  else match keyOf slot with
    | none => .keyErased
    | some (gen, key) =>
      if leField h.nonce 8 2 % 2 ^ 15 ≠ gen then .keyErased
      else
        let ks := aesKeys key
        let stored := (bs.drop 64).take h.slen
        let aad := bs.take 44 ++ List.replicate 20 0
        let gmac := decide (h.flags / 2 % 2 = 1)
        let tag := if gmac then gcmTag ks h.nonce (aad ++ stored) [] else gcmTag ks h.nonce aad stored
        if tag ≠ h.tag then .tagMismatch else .ok (if gmac then stored else gcmCrypt ks h.nonce stored)

/-! ### Descriptor, manifest parts, summary (R272, R278, R279) -/

/-- A segment's descriptor (R272). -/
structure SegDesc where
  seg : Nat
  k : Nat
  m : Nat
  kind : Nat
  openBeat : Nat
  records : Nat
  strips : List (Nat × Nat)
deriving DecidableEq, Repr

/-- R272: the 256 bytes of a descriptor; DCRC is taken over them with its own bytes zero. -/
def SegDesc.bytes (x : SegDesc) : List Byte :=
  let a := leBytes 4 x.seg ++ leBytes 1 x.k ++ leBytes 1 x.m ++ leBytes 1 x.kind ++ leBytes 1 1 ++ leBytes 8 x.openBeat ++
    leBytes 2 x.records ++ List.replicate 10 0
  let strip (i : Nat) : List Byte := match x.strips[i]? with
    | some s => leBytes 1 s.1 ++ leBytes 6 s.2
    | none => leBytes 1 0xFF ++ leBytes 6 0
  let b := (List.range 32).flatMap strip
  a ++ leBytes 4 (crc32c (a ++ [0, 0, 0, 0] ++ b)).toNat ++ b

/-- R272: a descriptor from its bytes, when its DCRC is right. -/
def descOf (bs : List Byte) : Option SegDesc :=
  let f := leField bs
  let k := f 4 1
  let m := f 5 1
  if (crc32c (bs.take 28 ++ [0, 0, 0, 0] ++ (bs.take 256).drop 32)).toNat = f 28 4 ∧ 256 ≤ bs.length then
    some ⟨f 0 4, k, m, f 6 1, f 8 8, f 16 2, (List.range (k + m)).map (fun s => (f (32 + 7 * s) 1, f (33 + 7 * s) 6))⟩
  else none

/-- R278: an entry of a manifest part. -/
def ManEntry.bytes (e : ManEntry) : List Byte :=
  padTo 16 e.fp ++ leBytes 6 e.grid ++ leBytes 2 (e.off + 2 ^ 14 * e.gsize) ++ leBytes 2 e.kslot ++
    leBytes 2 (e.gen + (if e.raw then 2 ^ 15 else 0)) ++ leBytes 4 e.slen

/-- R278: the stored bytes of a manifest part. -/
def manBytes (seg strip : Nat) (es : List ManEntry) : List Byte :=
  leBytes 4 seg ++ leBytes 1 strip ++ leBytes 1 0 ++ leBytes 2 es.length ++ leBytes 8 0 ++ es.flatMap ManEntry.bytes

/-- R278: the entries of a manifest part. -/
def manOf (bs : List Byte) : List ManEntry :=
  (List.range (leField bs 6 2)).map (fun i =>
    let f (o n : Nat) : Nat := leField bs (16 + 32 * i + o) n
    ⟨(bs.drop (16 + 32 * i)).take 16, f 16 6, f 22 2 % 2 ^ 14, f 22 2 / 2 ^ 14, f 24 2 % 2 ^ 12, f 26 2 % 2 ^ 15,
      decide (f 26 2 / 2 ^ 15 = 1), f 28 4⟩)

/-- A grain whose fingerprint bits [4:0] are zero is a hook. -/
def isHook (fp : List Byte) : Bool := decide (leNat fp % 32 = 0)

/-- R279: the stored bytes of a summary over records given as offset, TYPE and UNITS, ascending. -/
def sumBytes (x : SegDesc) (recs : List (Nat × Nat × Nat)) : List Byte :=
  x.bytes ++ recs.flatMap (fun r => leBytes 4 (r.1 + 2 ^ 14 * r.2.1 + 2 ^ 18 * r.2.2))

/-- R279: the record map of a summary's stored bytes. -/
def sumRecs (bs : List Byte) : List (Nat × Nat × Nat) :=
  (List.range ((bs.length - 256) / 4)).map (fun i =>
    let w := leField bs (256 + 4 * i) 4
    (w % 2 ^ 14, w / 2 ^ 14 % 16, w / 2 ^ 18))

/-! ### Reading a segment (R280, R281, R294) -/

/-- The bytes of a strip from unit u. -/
def atUnit (strip : List Byte) (u : Nat) : List Byte := strip.drop (512 * u)

/-- R280: the summary's stored bytes in strip k − 1; its unit too. -/
def findSummary (keyOf : Nat → Option (Nat × List Byte)) (seg k : Nat) (strip : List Byte) : Option (Nat × List Byte) :=
  ((List.range 113).map (fun i => 511 - i)).findSome? (fun u =>
    match headerAt seg (k - 1) u (atUnit strip u) with
    | some h =>
      if h.typ = tySummary ∧ u + unitsOf h.slen = 512 then
        match openBytes keyOf h (atUnit strip u) with
        | .ok bs => if (descOf bs).isSome then some (u, bs) else none
        | _ => none
      else none
    | none => none)

/-- R281: the header of a listed record, when it is valid and agrees with its entry. -/
def listedHeader (seg : Nat) (strips : List (List Byte)) (r : Nat × Nat × Nat) : Option RecHdr :=
  match headerAt seg (r.1 / 512) (r.1 % 512) (atUnit (strips.getD (r.1 / 512) []) (r.1 % 512)) with
  | some h => if h.typ = r.2.1 ∧ unitsOf h.slen = r.2.2 then some h else none
  | none => none

/-- R282: a strip, or `bs` of it from unit `base` on, scanned without a summary: the unit in `bs` and the header of each
record found, and how many units were unparsed. -/
def scanStrip (seg s base : Nat) (bs : List Byte) : Nat → Nat → List (Nat × RecHdr) × Nat
  | 0, _ => ([], 0)
  | fuel + 1, u =>
    if bs.length ≤ 512 * u then ([], 0)
    else match headerAt seg s (base + u) (atUnit bs u) with
      | some h =>
        let r := scanStrip seg s base bs fuel (u + unitsOf h.slen)
        ((u, h) :: r.1, r.2)
      | none =>
        let r := scanStrip seg s base bs fuel (u + 1)
        if ((atUnit bs u).take 512).all (fun b => b = 0) then r else (r.1, r.2 + 1)

/-- R273: whether every byte of a strip outside its records' stored bytes is zero; `used` gives unit and bytes of each record. -/
def paddingZero (strip : List Byte) (used : List (Nat × Nat)) : Bool :=
  strip.zipIdx.all (fun (x : Byte × Nat) => decide (x.1 = 0) ||
    used.any (fun r => decide (512 * r.1 ≤ x.2) && decide (x.2 < 512 * r.1 + r.2)))

/-- R295: result codes. -/
def vrVerified : Nat := 0
def vrHeader : Nat := 1
def vrTag : Nat := 2
def vrParity : Nat := 3
def vrRead : Nat := 4
def vrManifest : Nat := 5
def vrUnreachable : Nat := 6

/-- What the checks of R294 find: the result, the first failing strip, the grain record IDs whose key is erased,
and those of every data record listed. -/
structure SegVerdict where
  result : Nat
  strip : Nat
  erased : List Nat
  grids : List Nat
deriving DecidableEq, Repr

/-- The first index at which a list's element satisfies `p`. -/
def firstIdx {α : Type} (p : α → Bool) (l : List α) : Option Nat := ((l.zipIdx).find? (fun x => p x.1)).map (·.2)

/-- R294: the checks of a whole segment on strips that were all read. -/
def checkStrips (keyOf : Nat → Option (Nat × List Byte)) (x : SegDesc) (strips : List (List Byte)) : SegVerdict :=
  match findSummary keyOf x.seg x.k (strips.getD (x.k - 1) []) with
  | none => ⟨vrHeader, x.k - 1, [], []⟩
  | some (_, sb) =>
    let list := sumRecs sb
    match list.find? (fun r => (listedHeader x.seg strips r).isNone) with
    | some r => ⟨vrHeader, r.1 / 512, [], []⟩
    | none =>
      let recs := list.filterMap (fun r => (listedHeader x.seg strips r).map (fun h =>
        (r.1, h, openBytes keyOf h (atUnit (strips.getD (r.1 / 512) []) (r.1 % 512)))))
      let erased := recs.filterMap (fun r => if r.2.2 = .keyErased ∧ r.2.1.typ = tyData then some r.2.1.id else none)
      let grids := (recs.filter (fun r => decide (r.2.1.typ = tyData))).map (fun r => r.2.1.id)
      match recs.find? (fun r => decide (r.2.2 = Opened.tagMismatch)) with
      | some r => ⟨vrTag, r.1 / 512, erased, grids⟩
      | none =>
        let mans := recs.flatMap (fun r => match r.2.2 with
          | .ok bs => if r.2.1.typ = tyManifest then manOf bs else []
          | _ => [])
        let unlisted := recs.find? (fun r => decide (r.2.1.typ = tyData) && !(mans.any (fun e =>
          decide (e.grid = r.2.1.id) && decide (e.off = r.1) && decide (e.slen = r.2.1.slen))))
        let padded := (List.range x.k).find? (fun s => !(paddingZero (strips.getD s [])
          ((recs.filter (fun r => decide (r.1 / 512 = s))).map (fun r => (r.1 % 512, 64 + r.2.1.slen)))))
        match unlisted, padded with
        | some r, _ => ⟨vrManifest, r.1 / 512, erased, grids⟩
        | none, some s => ⟨vrManifest, s, erased, grids⟩
        | none, none =>
          match (List.range x.m).find? (fun i => decide (parityStrip i stripBytes (strips.take x.k) ≠ strips.getD (x.k + i) [])) with
          | some i => ⟨vrParity, x.k + i, erased, grids⟩
          | none => ⟨vrVerified, 0, erased, grids⟩

/-- R294, R295: verify a segment from what its strips' reads gave. -/
def verifyStrips (keyOf : Nat → Option (Nat × List Byte)) (x : SegDesc) (reads : List StripRead) : SegVerdict :=
  match firstIdx (fun r => decide (r = StripRead.unreachable)) reads, firstIdx (fun r => decide (r = StripRead.readError)) reads with
  | some i, _ => ⟨vrUnreachable, i, [], []⟩
  | none, some i => ⟨vrRead, i, [], []⟩
  | none, none => checkStrips keyOf x (reads.map (fun r => match r with
      | .bytes bs => bs
      | _ => []))

end Sys2Proof.Machine
end

