-- ==== Sys2Proof/Machine/Maps.lean ====
section
/-! DEFINITION. Map trees, their copy-on-write, and grain records (R306 to R324). -/
namespace Sys2Proof.Machine

/-! ### Extents (R310, R311) -/

/-- R310: the KEY of an extent that starts at 4 KiB unit `off` and holds 2^gsize units. -/
def keyOf (off gsize : Nat) : Nat := off * 4 + (3 - gsize)

/-- The starting unit and the number of units of a KEY. -/
def keyStart (key : Nat) : Nat := key / 4
def keyParts (key : Nat) : Nat := 2 ^ (3 - key % 4)

/-- Extent `a` lies wholly inside extent `b`. -/
def keyInside (a b : Nat) : Bool :=
  decide (keyStart b ≤ keyStart a) && decide (keyStart a + keyParts a ≤ keyStart b + keyParts b)

/-- R311: the SHADOW bits that extent `x` sets in the larger extent `e`. -/
def shadowBits (e x : Nat) : Nat := (2 ^ keyParts x - 1) * 2 ^ (keyStart x - keyStart e)

/-- R311: every part of an entry is shadowed. -/
def allShadowed (e : LeafEnt) : Bool := decide (e.shadow = 2 ^ keyParts e.key - 1)

/-- Put an entry in ascending KEY. -/
def entIns (x : LeafEnt) : List LeafEnt → List LeafEnt
  | [] => [x]
  | e :: t => if x.key < e.key then x :: e :: t else e :: entIns x t

/-- R311: insert extent `key` with record `grid` into a leaf. Answers the entries, and the record IDs of the
entries removed. -/
def leafInsert (ents : List LeafEnt) (key grid : Nat) : List LeafEnt × List Nat :=
  let gone := ents.filter (fun e => keyInside e.key key)
  let kept := (ents.filter (fun e => !keyInside e.key key)).map (fun e =>
    if keyInside key e.key then { e with shadow := Nat.lor e.shadow (shadowBits e.key key) } else e)
  let full := kept.filter (fun e => keyInside key e.key && allShadowed e)
  let rest := kept.filter (fun e => !(keyInside key e.key && allShadowed e))
  let all := entIns ⟨key, 0, grid⟩ rest
  -- a zero is kept only inside an entry that holds data
  let out := all.filter (fun e => decide (e.grid ≠ 0) || all.any (fun x => decide (x.grid ≠ 0) && decide (x.key ≠ e.key) && keyInside e.key x.key))
  (out, ((gone ++ full).map (·.grid)).filter (fun g => decide (g ≠ 0)))

/-- R311: the smallest entry that covers 4 KiB unit `blk`. -/
def leafLookup (ents : List LeafEnt) (blk : Nat) : Option LeafEnt :=
  (ents.filter (fun e => decide (keyStart e.key ≤ blk) && decide (blk < keyStart e.key + keyParts e.key))).foldl
    (fun best e => match best with
      | none => some e
      | some b => if keyParts e.key < keyParts b.key then some e else some b) none

/-! ### Reference counts (R314, R315) -/

/-- R312, R314: this head holds the record for update. -/
def Dev.holds (d : Dev) (grid : Nat) : Bool := if grid / 2 ^ 47 = d.slotId then !d.mde.ownGone else d.mde.peerHeld

/-- R315: a count that never changes again. -/
def permanentCount : Nat := 2 ^ 32 - 1

/-- R315, R338: units of a segment that are live no more. -/
def Dev.dropUnits (d : Dev) (seg n : Nat) : Dev :=
  if seg = 0 then d
  else d.updSegEnt seg (fun s => { s with live := s.live - n, emptyEpoch := if s.live ≤ n then d.epoch + 1 else 0 })

/-- R315, R338: units of a segment that hold a live record. -/
def Dev.addUnits (d : Dev) (seg n : Nat) : Dev := d.updSegEnt seg (fun s => { s with live := s.live + n, emptyEpoch := 0 })

/-- R315: change the count of a record that this head holds. A count that reaches 0 makes the record DEAD and
takes its units off its segment; one that reaches the top is permanent. -/
def Dev.refLocal (d : Dev) (grid : Nat) (delta : Int) : Dev :=
  let r := d.grec grid
  if r.refs = permanentCount ∨ r.damaged then
    d.cond r.damaged (fun d => d.bumpSat Reg.MDE_DISCARDED_COUNT 1)
  else
    let n := min ((r.refs : Int) + delta).toNat permanentCount
    let d1 := d.updGrec grid (fun r => { r with refs := n })
    let d2 := d1.cond (decide (n = permanentCount)) (fun d => d.raise 966 grid (grid / 2 ^ 32) 0)
    d2.cond (decide (n = 0 ∧ r.state ≠ .dead ∧ r.state ≠ .free)) (fun d =>
      let d := d.updGrec grid (fun r => { r with state := .dead })
      let d := d.cond (decide (r.state = .placed)) (fun d => d.dropUnits r.seg (unitsOf r.stored))
      { d with mde := { d.mde with dying := d.mde.dying ++ [(grid, 0)] } })

/-- R314, R458: a change to a record that the peer holds waits in the remote queue until the peer
acknowledges it; it is sent while the link is UP. -/
def Dev.refRemote (d : Dev) (grid : Nat) (delta : Int) : Dev :=
  let rs := d.mde.rseqNext
  let up := d.linkSends
  let d1 := { d with
    mde := { d.mde with
    rseqNext := rs + 1, remote := d.mde.remote ++ [RemoteRef.mk rs grid delta up] } }
  let d2 := d1.setFld Reg.CDX_REMOTE_RECORDS d1.mde.remote.length
  if up then d2.emit (.link (.refcount rs [(grid, delta)]))
  else if d2.flag Reg.MDE_STS_REMOTE_HELD then d2
  else (d2.setFld Reg.MDE_STS_REMOTE_HELD 1).raise 969 d2.mde.remote.length 0 0

/-- Change a record's reference count, here or at the peer. GRID 0 names no record. -/
def Dev.ref (d : Dev) (grid : Nat) (delta : Int) : Dev :=
  if grid = 0 then d else if d.holds grid then d.refLocal grid delta else d.refRemote grid delta

/-- Drop one reference of each record in a list. -/
def Dev.unref (d : Dev) (gs : List Nat) : Dev := d.each gs (fun g d => d.ref g (-1))

/-! ### Pages and copy-on-write (R318) -/

/-- R308, R309: entries that a page holds. -/
def pageMax : Nat := 254

/-- R309, R467: the volume whose group a tree belongs to: its own number, or its source's. -/
def Dev.treeVol (d : Dev) (t : Nat) : Nat → Nat
  | 0 => t
  | fuel + 1 => if t < Config.volumes ∨ (d.tree t).source = 0x1FFFFF then t else d.treeVol (d.tree t).source fuel

/-- R466, R467: a tree belongs to the other head's domain: the other slot is the home of its group. -/
def Dev.treeOther (d : Dev) (t : Nat) : Bool :=
  let g := (d.vol (d.treeVol t 4)).anaGrp
  decide (g ≠ 0) && decide (d.fld Reg.FOV_HOME_MASK / 2 ^ (g - 1) % 2 ≠ d.slotId)

/-- Map pages are kept by NUMBER; those of the other head's domain by NUMBER plus this. -/
def otherPages : Nat := 2 ^ 40

/-- A new page with SHARE 1, in the domain of its tree (R467), cleared by zero-line operations (R346). Answers its number. -/
def Dev.newPage (d : Dev) (p : MapPage) : Nat × Dev :=
  let n := d.mde.pageNext + (if d.treeOther p.tree then otherPages else 0)
  (n, { d with
      mde := { d.mde with
      pageNext := d.mde.pageNext + 1, pages := tput {} d.mde.pages n { p with share := 1, resident := true, damaged := false } } }.zeroPage n)

/-- R318: a page about to change. With SHARE above 1 it is copied: the copy has SHARE 1, the old page loses
one, and every child page or leaf record gains a reference. Answers the page to change. -/
def Dev.ownPage (d : Dev) (p : Nat) : Nat × Dev :=
  let pg := d.page p
  if pg.share ≤ 1 then (p, d)
  else
    let (n, d1) := d.newPage pg
    let d2 := (d1.updPage p (fun x => { x with share := x.share - 1 })).bump Reg.MDE_COPIES_COUNT 1
    let d3 := if pg.level = 0 then d2.each pg.ents (fun e d => d.ref e.grid 1)
      else d2.each pg.kids (fun k d => d.updPage k.2 (fun x => { x with share := x.share + 1 }))
    (n, d3)

/-- Where a leaf with too many entries is cut: the first 32 KiB region boundary at or after the middle, else
the last one before it (R310). -/
def splitAt (ents : List LeafEnt) : Nat :=
  let b (i : Nat) : Bool := match ents[i - 1]?, ents[i]? with
    | some x, some y => decide (keyStart x.key / 8 ≠ keyStart y.key / 8)
    | _, _ => false
  let cuts := (List.range ents.length).filter (fun i => decide (0 < i) && b i)
  match cuts.find? (fun i => decide (ents.length / 2 ≤ i)) with
  | some i => i
  | none => cuts.getLastD (ents.length / 2)

/-- Write a leaf's entries; one with more than a page holds is cut in two. Answers the pages that replace it,
each with its lowest KEY. -/
def Dev.putLeaf (d : Dev) (p : Nat) (ents : List LeafEnt) : List (Nat × Nat) × Dev :=
  let pg := d.page p
  if ents.length ≤ pageMax then
    ([(pg.low, p)], d.updPage p (fun x => { x with ents := ents }))
  else
    let i := splitAt ents
    let hi := ents.drop i
    let low := (hi.head?.map (·.key)).getD 0
    let d1 := d.updPage p (fun x => { x with ents := ents.take i })
    let (n, d2) := d1.newPage { pg with ents := hi, low := low }
    ([(pg.low, p), (low, n)], d2)

/-- Write an interior page's children, cutting it in two in the same way. -/
def Dev.putKids (d : Dev) (p : Nat) (kids : List (Nat × Nat)) : List (Nat × Nat) × Dev :=
  let pg := d.page p
  if kids.length ≤ pageMax then
    ([(pg.low, p)], d.updPage p (fun x => { x with kids := kids }))
  else
    let i := kids.length / 2
    let hi := kids.drop i
    let low := (hi.head?.map (·.1)).getD 0
    let d1 := d.updPage p (fun x => { x with kids := kids.take i })
    let (n, d2) := d1.newPage { pg with kids := hi, low := low }
    ([(pg.low, p), (low, n)], d2)

/-- R309: the child of an interior page that covers a KEY's region: the last whose lowest KEY is not above it. -/
def kidFor (kids : List (Nat × Nat)) (key : Nat) : Option (Nat × Nat) :=
  match kids.filter (fun k => decide (k.1 ≤ key)) with
  | [] => kids.head?
  | l => l.getLast?

/-- Replace one child by others. -/
def kidsReplace (kids : List (Nat × Nat)) (old : Nat) (new : List (Nat × Nat)) : List (Nat × Nat) :=
  kids.flatMap (fun k => if k.2 = old then new else [k])

/-- Insert into the tree below page `p`, copying shared pages on the way (R318). Answers the pages that
replace `p`. -/
def Dev.insertBelow (d : Dev) (p key grid : Nat) : Nat → List (Nat × Nat) × Dev
  | 0 => ([((d.page p).low, p)], d)
  | fuel + 1 =>
    let (q, d1) := d.ownPage p
    let pg := d1.page q
    if pg.level = 0 then
      let (ents, gone) := leafInsert pg.ents key grid
      (d1.unref gone).putLeaf q ents
    else
      match kidFor pg.kids (keyStart key / 8 * 8 * 4) with
      | none => ([(pg.low, q)], d1)
      | some k =>
        let (new, d2) := d1.insertBelow k.2 key grid fuel
        d2.putKids q (kidsReplace (d2.page q).kids k.2 new)

/-- The levels that a tree may have. -/
def maxDepth : Nat := 8

/-- Insert an extent into a tree; a tree without a root gets a leaf, and a root that is cut gets a page above. -/
def Dev.mapInsert (d : Dev) (tree key grid : Nat) : Dev :=
  let t := d.tree tree
  if t.root = 0 then
    if grid = 0 then d
    else
      let (n, d1) := d.newPage { level := 0, tree := tree, ents := [⟨key, 0, grid⟩] }
      d1.updTree tree (fun t => { t with root := n, depth := 1 })
  else
    match d.insertBelow t.root key grid (maxDepth + 1) with
    | ([(_, r)], d1) => d1.updTree tree (fun t => { t with root := r })
    | (l, d1) =>
      let (n, d2) := d1.newPage { level := t.depth, tree := tree, kids := l }
      d2.updTree tree (fun t => { t with root := n, depth := t.depth + 1 })

/-! ### Lookup (R317, R334, R335) -/

/-- What a lookup of one 4 KiB unit finds. -/
inductive Found where
  | zeros
  | ent (e : LeafEnt)
  | fault (page : Nat)
  | damaged
deriving DecidableEq, Repr

/-- R311, R317: walk from page `p` to the entry that covers unit `blk`. -/
def Dev.lookupBelow (d : Dev) (p blk : Nat) : Nat → Found
  | 0 => .zeros
  | fuel + 1 =>
    let pg := d.page p
    if pg.damaged then .damaged
    else if !pg.resident then .fault p
    else if pg.level = 0 then
      match leafLookup pg.ents blk with
      | none => .zeros
      | some e => if e.grid = 0 then .zeros else .ent e
    else
      match kidFor pg.kids (blk / 8 * 8 * 4) with
      | none => .zeros
      | some k => d.lookupBelow k.2 blk fuel

/-- Look a 4 KiB unit up in a tree. -/
def Dev.mapLookup (d : Dev) (tree blk : Nat) : Found :=
  let t := d.tree tree
  if t.state = .damaged then .damaged
  else if t.root = 0 then .zeros
  else d.lookupBelow t.root blk (maxDepth + 1)

/-- R317: the beats of a lookup over `depth` levels: a third of a beat for each level, rounded up over the
walk, one for the record, and 1 or 2 for each line that HBM3E or DDR5 had to supply. -/
def lookupBeats (depth hbmMisses ddrMisses : Nat) : Nat := (depth + 2) / 3 + 1 + hbmMisses + 2 * ddrMisses

/-! ### Sharing and deleting (R319 to R324) -/

/-- R319, R324: a page loses one of its SHARE; at 0 it waits for the cascade of tree `tree`. -/
def Dev.unshare (d : Dev) (p tree : Nat) : Dev :=
  if p = 0 then d
  else
    let d1 := d.updPage p (fun x => { x with share := x.share - 1 })
    if (d1.page p).share = 0 then { d1 with mde := { d1.mde with cascade := d1.mde.cascade ++ [(p, tree)] } } else d1

/-- R319: free one page of the cascade: its children lose a SHARE, its records a reference. -/
def Dev.freePage (d : Dev) : Dev :=
  match d.mde.cascade with
  | [] => d
  | (p, tree) :: rest =>
    let pg := d.page p
    let d1 := { d with mde := { d.mde with cascade := rest, pages := tput {} d.mde.pages p {} } }
    if pg.level = 0 then d1.unref (pg.ents.map (·.grid))
    else d1.each pg.kids (fun k d => d.unshare k.2 tree)

/-- R321, R323: tree `dst` becomes a share of tree `src`'s root. -/
def Dev.shareRoot (d : Dev) (dst src : Nat) : Dev :=
  let s := d.tree src
  let d1 := d.cond (decide (s.root ≠ 0)) (fun d => d.updPage s.root (fun x => { x with share := x.share + 1 }))
  d1.updTree dst (fun t => { t with state := .ready, root := s.root, depth := s.depth, source := src })

/-- R324: a tree enters DELETING and its root loses one SHARE. -/
def Dev.treeDrop (d : Dev) (tree : Nat) : Dev :=
  let d1 := (d.updTree tree (fun t => { t with state := .deleting, root := 0 })).unshare (d.tree tree).root tree
  let l := d1.mde.deleting.filter (fun t => decide (t ≠ tree)) ++ [tree]
  { d1 with mde := { d1.mde with deleting := l } }.setFld Reg.MDE_STS_DELETING (min l.length 65535)

/-- R324: delete a tree by a TREE_DELETE record. -/
def Dev.deleteTree (d : Dev) (tree : Nat) : Dev := (d.journal (.treeDelete tree)).treeDrop tree

/-! ### Free IDs (R312, R316) -/

/-- R312: the ID of entry `e`, from 1 to 127, of grain-record page `page` under a head's bit. -/
def gridOf (head page e : Nat) : Nat := head * 2 ^ 47 + page * 128 + e

/-- The IDs of a grain-record page never used. -/
def pageIds (head page : Nat) : List Nat := (List.range 127).map (fun i => gridOf head page (i + 1))

/-- New pages until a pool holds at least `want` IDs. -/
def Dev.refillNew (d : Dev) (s want : Nat) : Nat → Dev
  | 0 => d
  | fuel + 1 =>
    if want ≤ (d.pool s).length then d
    else
      let d1 := d.setPool s (d.pool s ++ pageIds d.slotId d.mde.grNext)
      ({ d1 with mde := { d1.mde with grNext := d1.mde.grNext + 1 } }).refillNew s want fuel

/-- ID_POOL_REFILL, R316: a pool below 1,024 is refilled, FREE entries first, then entries of pages never used. -/
def Dev.idPoolRefill (d : Dev) (s : Nat) : Dev :=
  if 1024 ≤ (d.pool s).length then d
  else
    let room := 4096 - (d.pool s).length
    let d1 := { d.setPool s (d.pool s ++ d.mde.freeIds.take room) with
      mde := { (d.setPool s (d.pool s ++ d.mde.freeIds.take room)).mde with freeIds := d.mde.freeIds.drop room } }
    (d1.refillNew s 1024 9).setFld (Reg.SLI_WPE_STS_ID_WAIT s) 0

/-- Draw an ID from a slice's pool. -/
def Dev.drawId (d : Dev) (s : Nat) : Option (Nat × Dev) :=
  match d.pool s with
  | [] => none
  | g :: rest => some (g, d.setPool s rest)

end Sys2Proof.Machine
end

