-- ==== Sys2Proof/Machine/Metadata.lean ====
section
/-! DEFINITION. The metadata engine's steps: applying the journal, sharing and deleting trees, checkpoints,
replay, page faults, relocation, and reference changes from the peer (R306 to R341, R458). -/
namespace Sys2Proof.Machine

/-! ### Applying records -/

/-- The order of admission (R154): beat, then home slice, then order on the slice. -/
def admitBefore (b1 h1 o1 b2 h2 o2 : Nat) : Bool :=
  decide (b1 < b2) || (decide (b1 = b2) && (decide (h1 < h2) || (decide (h1 = h2) && decide (o1 < o2))))

/-- Two extents overlap. -/
def keysMeet (a b : Nat) : Bool :=
  decide (keyStart a < keyStart b + keyParts b) && decide (keyStart b < keyStart a + keyParts a)

/-- A 4 KiB-unit KEY of a cutter grain. -/
def grainKey (g : Grain) : Nat :=
  keyOf (g.off / 4096) (if g.size = 4096 then 0 else if g.size = 8192 then 1 else if g.size = 16384 then 2 else 3)

/-- An admitted write-class command (R109) on a volume whose path has not begun: it still waits for its descriptors, for map pages or for room. -/
def Tag.storing (x : Tag) (v : Nat) : Bool :=
  decide (x.state = .running) && !x.begun && decide (x.vol = v) && (match x.cmd with
    | some c => decide (c.opcode ∈ [0x01, 0x08, 0x09, 0x19])
    | none => false)

/-- R139, R180: an older write-class command on a volume has not begun. Until it has, the map stays as that command is to find it. -/
def Dev.olderWaiting (d : Dev) (v admitBeat hm order : Nat) : Bool :=
  d.nvt.tags.any (fun e => e.2.storing v && admitBefore e.2.beat (e.1 / 8192) e.2.order admitBeat hm order)

/-- R180: a region group of an older command, not yet placed, overlaps the extent. -/
def Dev.olderUnplaced (d : Dev) (tree key admitBeat hm order : Nat) : Bool :=
  d.cal.groups.any (fun e => !e.2.placed && decide (e.2.vol = tree) &&
    admitBefore e.2.admitBeat (e.2.tag / 8192) e.2.order admitBeat hm order && e.2.grains.any (fun g => keysMeet (grainKey g) key))

/-- R180, R321, R334: an INSERT record may be applied: no older overlapping insert is pending, no snapshot of its volume waits with an effect beat at or
before its admission beat, and the map pages on its way are resident. -/
def Dev.insertReady (d : Dev) (r : JRec) : Bool :=
  match r.body with
  | .insert tree key _ _ _ =>
    !(d.mde.inserts.any (fun o => match o.body with
      | .insert t k _ _ _ => decide (t = tree) && keysMeet k key && decide (o.seq ≠ r.seq) &&
          admitBefore o.admitBeat o.home o.order r.admitBeat r.home r.order
      | _ => false)) &&
    !d.olderUnplaced tree key r.admitBeat r.home r.order && !d.olderWaiting tree r.admitBeat r.home r.order &&
    !(d.mde.snaps.any (fun s => decide (s.src = tree) && decide (s.beat ≤ r.admitBeat))) &&
    (match d.mapLookup tree (keyStart key) with
     | .fault _ => false
     | _ => true)
  | _ => false

/-- R316, R318: apply an INSERT. A newly drawn record becomes UNPLACED with one reference; ADDREF adds one to
an existing record; ZERO maps zeros. A DAMAGED tree takes nothing (R335). -/
def Dev.applyInsert (d : Dev) (tree key grid : Nat) (addref zero : Bool) : Dev :=
  if (d.tree tree).state = .damaged then d.bumpSat Reg.MDE_DISCARDED_COUNT 1
  else
    let d1 := if zero then d
      else if addref then d.ref grid 1
      else d.updGrec grid (fun g => { g with
        gsize := 3 - key % 4, refs := g.refs + 1, state := if g.state = .placed then .placed else .unplaced })
    (d1.mapInsert tree key (if zero then 0 else grid)).bump Reg.MDE_INSERTS_COUNT 1

/-- R327: the mark table keeps, for a slot and a head bit, the highest generation and its highest mark. -/
def Mark.take (m : Mark) (gen counter : Nat) : Mark :=
  if m.gen < gen then ⟨gen, counter⟩ else if gen < m.gen then m else ⟨gen, max m.mark counter⟩

def markKey (slot head : Nat) : Nat := 2 * slot + head

def Dev.takeMark (d : Dev) (slot head gen counter : Nat) : Dev :=
  { d with mde := { d.mde with marks := tupd {} d.mde.marks (markKey slot head) (fun m => m.take gen counter) } }

/-- R322: replace a record ID at an extent in one leaf. -/
def entsRemap (ents : List LeafEnt) (key drawn new : Nat) : List LeafEnt :=
  ents.map (fun e => if e.key = key ∧ e.grid = drawn then { e with grid := new } else e)

/-- R322: change the entry at an extent below a page, without a copy. Answers how many entries changed. -/
def Dev.remapBelow (d : Dev) (p key drawn new : Nat) : Nat → Nat × Dev
  | 0 => (0, d)
  | fuel + 1 =>
    let pg := d.page p
    if pg.level = 0 then
      ((pg.ents.filter (fun e => decide (e.key = key ∧ e.grid = drawn))).length,
        d.updPage p (fun x => { x with ents := entsRemap x.ents key drawn new }))
    else
      match kidFor pg.kids (keyStart key / 8 * 8 * 4) with
      | none => (0, d)
      | some k => d.remapBelow k.2 key drawn new fuel

/-- R322: the trees whose entry a REMAP changes: the volume, and its snapshots whose b lies after the grain's
admission beat. -/
def Dev.remapTrees (d : Dev) (vol admitBeat : Nat) : List Nat :=
  vol :: (d.mde.trees.filter (fun e => decide (32768 ≤ e.1) && decide (e.2.source = vol) &&
    decide (admitBeat < e.2.beat))).map (·.1)

/-- R322: a REMAP in all its trees. Answers how many entries changed. -/
def Dev.remapAll (d : Dev) (vol admitBeat key drawn new : Nat) : Nat × Dev :=
  (d.remapTrees vol admitBeat).foldl (fun acc t =>
    let root := (acc.2.tree t).root
    if root = 0 then acc
    else
      let r := acc.2.remapBelow root key drawn new (maxDepth + 1)
      (acc.1 + r.1, r.2)) (0, d)

/-- R204, R322: a record that lost its last reference returns its ID to the free pool. -/
def Dev.returnId (d : Dev) (grid : Nat) : Dev :=
  if (d.grec grid).refs = 0 then
    { d with
        mde := { d.mde with
        freeIds := d.mde.freeIds ++ [grid], recs := tput {} d.mde.recs grid {}
        dying := d.mde.dying.filter (fun (e : Nat × Nat) => decide (e.1 ≠ grid)) } }
  else d

/-! ### Which pages a record changes (R306, R308) -/

/-- The keys at which two tables differ. -/
def tdiff {α : Type} [DecidableEq α] (dv : α) (a b : List (Nat × α)) : List Nat :=
  ((b.filter (fun e => decide (tget dv a e.1 ≠ e.2))).map (·.1)) ++
    ((a.filter (fun e => decide (e.2 ≠ dv) && decide (tget dv b e.1 = dv))).map (·.1))

/-- R309, R312, R340: the pages that hold entry `k` of a table. Segment-table pages hold 15 entries here and the mark table is one
page: spec/ gives neither form. -/
def Dev.treePage (d : Dev) (t : Nat) : Nat := pageIdOf (if d.treeOther t then 1 - d.slotId else d.slotId) 2 (t / 127)
def segPage (s : Nat) : Nat := pageIdOf (s / 2 ^ 31) 3 (s % 2 ^ 31 / 15)

/-- R306, R466: the identifier of the map page kept under `n`. -/
def mapPageId (head n : Nat) : Nat :=
  if n < otherPages then pageIdOf head 0 n else pageIdOf (1 - head) 0 (n - otherPages)

/-- The number under which a map page is kept. -/
def mapPageKey (head id : Nat) : Nat := pageNum id + (if id / 2 ^ 47 = head then 0 else otherPages)

/-- The pages that differ between two states of the metadata. -/
def Dev.pagesTouched (d : Dev) (a b : MdeSt) : List Nat :=
  (tdiff {} a.pages b.pages).map (mapPageId d.slotId) ++ (tdiff {} a.recs b.recs).map grainPage ++
    (tdiff {} a.trees b.trees).map d.treePage ++ (tdiff {} a.segs b.segs).map segPage ++
    (tdiff {} a.marks b.marks).map (fun _ => pageIdOf d.slotId 7 0)

/-- R308: APPLIED_HEAD and APPLIED_SEQ of the pages that a record of head `head` changed, as 2 × SEQ + HEAD + 1. -/
def Dev.stamp (d : Dev) (head : Nat) (before : MdeSt) (seq : Nat) : Dev :=
  { d with mde := { d.mde with applied := (d.pagesTouched before d.mde).foldl (fun t id => tput 0 t id (2 * seq + head + 1)) d.mde.applied } }

/-- R133, R326, R431, R543: what a STEWARD record brings back: a reservation's head and its registrants, a part of an array-wide change, or a
replication session. -/
def Dev.stewardReplay (d : Dev) (what a b c : Nat) : Dev :=
  if what % 256 = 1 then
    d.updVol a (fun v => { v with
      resv := { v.resv with
        rtype := b % 8, ptpl := decide (b / 8 % 2 = 1), holder := b / 2 ^ 16 % 2 ^ 16, gen := BitVec.ofNat 32 (b / 2 ^ 32), regs := [] } })
  else if what % 256 = 4 then
    d.updVol a (fun v => { v with resv := { v.resv with regs := v.resv.regs ++ [⟨c, BitVec.ofNat 64 b⟩] } })
  else if what % 256 = 6 then { d with mbx := { d.mbx with inbox := d.mbx.inbox ++ [(what, a, b, c)] } }
  else d.repReplay what a b c

/-- R337: a PLACED record takes its new place. -/
def Dev.moveRec (d : Dev) (grid seg off stored : Nat) : Dev :=
  let g := d.grec grid
  if g.state ≠ .placed then d
  else ((d.dropUnits g.seg (unitsOf g.stored)).addUnits seg (unitsOf stored)).updGrec grid (fun g => { g with seg := seg, off := off, stored := stored })

/-- Apply the body of one journal record, as replay does (R333). Of a REMAP that changed n entries the matched record gains n − 1 here:
the one more is the increment of R203, which has a record of its own (R204). -/
def Dev.applyBody (d : Dev) (r : JRec) : Dev :=
  match r.body with
  | .insert tree key grid addref zero => d.applyInsert tree key grid addref zero
  | .place grid seg off stored gsize raw kslot fp =>
    let dead := decide ((d.grec grid).state = .dead)
    (d.updGrec grid (fun g => { g with
      seg := seg, off := off, stored := stored, gsize := gsize, raw := raw, kslot := kslot, fp := fp
      state := if dead then .dead else .placed })).cond (!dead) (fun d => d.addUnits seg (unitsOf stored))
  | .refcount grid delta => d.refLocal grid delta
  | .remap tree key new drawn _ =>
    let (n, d1) := d.remapAll tree r.admitBeat key drawn new
    (d1.ref new ((n : Int) - 1)).ref drawn (-(n : Int))
  | .ret grid => d.returnId grid
  | .nonceHwm slot head gen counter => d.takeMark slot head gen counter
  | .snapshot tree src group beat => (d.shareRoot tree src).updTree tree (fun t => { t with group := group, beat := beat })
  | .treeDelete tree => d.treeDrop tree
  | .segment seg event =>
    if event = 1 then d.updSegEnt seg (fun s => { s with state := .live })
    else if event = 2 then d.updSegEnt seg (fun s => { s with verified := true })
    else if event = 3 then d.updSegEnt seg (fun s => { s with live := 0, emptyEpoch := d.epoch + 1 })
    else { d with mde := { d.mde with segs := tput {} d.mde.segs seg {} } }
  | .relocate grid seg off stored => d.moveRec grid seg off stored
  | .ringHead _ _ _ => d
  | .steward what a b c => d.stewardReplay what a b c

/-- R416: a snapshot's tree gets its generation number, which a STEWARD record keeps. -/
def Dev.setGen (d : Dev) (t gen : Nat) : Dev :=
  let d1 := if gen = tget 0 d.rep.gens t then d else d.journal (.steward genWhat t gen 0)
  { d1 with rep := { d1.rep with gens := tput 0 d1.rep.gens t gen } }

/-- Apply one journal record and stamp the pages that it changed. -/
def Dev.applyRec (d : Dev) (r : JRec) : Dev := (d.applyBody r).stamp d.slotId d.mde r.seq

/-- INSERT_APPLY, R318: apply the first pending INSERT that may be. -/
def Dev.insertApply (d : Dev) : Dev :=
  match d.mde.inserts.find? d.insertReady with
  | none => d
  | some r =>
    let d1 := { d with mde := { d.mde with inserts := d.mde.inserts.filter (fun o => decide (o.seq ≠ r.seq)) } }
    d1.applyRec r

def execInsertApply (s : State) : Ans := lift Dev.insertApply s

/-- PAGE_FREE_CASCADE, R319: DEL_RATE pages are freed. -/
def Dev.pageFreeCascade (d : Dev) : Dev := loop (fun _ d => d.freePage) (d.fld Reg.MDE_CFG_DEL_RATE) d

def execPageFreeCascade (s : State) : Ans := lift Dev.pageFreeCascade s

/-! ### Snapshots and deletion -/

/-- R321: an insert of the snapshot's source admitted before b is still to come. -/
def Dev.snapWaits (d : Dev) (p : PendSnap) : Bool :=
  d.mde.inserts.any (fun r => match r.body with
    | .insert t _ _ _ _ => decide (t = p.src) && decide (r.admitBeat < p.beat)
    | _ => false) ||
  d.cal.groups.any (fun e => !e.2.placed && decide (e.2.vol = p.src) && decide (e.2.admitBeat < p.beat)) ||
  d.nvt.tags.any (fun e => e.2.storing p.src && decide (e.2.beat < p.beat))

/-- R29, R44: the number of the beat that begins at the next edge. -/
def Dev.nextBeatNo (d : Dev) : Nat := d.beat + 1 + d.stepPend

/-- R320: the engine takes a snapshot of `src` as `tree`: effect beat b is the next edge's, and b's SNAPSHOT record is written. Answers b. -/
def Dev.snapTake (d : Dev) (tree src group : Nat) : Nat × Dev :=
  let b := d.nextBeatNo
  let d1 := (d.journal (.snapshot tree src group b)).updTree tree (fun _ => { state := .pending, source := src, beat := b, group := group })
  (b, { d1 with mde := { d1.mde with snaps := d1.mde.snaps ++ [⟨tree, src, b, d.epoch⟩] } })

/-- SNAPSHOT_SHARE, R321: the first waiting snapshot whose older inserts are all applied shares its volume's
root and is READY; one that took more than an epoch is late. -/
def Dev.snapshotShare (d : Dev) : Dev :=
  match d.mde.snaps.find? (fun p => !d.snapWaits p) with
  | none => d
  | some p =>
    let d1 := { d with mde := { d.mde with snaps := d.mde.snaps.filter (fun x => decide (x.tree ≠ p.tree)) } }
    let d2 := (d1.shareRoot p.tree p.src).updTree p.tree (fun t => { t with beat := p.beat })
    d2.cond (decide (Config.epochBeats < d.since p.beat)) (fun d => d.raise 964 p.tree (d.tree p.tree).group 0)

def execSnapshotShare (s : State) : Ans := lift Dev.snapshotShare s

/-- TREE_DELETE_DONE, R324: the cascade of a deleted tree has ended; its ID is FREE. -/
def Dev.treeDeleteDone (d : Dev) (tree : Nat) : Dev :=
  if (d.tree tree).state = .deleting ∧ (d.mde.cascade.any (fun e => decide (e.2 = tree))) = false then
    let l := d.mde.deleting.filter (fun t => decide (t ≠ tree))
    (({ d with mde := { d.mde with trees := tput {} d.mde.trees tree {}, deleting := l } }.setFld
      Reg.MDE_STS_DELETING (min l.length 65535)).raise 965 tree 0 0)
  else d

def execTreeDeleteDone (tree : Nat) (s : State) : Ans := lift (fun d => d.treeDeleteDone tree) s

def execIdPoolRefill (sl : Nat) (s : State) : Ans := lift (fun d => d.idPoolRefill sl) s

/-! ### Checkpoints (R328 to R332) -/

/-- R339: ring pages of a journal run, 16 to 255. -/
def Dev.runPages (d : Dev) : Nat := max 16 (d.fld Reg.MDE_CFG_RUN_PAGES)

/-- R325, R326, R328: ring page `p` as a run holds it: RING_HEAD and 63 records. RING_HEAD carries the SEQ of the page's first
record. -/
def Dev.ringPageBytes (d : Dev) (p : Nat) : List Byte :=
  let head : JRec := ⟨0, 0, p * recsPerPage, 0, .ringHead (p % ringPages) (tget 0 d.mde.heads p / 2 ^ 16) (tget 0 d.mde.heads p % 2 ^ 16), true⟩
  head.bytes ++ (List.range recsPerPage).flatMap (fun i =>
    match d.mde.ring.find? (fun r => decide (r.seq = p * recsPerPage + i)) with
    | some r => r.bytes
    | none => List.replicate 64 0)

/-- JOURNAL_RUN_SPILL, R328: RUN_PAGES full ring pages go as a run of class 4 records to the open metadata segment. `runs`
holds the last SEQ of each run whose segment is not yet WRITTEN, plus 1, and that segment. -/
def Dev.journalRunSpill (d : Dev) : Dev :=
  let p0 := d.mde.spillTo / recsPerPage
  let n := d.runPages
  let last := (p0 + n) * recsPerPage
  if d.fld Reg.MDE_JSEQ_NEXT_SEQ < last then d
  else
    let q := (List.range n).map (fun i => MetaPage.mk (pageIdOf d.slotId 4 ((p0 + i) % ringPages)) (d.ringPageBytes (p0 + i))
      (decide (i = 0)) (if i + 1 = n then last else 0))
    { d with
        mde := { d.mde with spillTo := last, runs := d.mde.runs ++ [(last, 0)] }
        lay := { d.lay with metaQ := d.lay.metaQ ++ q } }

def execJournalRunSpill (s : State) : Ans := lift Dev.journalRunSpill s

/-- R328: a run's segment is WRITTEN; its ring pages are released. -/
def Dev.runWritten (d : Dev) : Dev :=
  match d.mde.runs with
  | [] => d
  | (last, _) :: rest =>
    ({ d with
        mde := { d.mde with
        runs := rest, ring := d.mde.ring.filter (fun r => decide (last ≤ r.seq))
        heads := d.mde.heads.filter (fun e => decide (last ≤ e.1 * recsPerPage)) } }.setFld
      Reg.MDE_JSEQ_SPILLED_SEQ (last - 1)).ringMark

/-- R331: records above the cut of the last complete full checkpoint, and the limit. -/
def Dev.cpRecords (d : Dev) : Nat :=
  let next := d.fld Reg.MDE_JSEQ_NEXT_SEQ
  max (if d.mde.ownGone then 0 else next - d.fld Reg.MDE_CP_CUT_SEQ) (if d.mde.peerHeld then next - d.mde.otherCut else 0)
def Dev.cpLimit (d : Dev) : Nat :=
  let n := d.fld Reg.MDE_CP_CFG_LOG2_RECORDS
  2 ^ (if 20 ≤ n ∧ n ≤ 24 then n else 24)

/-- R331: write admission is held while the records number twice the limit. -/
def Dev.markCpHeld (d : Dev) : Dev :=
  d.setFlag Reg.MDE_STS_CP_HELD (decide (2 * d.cpLimit ≤ d.cpRecords))

/-! ### Replay (R333) -/

/-- R333: the records of a journal from the cut upward, in order, up to the first gap or bad record, and why
the replay ended: 0 end, 1 gap, 2 CRC. -/
def replayRun : Nat → List JRec → List JRec × Nat
  | _, [] => ([], 0)
  | want, r :: t =>
    if r.seq < want then replayRun want t
    else if r.seq ≠ want then ([], 1)
    else if !r.good then ([], 2)
    else
      let x := replayRun (want + 1) t
      (r :: x.1, x.2)

/-- The entries of a table that lie on certain pages, as they were before. -/
def keepPages {α : Type} [DecidableEq α] (dv : α) (page : Nat → Nat) (ids : List Nat) (old new : List (Nat × α)) : List (Nat × α) :=
  (tdiff dv old new).foldl (fun t k => if ids.contains (page k) then tput dv t k (tget dv old k) else t) new

/-- R333: a record of head `head` is applied to a page unless the page's APPLIED_HEAD is that head and its APPLIED_SEQ at least the
record's. -/
def Dev.replayRec (d : Dev) (head : Nat) (r : JRec) : Dev :=
  let d1 := d.applyBody r
  let has (id : Nat) : Bool :=
    let v := tget 0 d.mde.applied id
    decide (v ≠ 0) && decide ((v - 1) % 2 = head) && decide (r.seq ≤ (v - 1) / 2)
  let ids := (d.pagesTouched d.mde d1.mde).filter has
  let d2 := { d1 with
    mde := { d1.mde with
      pages := keepPages {} (mapPageId d.slotId) ids d.mde.pages d1.mde.pages
      recs := keepPages {} grainPage ids d.mde.recs d1.mde.recs
      trees := keepPages {} d.treePage ids d.mde.trees d1.mde.trees
      segs := keepPages {} segPage ids d.mde.segs d1.mde.segs
      marks := keepPages {} (fun _ => pageIdOf d.slotId 7 0) ids d.mde.marks d1.mde.marks } }
  d2.stamp head d.mde r.seq

/-! ### Relocation (R336, R337) -/

/-- MDE_RELOC_STS follows the queue. -/
def Dev.putReloc (d : Dev) (l : List Nat) : Dev :=
  { d with mde := { d.mde with reloc := l } }.setFld Reg.MDE_RELOC_STS_QUEUED (min 65535 l.length)

/-- RELOC_CMD_WRITE, R336: the segment is queued for relocation. -/
def Dev.relocCmd (d : Dev) (seg : Nat) : Dev :=
  let d1 := d.setFld Reg.MDE_RELOC_CMD_SEGMENT seg
  -- R492, step 3: no relocation is queued in a domain that moves
  let h := if d.fov.handBack then 1 - d.slotId else d.slotId
  if d.fov.handRole = 1 ∧ 3 ≤ d.fov.handStep ∧ d.fov.handDomain ∧ seg / 2 ^ 31 = h then d1 else d1.putReloc (d1.mde.reloc ++ [seg])

def execRelocCmdWrite (val : Word) (s : State) : Ans := lift (fun d => d.relocCmd val.toNat) s

/-- R336: once nothing of a segment is left to relocate its relocation is done. -/
def Dev.relocEnd (d : Dev) (seg : Nat) : Dev :=
  let x := d.segEnt seg
  if x.relocLeft.isEmpty ∧ d.mde.reloc.contains seg then
    (((d.putReloc (d.mde.reloc.erase seg)).updSegEnt seg (fun s => { s with
      state := if s.state = .relocating then .live else s.state, relocNext := [], moved := 0 })).raise 970 seg x.moved 0)
  else d

/-- A record of a segment under relocation has been moved, or is not to be. -/
def Dev.relocLess (d : Dev) (seg grid : Nat) : Dev :=
  (d.updSegEnt seg (fun s => { s with relocLeft := s.relocLeft.filter (fun g => decide (g ≠ grid)) })).relocEnd seg

/-- R337: one record whose new segment is VERIFIED. One that is no more in its old place stays as it is. -/
def Dev.relocOne (d : Dev) (m : Move) : Dev :=
  let g := d.grec m.grid
  let d1 := d.cond (decide (g.state = .placed) && decide (g.seg = m.old)) (fun d =>
    let d := ((d.journal (.relocate m.grid m.seg m.off m.stored)).moveRec m.grid m.seg m.off m.stored).updSegEnt m.old (fun s => { s with moved := s.moved + 1 })
    d.bump Reg.MDE_RELOCATED_COUNT 1)
  d1.relocLess m.old m.grid

/-- R336: the slice that relocates a segment. -/
def relocSlice (seg : Nat) : Nat := seg % 8

/-- Segment `seg` holds a record that slice s relocated. -/
def Move.inSeg (m : Move) (s seg : Nat) : Bool := decide (relocSlice m.old = s) && decide (m.seg = seg)

/-- RELOCATION_DONE, R336, R337: segment `seg`, which holds records that slice s relocated, is VERIFIED; each of them takes its new place by a
RELOCATE record. -/
def Dev.relocationDone (d : Dev) (s seg : Nat) : Dev :=
  { d with mde := { d.mde with relocReady := d.mde.relocReady.filter (fun (m : Move) => !m.inSeg s seg) } }.each
    (d.mde.relocReady.filter (fun (m : Move) => m.inSeg s seg)) (fun m d => d.relocOne m)

def execRelocationDone (sl seg : Nat) (s : State) : Ans := lift (fun d => d.relocationDone sl seg) s

/-! ### Reference changes between the heads (R314, R458) -/

/-- REFCOUNT, R458: the peer's changes are journaled and applied once; a duplicate is acknowledged again. -/
def Dev.refcountMsg (d : Dev) (rseq : Nat) (ents : List (Nat × Int)) : Dev :=
  if rseq ≤ d.mde.peerRseq then d.emit (.link (.refcountAck d.mde.peerRseq))
  else
    let d1 := d.each ents (fun e d => (d.journal (.refcount e.1 e.2)).refLocal e.1 e.2)
    ({ d1 with mde := { d1.mde with peerRseq := rseq } }).emit (.link (.refcountAck rseq))

def execRefcount (rseq : Nat) (ents : List (Nat × Int)) (s : State) : Ans := lift (fun d => d.refcountMsg rseq ents) s

/-- REFCOUNT_ACK, R458: the covered records leave the remote queue. -/
def Dev.refcountAck (d : Dev) (rseq : Nat) : Dev :=
  let l := d.mde.remote.filter (fun r => decide (rseq < r.rseq))
  ({ d with mde := { d.mde with remote := l } }.setFld Reg.CDX_REMOTE_RECORDS l.length).cond l.isEmpty
    (fun d => d.setFld Reg.MDE_STS_REMOTE_HELD 0)

def execRefcountAck (rseq : Nat) (s : State) : Ans := lift (fun d => d.refcountAck rseq) s

end Sys2Proof.Machine
end

