-- ==== Sys2Proof/Machine/Cal.lean ====
section
/-! DEFINITION. The Caldera: the cutter, its pages and directories, mirror puts, and the completion of commands
(R143 to R160, R172, R454). -/
namespace Sys2Proof.Machine

/-! ### The cutter (R143, R144) -/

/-- R143: the largest aligned grain at `a` that fits below `e`. -/
def grainSize (a e : Nat) : Nat :=
  if a % 32768 = 0 ∧ a + 32768 ≤ e then 32768
  else if a % 16384 = 0 ∧ a + 16384 ≤ e then 16384
  else if a % 8192 = 0 ∧ a + 8192 ≤ e then 8192
  else 4096

/-- R143: the grains of a range, low address first. `fuel` bounds their number. -/
def cutFrom : Nat → Nat → Nat → List Grain
  | 0, _, _ => []
  | fuel + 1, a, e => if e ≤ a then [] else ⟨a, grainSize a e⟩ :: cutFrom fuel (a + grainSize a e) e

def cut (a e : Nat) : List Grain := cutFrom ((e - a) / 4096 + 1) a e

/-- R144: a range widened to 4 KiB boundaries. -/
def widen (a e : Nat) : Nat × Nat := (a / 4096 * 4096, (e + 4095) / 4096 * 4096)

/-- Bytes of a block of a volume (R105). -/
def Namespace.blk (v : Namespace) : Nat := if v.lbaf then 4096 else 512

/-- The byte range of a command in its volume. -/
def cmdRange (c : HostCmd) (v : Namespace) : Nat × Nat := (c.slba * v.blk, (c.slba + c.nlb) * v.blk)

/-- R144: the cutter's input. -/
def cmdInput (c : HostCmd) (v : Namespace) : Nat × Nat := widen (cmdRange c v).1 (cmdRange c v).2

/-- The grains of a command. -/
def cmdGrains (c : HostCmd) (v : Namespace) : List Grain := cut (cmdInput c v).1 (cmdInput c v).2

/-- R187: the SIZE code of a grain. -/
def sizeCode (n : Nat) : Nat := if n = 4096 then 0 else if n = 8192 then 1 else if n = 16384 then 2 else 3

/-- R145: the 32 KiB regions that a list of grains touches, rising. -/
def regionsOf : List Grain → List Nat
  | [] => []
  | g :: t => match regionsOf t with
    | r :: rs => if g.off / 32768 = r then r :: rs else g.off / 32768 :: r :: rs
    | [] => [g.off / 32768]

/-! ### Own pages (R146 to R151) -/

/-- R149: own-dirty. -/
def Dev.resvPages (d : Dev) : Nat :=
  d.cal.runs.foldl (fun n r => match r.use with
    | .grain _ _ => n
    | _ => n + r.len) 0
def Dev.grainPages (d : Dev) : Nat :=
  d.cal.runs.foldl (fun n r => match r.use with
    | .grain _ _ => n + r.len
    | _ => n) 0
def Dev.ownDirty (d : Dev) : Nat := d.resvPages + d.grainPages + d.ringUsed

/-- The first gap of `n` pages between runs in rising order. -/
def firstFit (n : Nat) : Nat → List PageRun → Nat
  | at_, [] => at_
  | at_, r :: t => if at_ + n ≤ r.first then at_ else firstFit n (r.first + r.len) t

def runIns (r : PageRun) : List PageRun → List PageRun
  | [] => [r]
  | x :: t => if r.first < x.first then r :: x :: t else x :: runIns r t

/-- R147, R150: take a run of `n` own pages, if own-dirty stays within the own area. -/
def Dev.allocRun (d : Dev) (n : Nat) (use : PageUse) : Option (Nat × Dev) :=
  let a := firstFit n 0 d.cal.runs
  if d.ownDirty + n ≤ Config.ownPages ∧ a + n ≤ Config.ownPages then
    some (a, { d with cal := { d.cal with runs := runIns ⟨a, n, use⟩ d.cal.runs } })
  else none

/-- R150: take pages for each grain of a command. -/
def Dev.allocGrains (d : Dev) (use : PageUse) : List Grain → Option (List Nat × Dev)
  | [] => some ([], d)
  | g :: t =>
    match d.allocRun (g.size / 4096) use with
    | none => none
    | some (p, d1) =>
      match d1.allocGrains use t with
      | none => none
      | some (ps, d2) => some (p :: ps, d2)

/-- Give the runs that start at these pages another holder. -/
def Dev.reuse (d : Dev) (pages : List Nat) (use : PageUse) : Dev :=
  { d with
      cal := { d.cal with
      runs := d.cal.runs.map (fun r => if pages.contains r.first then { r with use := use } else r) } }

/-- R150: pages of a command that ends with no grain placed in them are released. -/
def Dev.freeRuns (d : Dev) (sel : PageUse → Bool) : Dev :=
  { d with cal := { d.cal with runs := d.cal.runs.filter (fun r => !sel r.use) } }

/-- Store bytes of a command at volume offset `off`, in the pages of the grains that cover them. -/
def Dev.storeOwn (d : Dev) (gs : List (Grain × Nat)) (off : Nat) (bs : List Byte) : Dev :=
  d.each gs (fun gp d =>
    let g := gp.1
    let lo := max g.off off
    let hi := min (g.off + g.size) (off + bs.length)
    if lo < hi then
      { d with
          cal := { d.cal with
          own := writeBytes d.cal.own (gp.2 * pageBytes + (lo - g.off)) ((bs.drop (lo - off)).take (hi - lo)) } }
    else d)

/-- The bytes of an entry's grain: in own pages, or in the mirror area where it was adopted (R482). -/
def Dev.entryBytes (d : Dev) (e : DirEntry) : List Byte :=
  readBytes (if e.adopted then d.cal.mirror else d.cal.own) (e.page * pageBytes) (4096 * 2 ^ e.size)

/-! ### Directories (R148, R153, R154, R187) -/

def GState.code : GState → Nat
  | .free => 0 | .staged => 1 | .mirrored => 2 | .destaging => 3 | .placed => 4 | .verified => 5

def GState.ofCode : Nat → GState
  | 1 => .staged | 2 => .mirrored | 3 => .destaging | 4 => .placed | 5 => .verified | _ => .free

/-- Bytes of an entry's grain. -/
def DirEntry.bytes (e : DirEntry) : Nat := 4096 * 2 ^ e.size

/-- R187: an entry's ten words. -/
def dirWords (e : DirEntry) : List Nat :=
  [e.state.code + 16 * e.size + (if e.vaulted then 64 else 0) + (if e.rmw then 128 else 0) + 2 ^ 16 * e.vol,
   e.off % 2 ^ 32, e.off / 2 ^ 32 % 64 + 2 ^ 10 * e.page, e.grid % 2 ^ 32,
   e.grid / 2 ^ 32 % 2 ^ 16 + 2 ^ 16 * e.mirrorQp, e.putCount.toNat, e.admitBeat % 2 ^ 32, e.admitBeat / 2 ^ 32,
   e.segment, e.tag]

/-- The entry that ten words hold. -/
def dirOfWords (w : List Nat) : DirEntry :=
  let x (i : Nat) : Nat := w.getD i 0
  { state := GState.ofCode (x 0 % 8), size := x 0 / 16 % 4, vaulted := decide (x 0 / 64 % 2 = 1)
    rmw := decide (x 0 / 128 % 2 = 1), vol := x 0 / 2 ^ 16 % 2 ^ 15
    off := x 1 + 2 ^ 32 * (x 2 % 64), page := x 2 / 2 ^ 10, grid := x 3 + 2 ^ 32 * (x 4 % 2 ^ 16)
    mirrorQp := x 4 / 2 ^ 16 % 64, putCount := BitVec.ofNat 32 (x 5), admitBeat := x 6 + 2 ^ 32 * x 7
    segment := x 8, tag := x 9 % 2 ^ 16 }

/-- R187: the entries of slice s not FREE, with their indices. -/
def Dev.dirOf (d : Dev) (s : Nat) : List (Nat × DirEntry) :=
  (d.cal.dirs.filter (fun e => decide (e.1 / Config.dirEntries = s))).map (fun e => (e.1 % Config.dirEntries, e.2))

/-- R186: entries not FREE. -/
def Dev.dirUsed (d : Dev) (s : Nat) : Nat := (d.dirOf s).length

/-- R148: the lowest `n` free entries of a slice's directory: DESIGN CHOICE, the spec does not say which free entries a group takes. -/
def Dev.freeIdx (d : Dev) (s n : Nat) : List Nat :=
  ((List.range (min Config.dirEntries (d.dirUsed s + n))).filter (fun i => decide ((d.dir s i).state = .free))).take n

/-- R154: an entry that reads may see. -/
def DirEntry.seen (e : DirEntry) : Bool := decide (e.state ∈ [GState.mirrored, .destaging, .placed, .verified]) && !e.bad

/-- R154: the order of admission between two entries. -/
def DirEntry.before (a b : DirEntry) : Bool := admitBefore a.admitBeat (a.tag / 8192) a.order b.admitBeat (b.tag / 8192) b.order

/-- An entry covers 4 KiB unit `blk` of a volume. -/
def DirEntry.covers (e : DirEntry) (v blk : Nat) : Bool :=
  decide (e.vol = v) && decide (e.off ≤ blk) && decide (blk < e.off + 2 ^ e.size)

/-- R154: the newest of some entries in admission order, with its directory key. -/
def newest (l : List (Nat × DirEntry)) : Option (Nat × DirEntry) :=
  l.foldl (fun best e => match best with
    | none => some e
    | some b => if b.2.before e.2 then some e else some b) none

/-- R154: the entry that a read of unit `blk` takes. -/
def Dev.calLookup (d : Dev) (v blk : Nat) : Option (Nat × DirEntry) :=
  newest (d.cal.dirs.filter (fun e => e.2.seen && e.2.covers v blk))

/-- R184: a grain enters FREE: its entry and its pages are given back. -/
def Dev.freeEntry (d : Dev) (key : Nat) : Dev :=
  let s := key / Config.dirEntries
  let i := key % Config.dirEntries
  let e := tget {} d.cal.dirs key
  -- R517: a LOG_RELEASE names a grain that the vault log holds
  let d1 := { d with
    cal := { d.cal with dirs := tput {} d.cal.dirs key {} }
    mem := { d.mem with relQ := if e.vaulted then d.mem.relQ ++ [e.grid] else d.mem.relQ } }
  (d1.disarm (tmMirrored s i)).freeRuns (fun u => decide (u = .grain s i))

/-- Change the directory entry at a key. -/
def Dev.updDirKey (d : Dev) (k : Nat) (f : DirEntry → DirEntry) : Dev :=
  { d with cal := { d.cal with dirs := tupd {} d.cal.dirs k f } }
def Dev.dirKeyed (d : Dev) (k : Nat) : DirEntry := tget {} d.cal.dirs k

/-! ### Reduction's record of a destaging grain (R189, R215) -/

def Dev.red (d : Dev) (k : Nat) : RedGrain := tget {} d.tph.grains k
def Dev.updRed (d : Dev) (k : Nat) (f : RedGrain → RedGrain) : Dev :=
  { d with tph := { d.tph with grains := tupd {} d.tph.grains k f } }
def Dev.volRed (d : Dev) (v : Nat) : VolRed := tget {} d.tph.vols v
def Dev.updVolRed (d : Dev) (v : Nat) (f : VolRed → VolRed) : Dev :=
  { d with tph := { d.tph with vols := tupd {} d.tph.vols v f } }

/-- R193, R261, R301: destage on a slice halts while all its fingerprint units, both its GCM engines or its erasure unit
have FAULT set. -/
def Dev.destageHalted (d : Dev) (s : Nat) : Bool :=
  (List.range 16).all (fun u => d.flag (Reg.SLI_FPU_STS_FAULT s u)) ||
    (List.range 2).all (fun e => d.flag (Reg.SLI_GCM_STS_FAULT s e)) || d.flag (Reg.SLI_ECU_STS_FAULT s)

/-! ### Jobs of the engines (R12, R32) -/

/-- Post a job of `n` bytes to an engine, for `who`. -/
def Dev.addJobFor (d : Dev) (s : Nat) (e : Engine) (cls n : Nat) (who : JobFor) : Dev :=
  d.updSlice s (fun x => { x with jobs := x.jobs ++ [{ eng := e, cls := cls, left := n, level := 0, begun := false, held := 0, who := who }] })

/-- R163: the classes of the write-path engine's jobs behind placement: Caldera-hit reads, then merge copies. -/
def wpeRead : Nat := 1
def wpeMerge : Nat := 2

/-- R163: the gap bytes of a group are still being copied. -/
def Dev.merging (d : Dev) (s g : Nat) : Bool :=
  (d.slice s).jobs.any (fun j => decide (j.eng = .wpe) && decide (j.who = .group g))

/-- R681: slice s works for a command of home slice h: while it stops, only for commands that it admitted itself. -/
def Dev.serves (d : Dev) (s h : Nat) : Bool :=
  match d.ustate (.slice s) with
  | .on => true
  | .stopping | .pendOn => decide (h = s)
  | _ => false

/-- R33, R163: the write-path engine is free for a placement in this beat: it has taken no quantum, and no begun job goes on. -/
def Dev.wpeFree (d : Dev) (s : Nat) : Bool :=
  decide ((d.slice s).wpeAt ≠ d.edges + 1) && !(d.slice s).jobs.any (fun j => decide (j.eng = .wpe) && j.begun)

/-! ### Messages on mirror contexts (R155, R452 to R454) -/

/-- R454: lists of at most 63 records, one journal-only put each. -/
def chunks (n : Nat) : Nat → List JRec → List (List JRec)
  | 0, _ => []
  | fuel + 1, l => if l.isEmpty then [] else l.take n :: chunks n fuel (l.drop n)

/-- R155, R452: the mirror context of a command of home slice h from host context q. -/
def mirrorQpOf (q h : Nat) : Nat := 8 * (q / 8 % 8) + Nat.xor h (q / 8 % 8)

/-- R454: PTYPE. -/
def ptMirror : Nat := 1
def ptJournal : Nat := 2
def ptRelease : Nat := 3

/-- R454: one directory entry copy. -/
def entryCopy (idx : Nat) (e : DirEntry) : List Byte :=
  (dirWords e).flatMap (leBytes 4) ++ leBytes 4 idx ++ leBytes 4 0

/-- R325, R454: the ring position of a record; records lie in the ring in the order of SEQ. -/
def ringPos (seq : Nat) : Nat := seq % (ringPages * recsPerPage)

/-- R454: a put's message bytes. -/
def putBytes (ptype slice : Nat) (ents : List (Nat × DirEntry)) (recs : List JRec) (pages : List Byte) : List Byte :=
  leBytes 1 ptype ++ leBytes 1 ents.length ++ leBytes 2 recs.length ++ leBytes 1 slice ++ leBytes 3 0 ++
    leBytes 4 (ringPos ((recs.head?.map (·.seq)).getD 0)) ++ leBytes 4 0 ++
    ents.flatMap (fun e => entryCopy e.1 e.2) ++ recs.flatMap JRec.bytes ++ pages

/-- R454: the directory entries of a put, each with its index. -/
def putEnts (bs : List Byte) : List (Nat × DirEntry) :=
  (List.range (leField bs 1 1)).map (fun i =>
    let at_ := 16 + 48 * i
    (leField bs (at_ + 40) 4, dirOfWords ((List.range 10).map (fun w => leField bs (at_ + 4 * w) 4))))

/-- R454: where the pages of a mirror put's entries lie in its message, where they go in the mirror area, and their bytes. -/
def pageRuns : Nat → List DirEntry → List (Nat × Nat × Nat)
  | _, [] => []
  | at_, e :: t => (at_, e.page * pageBytes, e.bytes) :: pageRuns (at_ + e.bytes) t
def putRuns (bs : List Byte) : List (Nat × Nat × Nat) :=
  if leField bs 0 1 = 1 then pageRuns (16 + 48 * leField bs 1 1 + 64 * leField bs 2 2) ((putEnts bs).map (·.2)) else []

/-- R489: a put is a resync copy: of an entry that is not newly placed, or of a ring page. -/
def isResync (bs : List Byte) : Bool :=
  let st := leField bs 16 1 % 8
  if leField bs 0 1 = ptMirror then decide (0 < leField bs 1 1) && decide (2 ≤ st)
  else decide (leField bs 0 1 = ptJournal) && decide (leField bs 8 4 % recsPerPage = 0)

/-- R453: a placed write's work item. -/
def putItem (key : Word) (ptype pages : Nat) (bytes : List Byte) (prod : Producer) : WorkItem :=
  ⟨.writeImm 0 key (BitVec.ofNat 32 (ptype * 2 ^ 16 + pages % 2 ^ 16)), bytes, prod, none⟩

/-- R158: the number of messages posted on m, modulo 2^32. -/
def Dev.putCount (d : Dev) (m : Nat) : Word := tget 0 d.cal.putsPosted m

/-- R456: the header of a forwarded message. -/
def fwdHeader (ftype slice rtag vol host off len : Nat) : List Byte :=
  leBytes 1 ftype ++ leBytes 1 slice ++ leBytes 2 rtag ++ leBytes 2 vol ++ leBytes 2 host ++ leBytes 4 off ++
    leBytes 4 len ++ leBytes 16 0

/-! ### Status and completion -/

def stSuccess : Status := ⟨0, 0⟩
def stOpcode : Status := ⟨0, 0x01⟩
def stField : Status := ⟨0, 0x02⟩
def stTransfer : Status := ⟨0, 0x04⟩
def stInternal : Status := ⟨0, 0x06⟩
def stAborted : Status := ⟨0, 0x07⟩
def stNamespace : Status := ⟨0, 0x0B⟩
def stSglLength : Status := ⟨0, 0x0F⟩
def stSglType : Status := ⟨0, 0x11⟩
def stProtected : Status := ⟨0, 0x20⟩
def stRange : Status := ⟨0, 0x80⟩
def stConflict : Status := ⟨0, 0x83⟩
def stBusy : Status := ⟨1, 0x81⟩
def stUnrecovered : Status := ⟨2, 0x81⟩
def stCompare : Status := ⟨2, 0x85⟩
def stDenied : Status := ⟨2, 0x86⟩
def stPathInternal : Status := ⟨3, 0x00⟩
def stAnaLoss : Status := ⟨3, 0x01⟩
def stAnaInaccessible : Status := ⟨3, 0x02⟩
def stAnaTransition : Status := ⟨3, 0x03⟩

/-- An NVMe completion entry: result, SQHD, CID and status. -/
def cqeBytes (result sqhd : Nat) (cid : BitVec 16) (st : Status) : List Byte :=
  leBytes 8 result ++ leBytes 2 sqhd ++ leBytes 2 0 ++ leBytes 2 cid.toNat ++
    leBytes 2 (2 * st.sc + 2 ^ 9 * st.sct)

/-- R117: SQHD of a queue. -/
def Dev.sqhd (d : Dev) (q : Nat) : Nat := if (d.bind q).noFlow then 0xFFFF else (d.bind q).sqhd.toNat

/-- R71: the completion capsule invalidates the host's key when its SGL asks for it. -/
def cplOp (c : HostCmd) : WorkOp :=
  match c.sgl with
  | .keyed b => if b.inv then .sendInv b.key else .send
  | _ => .send

/-- R150, R158, R127: a command ends: its unused pages are released and its completion capsule, or on the owner of
a forwarded command its FWD_CPL, is posted. -/
def Dev.complete (d : Dev) (t : Nat) (st : Status) (wait : Option (Nat × Word)) : Dev :=
  let x := d.tag t
  let d1 := (d.updTag t (fun x => { x with state := .completing, status := some st, posted := true })).freeRuns
    (fun u => decide (u = .command t))
  match x.cmd with
  | none => d1
  | some c =>
    -- R429: a replicated grain is STAGED; its window slot goes back
    match c.rep with
    | some e => { d1.updTag t (fun x => { x with leaveAt := true }) with rep := { d1.rep with staged := d1.rep.staged ++ [e] } }
    | none =>
    if x.fwdIn then
      d1.post c.qp ⟨.send, fwdHeader 3 (t / 8192) c.fwdTag x.vol c.hostIdx 0 0 ++
        cqeBytes (leNat x.cplData) 0 c.cid st, .fwd t, wait⟩
    else
      d1.post c.qp ⟨cplOp c, cqeBytes (leNat (x.cplData.take 8)) (d1.sqhd c.qp) c.cid st, .completion t, wait⟩

/-- R158, R172: the completion of a write is posted once its last group is placed and its last vault write done. -/
def Dev.tryComplete (d : Dev) (t : Nat) : Dev :=
  let x := d.tag t
  if x.state = .running ∧ x.begun ∧ x.resv = false ∧ x.posted = false ∧ x.groupsLeft = 0 ∧ x.vaultLeft = 0 ∧ x.left ≤ x.fetched then
    d.complete t (x.status.getD stSuccess) x.mirror
  else d

/-! ### Groups (R145, R153, R159, R172) -/

def Dev.group (d : Dev) (g : Nat) : Option RGroup := (d.cal.groups.find? (fun e => decide (e.1 = g))).map (·.2)
def Dev.updGroup (d : Dev) (g : Nat) (f : RGroup → RGroup) : Dev :=
  { d with cal := { d.cal with groups := d.cal.groups.map (fun e => if e.1 = g then (e.1, f e.2) else e) } }
def Dev.dropGroup (d : Dev) (g : Nat) : Dev :=
  { d with cal := { d.cal with groups := d.cal.groups.filter (fun e => decide (e.1 ≠ g)) } }

/-- R171: the vault-through reasons that hold, as GLB_CAL_STS shows them from bit 4 up. -/
def Dev.vaultReasons (d : Dev) : Nat :=
  d.fld Reg.GLB_CAL_STS_PEER_ABSENT + 2 * d.fld Reg.GLB_CAL_STS_MIRROR_BROKEN +
    4 * d.fld Reg.GLB_CAL_STS_HOLDUP_LOW + 8 * d.fld Reg.GLB_CAL_STS_FORCED + 16 * d.fld Reg.GLB_CAL_STS_ONE_VAULT

def Dev.vaultThrough (d : Dev) : Bool := d.flag Reg.GLB_CAL_STS_MODE

/-- R388: the attach points of this head's own vault SSDs, SSD 0 first: sub-port A of each vault port. -/
def Dev.vaultAtts (d : Dev) : List Nat := (List.range 128).filter (fun a => decide (a % 4 = 0) && d.isVault a)

/-- The own vault attach points that are ON. -/
def Dev.vaultsOn (d : Dev) : List Nat := d.vaultAtts.filter (fun a => d.isOn (.att a))

/-- R155: the context on which a command's puts go; for a forwarded command the one that brought it. -/
def Dev.putQp (d : Dev) (t : Nat) : Nat :=
  match (d.tag t).cmd with
  | some c => if c.fwdIn then c.qp else mirrorQpOf c.qp (t / Config.tagsPerSlice)
  | none => 0

/-- R153, R159: a placed group enters MIRRORED, and its entries become visible to reads. -/
def Dev.groupMirrored (d : Dev) (g : Nat) (vaulted : Bool) : Dev :=
  match d.group g with
  | none => d
  | some r =>
    let d1 := d.each r.entries (fun i d =>
      if (d.dir r.slice i).state = .staged then
        (d.updDir r.slice i (fun e => { e with state := .mirrored, vaulted := vaulted })).arm (tmMirrored r.slice i)
      else d)
    d1.dropGroup g

/-- R172: a placed group takes the vault path; its command's completion is posted after the vault writes, without a
wait. -/
def Dev.toVault (d : Dev) (g : Nat) : Dev :=
  match d.group g with
  | none => d
  | some r =>
    if r.vault then d
    else (d.updGroup g (fun r => { r with vault := true, beat := d.beat })).updTag r.tag
      (fun x => { x with vaultLeft := x.vaultLeft + 1 })

/-- R156, R172: journal records that no region group carries take the vault path: an empty group stands for their vault write. `sel` are the map-only
inserts that wait for it. -/
def Dev.recsGroup (d : Dev) (t slice vol beat order : Nat) (sel : MapOnly → Bool) : Dev :=
  let n := d.cal.nextGrp
  let g : RGroup := { tag := t, slice := slice, vol := vol, grains := [], pages := [], gaps := [], rmw := false, admitBeat := beat
                      order := order, m := 0, placed := true, vault := true, beat := d.beat }
  { d with
    cal := { d.cal with
      nextGrp := n + 1, groups := d.cal.groups ++ [(n, g)]
      mapOnly := d.cal.mapOnly.map (fun e => if sel e ∧ e.grp = 0 then { e with grp := n + 1 } else e) } }

/-- R156, R172: the journal records of a command of a host take the vault path. -/
def Dev.recsToVault (d : Dev) (t : Nat) : Dev :=
  let x := d.tag t
  (d.updTag t (fun x => { x with vaultLeft := x.vaultLeft + 1, mirror := none })).recsGroup t (t / Config.tagsPerSlice) x.vol x.beat x.order
    (fun e => decide (e.order = x.order))

/-- R172: a put's context is not ON and its count is not reached. -/
def Dev.putLost (d : Dev) (m : Nat) (n : Word) : Bool := !d.isOn (.qp m) && !waitHolds (d.ctx m).cc n

/-- A tag's command has map-only inserts whose put was lost. -/
def Dev.editsLost (d : Dev) (t : Nat) : Bool :=
  d.cal.mapOnly.any (fun e => decide (e.order = (d.tag t).order) && decide (e.grp = 0) && d.putLost e.m e.count)

/-- The tag of no command of a host: the group of a replication session's records (R430). -/
def noTag : Nat := 8 * Config.tagsPerSlice

/-- R172, R430: the records that session i waits for take the vault path. -/
def Dev.repToVault (d : Dev) (i : Nat) : Dev :=
  let s := d.sess i
  match s.wait with
  | none => d
  | some (m, n) =>
    (d.updSess i (fun s => { s with wait := none })).recsGroup noTag (home s.qp) s.dstVol d.beat d.cal.order
      (fun e => e.rep && decide (e.vol = s.dstVol) && decide (e.m = m) && decide (e.count = n))

/-- A session waits for a put that was lost. -/
def Dev.repLost (d : Dev) (s : RepSess) : Bool :=
  match s.wait with
  | some (m, n) => d.putLost m n
  | none => false

/-- R153, R172: what a mirror context that left ON has not acknowledged takes the vault path. -/
def Dev.mirrorLost (d : Dev) : Dev :=
  let d1 := d.each ((d.cal.groups.filter (fun e => e.2.placed && e.2.put && !e.2.vault && d.putLost e.2.m e.2.count)).map (·.1))
    (fun g d => d.toVault g)
  let d2 := d1.each ((d1.nvt.tags.filter (fun e => decide (e.2.state ≠ .free) && (d1.editsLost e.1 || (e.2.resv && (match e.2.mirror with
    | some (m, n) => d1.putLost m n
    | none => false))))).map (·.1)) (fun t d => d.recsToVault t)
  d2.each ((d2.rep.sess.filter (fun e => d2.repLost e.2)).map (·.1)) (fun i d => d.repToVault i)

/-- R156, R158, R172: the journal records of a command that changes metadata without grain data: journal-only puts, and the vault path in
vault-through or where the mirror context is not ON. `edits` are its map-only inserts. -/
def Dev.commitRecs (d : Dev) (t : Nat) (recs : List JRec) (edits : List (Nat × Nat)) : Dev :=
  let x := d.tag t
  let m := d.putQp t
  let on := d.isOn (.qp m)
  let d1 := d.cond on (fun d => d.each (chunks 63 (recs.length + 1) recs) (fun l d =>
    d.post m (putItem d.cal.winKey ptJournal 0 (putBytes ptJournal 0 [] l []) (.fwd t))))
  let n := d1.putCount m
  let d2 := { d1 with cal := { d1.cal with
    mapOnly := d1.cal.mapOnly ++ edits.map (fun (e : Nat × Nat) => MapOnly.mk x.vol e.1 e.2 x.beat (t / Config.tagsPerSlice) x.order m n 0 false) } }
  if d2.vaultThrough || !on then d2.recsToVault t else d2.updTag t (fun x => { x with mirror := some (m, n) })

/-- R159: the puts on m whose counts are reached make their groups MIRRORED. -/
def Dev.mirrorReached (d : Dev) (m : Nat) : Dev :=
  let cc := (d.ctx m).cc
  d.each ((d.cal.groups.filter (fun e => decide (e.2.m = m) && e.2.placed && e.2.put && !e.2.vault &&
    waitHolds cc e.2.count)).map (·.1)) (fun g d => d.groupMirrored g false)

/-! ### Journal records outside the commands of hosts (R178, R543) -/

/-- The mirror context on which the key store's journal records travel. -/
def hwmContext : Nat := 0

/-- R178: post a journal-only put of records on a mirror context. Answers the count at which they are mirrored. -/
def Dev.mirrorRecs (d : Dev) (m : Nat) (recs : List JRec) : Option (Nat × Word) × Dev :=
  if recs.isEmpty ∨ d.isOn (.qp m) = false then (none, d)
  else
    let d1 := d.post m (putItem d.cal.winKey ptJournal 0 (putBytes ptJournal 0 [] recs []) (.linkMsg 0))
    (some (m, d1.putCount m), d1)

/-- R543, R556: the journal records from SEQ n on go to the peer at once. -/
def Dev.mirrorSince (d : Dev) (n : Nat) : Dev :=
  let recs := d.mde.ring.filter (fun r => decide (n ≤ r.seq))
  { d with mde := { d.mde with loose := d.mde.loose.filter (fun r => decide (r.seq < n)) } }.each (chunks 63 (recs.length + 1) recs)
    (fun l d => (d.mirrorRecs hwmContext l).2)

/-- R156: the journal records that no put has carried go to the peer; while the mirror context is not ON the resync to come copies the ring. -/
def Dev.mirrorLoose (d : Dev) : Dev :=
  { d with mde := { d.mde with loose := [] } }.each (chunks 63 (d.mde.loose.length + 1) d.mde.loose) (fun l d => (d.mirrorRecs hwmContext l).2)

/-- R543: a change is journaled in STEWARD records, 24 bytes in each: its code, its length, and its arguments. -/
def Dev.journalChange (d : Dev) (code : Nat) (args : List Byte) : Dev :=
  let bs := leBytes 2 code ++ leBytes 2 args.length ++ args
  let n := (bs.length + 23) / 24
  d.each (List.range n) (fun i d => d.journal (.steward (6 + 2 ^ 8 * i + 2 ^ 16 * n) (leField bs (24 * i) 8) (leField bs (24 * i + 8) 8)
    (leField bs (24 * i + 16) 8)))

end Sys2Proof.Machine
end

