-- ==== Sys2Proof/Machine/Capsule.lean ====
section
/-! DEFINITION. Command capsules: how their bytes form commands, what they hold on arrival, the data fetched for
them, and forwarding (R114 to R130, R150, R456). -/
namespace Sys2Proof.Machine

/-! ### Opcodes (R108) -/

def opFlush : Nat := 0x00
def opWrite : Nat := 0x01
def opRead : Nat := 0x02
def opCompare : Nat := 0x05
def opZeroes : Nat := 0x08
def opDsm : Nat := 0x09
def opVerify : Nat := 0x0C
def opResvRegister : Nat := 0x0D
def opResvReport : Nat := 0x0E
def opResvAcquire : Nat := 0x11
def opResvRelease : Nat := 0x15
def opCopy : Nat := 0x19

/-- R108: the I/O opcodes carried out. -/
def ioOpcodes : List Nat :=
  [opFlush, opWrite, opRead, opCompare, opZeroes, opDsm, opVerify, opResvRegister, opResvReport, opResvAcquire,
   opResvRelease, opCopy]

/-- R109: write-class commands. -/
def writeClass (op : Nat) : Bool := decide (op ∈ [opWrite, opZeroes, opDsm, opCopy])

/-- Commands that bring data from the host. -/
def bringsData (op : Nat) : Bool := decide (op ∈ [opWrite, opCompare, opDsm, opCopy, opResvRegister, opResvAcquire, opResvRelease])

/-! ### Capsule bytes (R8, R114; the layouts of NVMe that R102 names) -/

/-- A keyed SGL data block of 16 bytes. -/
def keyedOf (b : List Byte) : KeyedSgl :=
  ⟨leField b 0 8, BitVec.ofNat 32 (leField b 11 4), leField b 8 3, decide (leField b 15 1 % 16 = 15)⟩

/-- R114: SGL1 of a capsule. -/
def sglOf (cap : List Byte) : Sgl :=
  let s := (cap.drop 24).take 16
  let ty := leField s 15 1
  if ty / 16 = 4 then .keyed (keyedOf s)
  else if ty = 0x01 then .inCapsule (leField s 8 4)
  else if ty = 0x31 then
    let n := leField s 8 4 / 16
    let base := 64 + leField s 0 8
    let bs := (List.range n).map (fun i => (cap.drop (base + 16 * i)).take 16)
    if 2 ≤ n ∧ n ≤ 8 ∧ bs.all (fun b => decide (leField b 15 1 / 16 = 4)) then .segment (bs.map keyedOf)
    else .other ty
  else .other ty

/-- Bytes that an SGL describes. -/
def sglLen : Sgl → Nat
  | .none => 0
  | .inCapsule n => n
  | .keyed b => b.len
  | .segment bs => bs.foldl (fun n b => n + b.len) 0
  | .other _ => 0

/-- R142: the SGL type that event 323 reports. -/
def sglType : Sgl → Nat
  | .none => 0
  | .inCapsule _ => 0
  | .keyed _ => 4
  | .segment _ => 3
  | .other ty => ty / 16

/-- The keyed blocks from which data is fetched or to which it goes, in order. -/
def sglBlocks : Sgl → List KeyedSgl
  | .keyed b => [b]
  | .segment bs => bs
  | _ => []

/-- Dataset Management ranges: 16 bytes each, length in blocks and starting block. -/
def dsmRanges (n : Nat) (bs : List Byte) : List LbaRange :=
  (List.range n).map (fun i => ⟨leField bs (16 * i + 8) 8, leField bs (16 * i + 4) 4⟩)

/-- Copy source ranges of descriptor format 0: 32 bytes each, starting block and zero-based blocks. -/
def copyRanges (n : Nat) (bs : List Byte) : List LbaRange :=
  (List.range n).map (fun i => ⟨leField bs (32 * i + 8) 8, leField bs (32 * i + 16) 2 + 1⟩)

/-- How many ranges a command names: NR, zero-based, in dword 10 for Dataset Management, dword 12 for Copy. -/
def rangeCount (cap : List Byte) (op : Nat) : Nat :=
  if op = opDsm then leField cap 40 1 + 1 else if op = opCopy then leField cap 48 1 + 1 else 0

/-- A command from the bytes of its capsule on queue pair q. -/
def cmdOf (q : Nat) (cap : List Byte) : HostCmd :=
  let op := leField cap 0 1
  let sgl := sglOf cap
  let data := match sgl with
    | .inCapsule n => (cap.drop (64 + leField cap 24 8)).take n
    | _ => []
  let n := rangeCount cap op
  { qp := q, cid := BitVec.ofNat 16 (leField cap 2 2), opcode := op, nsid := leField cap 4 4
    slba := leField cap 40 8, nlb := leField cap 48 2 + 1, sgl := sgl
    dlen := if op = opDsm then 16 * n else if op = opCopy then 32 * n
      else if op = opResvReport then 4 * (leField cap 40 4 + 1)
      else if op = opResvAcquire ∨ op = opResvRegister then 16 else if op = opResvRelease then 8 else 0
    ranges := if op = opDsm then dsmRanges n data else if op = opCopy then copyRanges n data else []
    ad := decide (leField cap 44 1 / 4 % 2 = 1)
    copyFormat := leField cap 49 1 % 16
    data := data, fwdIn := false, fwdTag := 0, hostIdx := 0, pages := [] }

/-! ### Where a command goes (R119, R140) -/

/-- The volume that an NSID names in a subsystem (R102, R104). -/
def Dev.volumeOf (d : Dev) (sub nsid : Nat) : Option Nat :=
  (d.nvt.ns.find? (fun e => e.2.valid && decide (e.2.subsys = sub) && decide (e.2.nsid = nsid))).map (·.1)

/-- The volume of a command of a host queue; a forwarded command and a replicated grain name it themselves. -/
def Dev.cmdVolume (d : Dev) (c : HostCmd) : Option Nat :=
  if c.fwdIn || c.rep.isSome then (if (d.vol c.nsid).valid then some c.nsid else none)
  else d.volumeOf (d.ctrl (d.bind c.qp).cntlid).subsys c.nsid

/-- A command's data length in bytes. -/
def Dev.dataLen (d : Dev) (c : HostCmd) : Nat :=
  if c.opcode ∈ [opWrite, opRead, opCompare] then
    match d.cmdVolume c with
    | some v => c.nlb * (d.vol v).blk
    | none => 0
  else c.dlen

/-- R36, R108: whether a command charges OUT, and its charge. -/
def Dev.charge (d : Dev) (s : Nat) (c : HostCmd) : Bool × Nat :=
  let fix := d.fld (Reg.SLI_ADM_CMD_CMD s)
  match d.cmdVolume c with
  | none => (false, fix)
  | some v =>
    let up (n : Nat) : Nat := (n + 511) / 512 * 512
    if c.opcode ∈ [opWrite, opCompare] then (false, up (d.dataLen c) + fix)
    else if c.opcode ∈ [opRead, opResvReport] then (true, up (d.dataLen c) + fix)
    else if c.opcode = opVerify then (true, up (c.nlb * (d.vol v).blk) + fix)
    else if c.opcode ∈ [opDsm, opCopy] then (false, up c.dlen + fix)
    else (false, fix)

/-! ### Arrival -/

/-- R150: the pages that the in-capsule data of a Write takes, or none where they do not fit. -/
def Dev.receivePages (d : Dev) (c : HostCmd) : Option (List Nat × Dev) :=
  match c.sgl, d.cmdVolume c with
  | .inCapsule _, some v => if c.opcode = opWrite then d.allocGrains (.received c.qp) (cmdGrains c (d.vol v)) else some ([], d)
  | _, _ => some ([], d)

/-- R150: the data of a Write lies at its offset in the pages reserved for it. -/
def Dev.storeReceived (d : Dev) (pages : List Nat) (c : HostCmd) : Dev :=
  match pages, d.cmdVolume c with
  | _ :: _, some v => d.storeOwn ((cmdGrains c (d.vol v)).zip pages) (cmdRange c (d.vol v)).1 c.data
  | _, _ => d

/-- R35: a command waits for admission on its home slice. R113: its arrival is keep-alive evidence. -/
def Dev.enqueueCmd (d : Dev) (s : Nat) (c : HostCmd) : Dev :=
  (d.updSlice s (fun x => { x with waiting := x.waiting ++ [c] })).setFld (Reg.SLI_ADM_STS_WAITING s)
    (min ((d.slice s).waiting.length + 1) 65535)

/-! ### Forwarding (R127, R130, R456) -/

/-- The 64-byte submission entry of a command, as FWD_CMD carries it. -/
def sqeBytes (c : HostCmd) : List Byte :=
  leBytes 1 c.opcode ++ leBytes 1 0 ++ leBytes 2 c.cid.toNat ++ leBytes 4 c.nsid ++ leBytes 16 0 ++ leBytes 16 0 ++
    (if c.opcode = opDsm then leBytes 8 (c.dlen / 16 - 1 + (if c.ad then 2 ^ 34 else 0)) else leBytes 8 c.slba) ++
    (if c.opcode = opCopy then leBytes 2 (c.dlen / 32 - 1 + c.copyFormat * 256) else leBytes 2 (c.nlb - 1)) ++
    leBytes 14 0

/-- R456: a FWD_DATA of at most 262,144 bytes, cut on the volume's 32 KiB regions. Answers offset and length. -/
def fwdParts (start : Nat) : Nat → Nat → Nat → List (Nat × Nat)
  | 0, _, _ => []
  | fuel + 1, off, n =>
    let cutAt := (start + off + 262144) / 32768 * 32768 - (start + off)
    if n ≤ 262144 then (if n = 0 then [] else [(off, n)]) else (off, cutAt) :: fwdParts start fuel (off + cutAt) (n - cutAt)

/-- R127, R452: forward a command to the owner. -/
def Dev.forward (d : Dev) (t : Nat) : Dev :=
  let x := d.tag t
  match x.cmd with
  | none => d
  | some c =>
    let m := mirrorQpOf c.qp (t / 8192)
    let d1 := (d.updTag t (fun x => { x with fwdOut := true, begun := true })).bumpSat Reg.NVT_FWD_SENT_COUNT 1
    d1.post m ⟨.send, fwdHeader 1 (t / 8192) t x.vol c.hostIdx 0 c.data.length ++ sqeBytes c ++ c.data, .fwd t, none⟩

/-- R127, R456: data fetched for a forwarded command follows its FWD_CMD. -/
def Dev.forwardData (d : Dev) (t : Nat) (bs : List Byte) : Dev :=
  let x := d.tag t
  match x.cmd with
  | none => d
  | some c =>
    let m := mirrorQpOf c.qp (t / 8192)
    d.each (fwdParts (cmdRange c (d.vol x.vol)).1 (bs.length / 32768 + 1) 0 bs.length) (fun p d =>
      d.post m ⟨.send, fwdHeader 2 (t / 8192) t x.vol c.hostIdx p.1 p.2 ++ (bs.drop p.1).take p.2, .fwd t, none⟩)

/-- R142: an NVMe status as one number, SCT × 256 + SC: DESIGN CHOICE, the spec says only that the parameter is the NVMe status. -/
def statusCode (st : Status) : Nat := st.sct * 256 + st.sc

/-- R130: a forwarded command still unanswered ends with Internal Path Error. -/
def Dev.forwardFail (d : Dev) (t : Nat) : Dev :=
  let x := d.tag t
  if x.state = .running ∧ x.fwdOut then
    ((d.complete t stPathInternal none).bumpSat Reg.NVT_FWD_FAIL_COUNT 1).raise 322 t x.vol (statusCode stPathInternal)
  else d

/-- R130: the way of a forwarded command is gone: the link has left UP, or the mirror context that carries it is not ON. -/
def Dev.forwardLost (d : Dev) (t : Nat) : Bool :=
  let x := d.tag t
  x.fwdOut && decide (x.state = .running) && (!d.linkSends || (match x.cmd with
    | some c => !d.isOn (.qp (mirrorQpOf c.qp (t / Config.tagsPerSlice)))
    | none => false))

/-! ### Submission entries (R81, R117) -/

/-- R81: the receive slot of a finished message is free. -/
def Dev.freeSlot (d : Dev) (q : Nat) : Dev := d.updCtx q (fun c => { c with rqFree := min c.rqSlots (c.rqFree + 1) })

/-- R81, R117: an entry of the submission queue is free, and its head moves on. -/
def Dev.entryFreed (d : Dev) (q : Nat) : Dev :=
  (d.freeSlot q).updBind q (fun b => { b with
    sqhd := if b.sqSize = 0 then b.sqhd + 1 else BitVec.ofNat 16 ((b.sqhd.toNat + 1) % b.sqSize) })

/-! ### Data by RDMA READ -/

/-- Post an RDMA READ for each block of a command's SGL (R114). -/
def Dev.startFetch (d : Dev) (t : Nat) (c : HostCmd) : Dev :=
  let d1 := d.updTag t (fun x => { x with left := sglLen c.sgl, fetched := 0 })
  d1.each ((sglBlocks c.sgl).flatMap (fun b => d1.splitItem c.qp ⟨.read b.addr b.key b.len, [], .hostFetch t, none⟩))
    (fun w d => d.post c.qp w)

/-- The end of a group in its volume. -/
def RGroup.stop (g : RGroup) : Nat := (g.grains.getLast?.map (fun x => x.off + x.size)).getD 0

/-- R165: the groups of a write whose data has arrived and that wait for no gap bytes join their slices' placement
queues. -/
def Dev.queueGroups (d : Dev) (t : Nat) : Dev :=
  let x := d.tag t
  match x.cmd with
  | none => d
  | some c =>
    let r := cmdRange c (d.vol x.vol)
    let have_ := if x.left ≤ x.fetched then r.2 else r.1 + x.fetched
    let queued := d.cal.placeQ.flatMap (·.2)
    let ready := d.cal.groups.filter (fun e => decide (e.2.tag = t) && !e.2.placed && e.2.gaps.isEmpty && !d.merging e.2.slice e.1 &&
      !(queued.contains e.1) && decide (min e.2.stop r.2 ≤ have_))
    d.each ready (fun e d => { d with
      cal := { d.cal with
      placeQ := tupd [] d.cal.placeQ e.2.slice (fun l => l ++ [e.1]) } })

/-- Bytes of an RDMA READ from the host have arrived for a command: a Write's go into its own pages, any other
command's are kept with it, and a forwarded command's go on to the owner. -/
def Dev.fetchArrived (d : Dev) (t : Nat) (bs : List Byte) : Dev :=
  let x := d.tag t
  match x.cmd with
  | none => d
  | some c =>
    if x.state ≠ .running ∨ bs = [] then d
    else if x.fwdOut then
      let d1 := d.updTag t (fun x => { x with fetched := x.fetched + bs.length, data := x.data ++ bs })
      if (d1.tag t).left ≤ (d1.tag t).fetched then d1.forwardData t (d1.tag t).data else d1
    else if c.opcode = opWrite then
      let v := d.vol x.vol
      let d1 := (d.storeOwn ((cmdGrains c v).zip x.pages) ((cmdRange c v).1 + x.fetched) bs).updTag t
        (fun x => { x with fetched := x.fetched + bs.length })
      d1.queueGroups t
    else d.updTag t (fun x => { x with fetched := x.fetched + bs.length, data := x.data ++ bs })

end Sys2Proof.Machine
end

