-- ==== Sys2Proof/Machine/Transport.lean ====
section
/-! DEFINITION. Host ports and the RDMA transport: what each of its commands does (R58 to R101, R682, R683). -/
namespace Sys2Proof.Machine

/-! ### Ports -/

/-- R59: bits of MODE3 to MODE0 in a write of HPT_QUAD_MODE. -/
def quadModes (val : Nat) : List Nat := (List.range 4).map (fun q => val / 2 ^ (4 * q) % 8)

/-- R59: a quad whose mode would change has every port OFF. -/
def Dev.quadIdle (d : Dev) (q : Nat) : Bool := (List.range 4).all (fun i => decide (d.ustate (.port (4 * q + i)) = .off))

/-- R59: a write of HPT_QUAD_MODE is allowed: value 4 on both quads of a pair or on neither, no value that R58 does
not give, and every port of a quad whose mode changes OFF. -/
def Dev.quadWriteOk (d : Dev) (ms : List Nat) : Bool :=
  let m (q : Nat) : Nat := ms.getD q 0
  ms.all (fun x => decide (x ≤ 4)) && (decide (m 0 = 4) == decide (m 1 = 4)) && (decide (m 2 = 4) == decide (m 3 = 4)) &&
    (List.range 4).all (fun q => decide (m q = d.fld (Reg.HPT_QUAD_MODE q)) || d.quadIdle q)

/-- QUAD_MODE_WRITE, R59. -/
def Dev.quadModeWrite (d : Dev) (val : Nat) : Dev :=
  let ms := quadModes val
  if d.quadWriteOk ms then
    d.each (List.range 4) (fun q d => d.setFld (Reg.HPT_QUAD_MODE q) (ms.getD q 0))
  else d.raise 128 0 0 0

def execQuadModeWrite (val : Word) (s : State) : Ans := lift (fun d => d.quadModeWrite val.toNat) s

/-- PORT_LINK_TIMEOUT, R68: no alignment and FEC lock within LINK_TIMEOUT beats. -/
def Dev.portLinkTimeout (d : Dev) (p : Nat) : Dev :=
  if d.ustate (.port p) = .starting ∧ d.expired (tmStart (.port p)) (d.fld (Reg.HPT_CFG_LINK_TIMEOUT p)) then
    d.seqNote (.port p) (.fail portLinkTimeoutCode)
  else d

def execPortLinkTimeout (p : Nat) (s : State) : Ans := lift (fun d => d.portLinkTimeout p) s

/-- PORT_LINK_LOST, R68: alignment lost for more than 8 beats while ON. -/
def Dev.portLinkLost (d : Dev) (p : Nat) : Dev :=
  if d.isOn (.port p) then d.stopUnit (.port p) portLinkLostCode else d

def execPortLinkLost (p : Nat) (s : State) : Ans := lift (fun d => d.portLinkLost p) s

/-- R63: the priorities in the 802.1Q tags of a frame from offset `at_`, and where its EtherType stands. -/
def ethTags : Nat → Nat → List Byte → List Nat × Nat
  | 0, at_, _ => ([], at_)
  | n + 1, at_, b =>
    if beField b at_ 2 = 0x8100 then
      let r := ethTags n (at_ + 4) b
      (leField b (at_ + 2) 1 / 32 :: r.1, r.2)
    else ([], at_)

/-- R63: what an IPv4 packet or an IPv6 packet carries: UDP to port 4791, ICMP echo, or IPv6 neighbour discovery. PRESUMED (log 166): the numbers of
the protocols. -/
def ipKind (proto : Nat) (v6 : Bool) (b : List Byte) : FrameKind :=
  let ty := leField b 0 1
  if proto = 17 then (if beField b 2 2 = 4791 then .roce else .other)
  else if !v6 then (if proto = 1 ∧ (ty = 0 ∨ ty = 8) then .icmpEcho else .other)
  else if proto ≠ 58 then .other
  else if ty = 128 ∨ ty = 129 then .icmpEcho
  else if 133 ≤ ty ∧ ty ≤ 137 then .ndp
  else .other

/-- R63: what a frame carries. -/
def frameKind (b : List Byte) : FrameKind :=
  let at_ := (ethTags 4 12 b).2
  let p := b.drop (at_ + 2)
  match beField b at_ 2 with
  | 0x0806 => .arp
  | 0x88CC => .lldp
  | 0x0800 => ipKind (leField p 9 1) false (p.drop (4 * (leField p 0 1 % 16)))
  | 0x86DD => ipKind (leField p 6 1) true (p.drop 40)
  | _ => .other

/-- R63: the port takes a frame of this length with these tags. DESIGN CHOICE (log 167): MAX_FRAME counts as it is written, in its range or not. -/
def Dev.frameFits (d : Dev) (p len tags : Nat) : Bool := decide (len ≤ d.fld (Reg.HPT_MTU_MAX_FRAME p)) && decide (tags ≤ 1)

/-- FRAME_RECEIVE, R63: a frame goes to the steward, is dropped and counted, or is RoCEv2, whose packet the
transport takes. -/
def Dev.frameReceive (d : Dev) (p : Nat) (f : Frame) : Dev :=
  if !d.isOn (.port p) then d
  else if !d.frameFits p f.bytes.length (ethTags 4 12 f.bytes).1.length then d.bumpSat (Reg.HPT_RX_DROP_COUNT p) 1
  else
    match frameKind f.bytes with
    | .arp | .ndp | .icmpEcho | .lldp =>
      { d with xpt := { d.xpt with toSteward := d.xpt.toSteward ++ [(p, f.bytes)] } }
    | .roce => d
    | .other => d.bumpSat (Reg.HPT_RX_DROP_COUNT p) 1

def execFrameReceive (p : Nat) (f : Frame) (s : State) : Ans := lift (fun d => d.frameReceive p f) s

/-! ### Priority flow control (R64 to R66) -/

/-- R64: which of a port's two priorities a number names, if that one is enabled. -/
def Dev.prioOf (d : Dev) (p n : Nat) : Option Prio :=
  if d.flag (Reg.HPT_PFC_PFC_EN p) ∧ n = d.fld (Reg.HPT_PFC_PRIO_A p) then some .a
  else if d.flag (Reg.HPT_PFC_PRIO_B_EN p) ∧ n = d.fld (Reg.HPT_PFC_PRIO_B p) then some .b
  else none

def PortRec.xoff (r : PortRec) : Prio → Bool
  | .a => r.xoffA
  | .b => r.xoffB
def PortRec.setXoff (r : PortRec) (pr : Prio) (x : Bool) : PortRec :=
  match pr with
  | .a => { r with xoffA := x }
  | .b => { r with xoffB := x }
def PortRec.setPaused (r : PortRec) (pr : Prio) (x disc : Bool) : PortRec :=
  match pr with
  | .a => { r with pausedA := x, discardA := disc }
  | .b => { r with pausedB := x, discardB := disc }
def PortRec.setFill (r : PortRec) (pr : Prio) (n : Nat) : PortRec :=
  match pr with
  | .a => { r with rxBufA := n }
  | .b => { r with rxBufB := n }

/-- R65: send XOFF with PAUSE_QUANTA quanta, or XON. -/
def Dev.sendPfc (d : Dev) (p : Nat) (pr : Prio) (x : Bool) : Dev :=
  let d1 := (d.updPort p (fun r => r.setXoff pr x)).emit
    (.pfc p pr x (if x then d.fld (Reg.HPT_PFC_TIME_PAUSE_QUANTA p) else 0))
  if x then d1.arm (tmXoff p pr) else d1.disarm (tmXoff p pr)

/-- R65: the receive buffer of a priority holds `fill` bytes. -/
def Dev.pfcFill (d : Dev) (p : Nat) (pr : Prio) (fill : Nat) : Dev :=
  let d1 := d.updPort p (fun r => r.setFill pr fill)
  if d1.fld (Reg.HPT_PFC_XOFF_KIB p) * 1024 < fill ∧ (d1.port p).xoff pr = false then d1.sendPfc p pr true
  else if fill < d1.fld (Reg.HPT_PFC_XON_KIB p) * 1024 ∧ (d1.port p).xoff pr then d1.sendPfc p pr false
  else d1

/-- PFC_REFRESH, R65: while XOFF holds it is repeated every REFRESH beats. -/
def Dev.pfcRefresh (d : Dev) (p : Nat) (pr : Prio) : Dev :=
  if (d.port p).xoff pr ∧ d.expired (tmXoff p pr) (d.fld (Reg.HPT_PFC_TIME_REFRESH p)) then d.sendPfc p pr true else d

/-- R65: the receive buffers drain into the transport in every beat, at a rate that spec/ does not give: what is left is a free value. -/
def Dev.pfcDrain (d : Dev) : Dev :=
  d.each (d.xpt.ports.filter (fun e => decide (0 < e.2.rxBufA ∨ 0 < e.2.rxBufB))) (fun e d =>
    let (n, d1) := d.draw
    let (m, d2) := d1.draw
    (d2.pfcFill e.1 .a (min e.2.rxBufA (Config.freeNat n))).pfcFill e.1 .b (min e.2.rxBufB (Config.freeNat m)))

def execPfcRefresh (p : Nat) (pr : Prio) (s : State) : Ans := lift (fun d => d.pfcRefresh p pr) s

/-- R65: the pause of a priority ends: what was queued leaves. -/
def Dev.resume (d : Dev) (p : Nat) (pr : Prio) : Dev :=
  let r := d.port p
  let d1 := (d.updPort p (fun r => { r.setPaused pr false false with txQ := r.txQ.filter (fun e => decide (e.1 ≠ pr)) })).disarm (tmPause p pr)
  { d1 with out := d1.out ++ (r.txQ.filter (fun e => decide (e.1 = pr))).map (fun e => Out.roce p (d.portBalls p) e.2) }

/-- PFC_FRAME_RECEIVE, R65, R66: the partner pauses priority A or B, or resumes it; other priorities are ignored. -/
def Dev.pfcFrame (d : Dev) (p prio : Nat) (pause : Bool) : Dev :=
  match d.prioOf p prio with
  | none => d
  | some pr =>
    if pause then
      if (d.port p).paused pr then d
      else (d.updPort p (fun r => r.setPaused pr true false)).arm (tmPause p pr)
    else d.resume p pr

def execPfcFrameReceive (p prio : Nat) (pause : Bool) (s : State) : Ans := lift (fun d => d.pfcFrame p prio pause) s

/-- PFC_WATCHDOG, R66: a priority has been paused for more than PFC_WD beats without a break: its packets are discarded until the pause ends. -/
def Dev.pfcWatchdog (d : Dev) (p : Nat) (pr : Prio) : Dev :=
  let wd := d.fld (Reg.HPT_PFC_WD_PFC_WD p)
  if wd ≠ 0 ∧ (d.port p).paused pr ∧ (d.port p).discard pr = false ∧ d.expired (tmPause p pr) (wd + 1) then
    (d.updPort p (fun r => { r.setPaused pr true true with txQ := r.txQ.filter (fun e => decide (e.1 ≠ pr)) })).raise (67 + 4 * p) 0 0 0
  else d

def execPfcWatchdog (p : Nat) (pr : Prio) (s : State) : Ans := lift (fun d => d.pfcWatchdog p pr) s

/-! ### Where a packet arrives (R74, R685) -/

/-- R74, R685: the context that a packet reaches; none where it is dropped. `via` is the host port at which it arrives, or none for Crediox, where
incarnations are not checked. -/
def Dev.reaches (d : Dev) (via : Option Nat) (dqpn : Psn) : Option Nat :=
  let q := dqpn.toNat % 2 ^ 14
  let c := d.ctx q
  let there := match via with
    | some _ => decide (64 ≤ q) && decide (dqpn.toNat / 2 ^ 14 = c.incarn)
    | none => decide (q < 64)
  if there && decide (c.unit.state ≠ .off) then some q else none

/-- A packet at a port that is not ON is not seen; one that reaches no context is dropped and counted (R74); one for a context in ERROR is
dropped (R76). -/
def Dev.arrive (d : Dev) (via : Option Nat) (dqpn : Psn) (f : Nat → Dev → Dev) : Dev :=
  let up := match via with
    | some p => d.isOn (.port p)
    | none => true
  if !up then d
  else
    match d.reaches via dqpn with
    | none => d.bumpSat Reg.XPT_DROP_COUNT 1
    | some q => if (d.ctx q).xstate = .error then d else f q d

/-! ### Congestion (R67) -/

/-- R67: a packet marked Congestion Experienced causes a notification, at most one per queue pair per 8 beats. -/
def Dev.cnpSend (d : Dev) (q path : Nat) : Dev :=
  if d.armed (tmCnp q) = false ∨ d.expired (tmCnp q) 8 then (d.transmit q path (.cnp q)).arm (tmCnp q) else d

/-- CNP_RECEIVE, R67: the limit is halved, down to 1. -/
def Dev.cnpReceive (d : Dev) (q : Nat) : Dev :=
  (d.updCtx q (fun c => { c with rate := max 1 (c.rate / 2) })).arm (tmRate q)

def execCnpReceive (dest : QpAddr) (s : State) : Ans := lift (fun d => d.arrive dest.via dest.dqpn (fun q d => d.cnpReceive q)) s

/-- RATE_LIMIT_RECOVER, R67: 1,024 beats without a notification double the limit, up to 64. -/
def Dev.rateRecover (d : Dev) (q : Nat) : Dev :=
  if d.expired (tmRate q) 1024 then
    let n := min 64 (2 * (d.ctx q).rate)
    let d1 := d.updCtx q (fun c => { c with rate := n })
    if n = 64 then d1.disarm (tmRate q) else d1.arm (tmRate q)
  else d

def execRateLimitRecover (q : Nat) (s : State) : Ans := lift (fun d => d.rateRecover q) s

/-! ### Receiving (R72, R79 to R82, R97) -/

/-- The queue pair accepts incoming requests: RTR or RTS (R76). -/
def QpCtx.receives (c : QpCtx) : Bool := decide (c.xstate = .rtr) || decide (c.xstate = .rts)

/-- No SEND is accepted: no slot is free, or the queue pair advertises none because it stops (R81, R82). -/
def QpCtx.noSlot (c : QpCtx) : Bool := decide (c.rqFree = 0) || decide (c.unit.state = .stopping) || decide (c.unit.state = .pendOn)

/-- R81: the credit that an acknowledgement advertises; 0 in STOPPING. -/
def QpCtx.credit (c : QpCtx) : Nat :=
  if c.unit.state = .stopping ∨ c.unit.state = .pendOn then 0 else aethRound c.rqFree

/-- Acknowledge up to a PSN of a path. -/
def Dev.sendAck (d : Dev) (q path : Nat) (psn : Psn) : Dev :=
  let c := d.ctx q
  d.transmit q path (.ack q path psn c.credit (if c.mp then c.msgRxBase else 0))

/-- R72, R97: answer a request with a NAK and stop the queue pair. -/
def Dev.refuse (d : Dev) (q path : Nat) (psn : Psn) (k : NakKind) (code : Nat) : Dev :=
  (d.transmit q path (.nak q path psn k)).stopUnit (.qp q) code

/-- R82: an RNR NAK. -/
def Dev.rnr (d : Dev) (q path : Nat) (psn : Psn) : Dev := d.transmit q path (.rnrNak q path psn (d.ctx q).rnrTimer)

/-- R115: a message longer than its receive buffer. -/
def Dev.tooLong (d : Dev) (q : Nat) : Dev := (d.stopUnit (.qp q) qpLocalLength).raiseOnce 323 323 q 0xFF 0

/-- R113: the beat of the last command on a controller's queues. -/
def Dev.noteCommand (d : Dev) (q : Nat) : Dev :=
  if (d.bind q).bound then d.updCtrl (d.bind q).cntlid (fun c => { c with lastCmdBeat := d.beat }) else d

/-- R456: the command of a FWD_CMD. -/
def fwdCmdOf (m : Nat) (b : List Byte) : HostCmd := { cmdOf m (b.drop 32) with nsid := leField b 4 2, hostIdx := leField b 6 2 }

/-- R150: the own pages for the data of a SEND whose first packet brings these bytes, or none where own-dirty would pass its limit. Those of a
FWD_CMD wait under its RTAG. -/
def Dev.reserveSend (d : Dev) (q : Nat) (b : List Byte) : Option (List Nat × Dev) :=
  let c := d.ctx q
  if c.cls = 1 ∧ leField b 0 1 = 1 then
    let cmd := fwdCmdOf q b
    if cmd.opcode = opWrite ∧ (d.vol cmd.nsid).valid then
      (d.allocGrains (.forwarded q (leField b 2 2)) (cmdGrains cmd (d.vol cmd.nsid))).map (fun r => ([], r.2))
    else some ([], d)
  else if c.cls = 0 ∧ (d.bind q).bound ∧ (d.bind q).qid ≠ 0 ∧ leField b 0 1 ≠ 0x7F then d.receivePages (cmdOf q b)
  else some ([], d)

/-- R94: the immediate data of a message is released with it. -/
def Dev.noteImm (d : Dev) (q : Nat) (imm : Option Word) : Dev :=
  match imm with
  | some w => { d with xpt := { d.xpt with imms := d.xpt.imms ++ [(q, w)] } }
  | none => d

/-- A complete SEND message is delivered: an I/O command waits for admission with its data in the pages reserved for it, an admin or fabrics
command for the steward, a message on a mirror or replication context for its consumer. -/
def Dev.deliver (d : Dev) (q : Nat) (pages : List Nat) (imm : Option Word) (bytes : List Byte) : Dev :=
  let d := d.noteImm q imm
  if (d.ctx q).cls ≠ 0 then { d with xpt := { d.xpt with delivered := d.xpt.delivered ++ [(q, bytes)] } }
  else if (d.bind q).bound ∧ (d.bind q).qid ≠ 0 ∧ leField bytes 0 1 ≠ 0x7F then
    ((d.storeReceived pages (cmdOf q bytes)).noteCommand q).enqueueCmd (home q) { cmdOf q bytes with pages := pages }
  else { d.noteCommand q with nvt := { (d.noteCommand q).nvt with adminWait := d.nvt.adminWait ++ [q] } }

/-- A RDMA READ response has arrived whole. -/
def Dev.readDone (d : Dev) (q : Nat) (w : WorkItem) (bytes : List Byte) : Dev :=
  let d1 := d.updCtx q (fun c => { c with rdOut := c.rdOut - 1 })
  match w.prod with
  | .hostFetch t => d1.fetchArrived t bytes
  | _ => d1

/-- The oldest RDMA READ outstanding on a queue pair. -/
def Dev.oldestRead (d : Dev) (q : Nat) : Option SentMsg := (d.work q).sent.find? (fun m => workIsRead m.item.op)

def readLen (w : WorkItem) : Nat := match w.op with
  | .read _ _ n => n
  | _ => 0

/-! ### What an acknowledgement moves (R79, R80, R84) -/

/-- The oldest unacknowledged PSN of a path. -/
def Dev.oldestUna (d : Dev) (q p : Nat) : Psn :=
  match (d.unacked q p).head? with
  | some m => m.first
  | none => (d.ctx q).txNext p

/-- R84: a message on the send side is done: CC rises, and what that means follows. -/
def Dev.ccRise (d : Dev) (q : Nat) : Dev :=
  (d.updCtx q (fun c => { c with cc := c.cc + 1 })).cond (decide (q < 64)) (fun d => d.mirrorReached q)

/-- R183, R159: what an acknowledged item means to its producer. -/
def Dev.itemAcked (d : Dev) (w : WorkItem) : Dev :=
  match w.prod with
  | .releasePut s i => d.freeEntry (dirKey s i)
  | _ => d

/-- R80: an acknowledgement advances on a path: `rest` is what stays sent. The oldest unacknowledged PSN follows, RETRY_LEFT and RNR_LEFT are
reloaded, and the timer runs on only while something is unacknowledged. -/
def Dev.advance (d : Dev) (q p : Nat) (rest : List SentMsg) : Dev :=
  let d1 := d.updWork q (fun x => { x with sent := rest })
  let d2 := d1.updCtx q (fun c => { ((c.setTxUna p (d1.oldestUna q p)).setRetry p c.retryCnt) with rnrLeft := c.rnrRetry })
  if (d2.unacked q p).isEmpty then d2.disarm (tmAck q p) else d2.arm (tmAck q p)

/-- Messages of a context are done; on multipath CC follows MSG_ACK instead (R84, R90). -/
def Dev.messagesDone (d : Dev) (q : Nat) (gone : List SentMsg) : Dev :=
  (d.cond (decide (q < 64)) (fun d => d.count 0 0x004 (gone.filter (fun m => isPut m.item)).length)).each gone (fun m d =>
    (if (d.ctx q).mp then d else d.ccRise q).itemAcked m.item)

/-- What an acknowledgement of `psn` leaves of the sent messages, oldest first, and the messages that it ends. It reaches into a message, and on a
single path it stops at an RDMA READ, which its response ends; on multipath the READ has its own packet acknowledged and waits on. -/
def ackSplit (mp : Bool) (psn : Psn) (p : Nat) : List SentMsg → List SentMsg × List SentMsg
  | [] => ([], [])
  | m :: t =>
    let r := ackSplit mp psn p t
    if m.path ≠ p ∨ m.acked then (m :: r.1, r.2)
    else if psnBefore psn m.first ∨ (workIsRead m.item.op && !mp) then (m :: t, [])
    else if psnBefore psn m.last then ({ m with first := psn + 1, off := m.off + (psn - m.first).toNat + 1 } :: t, [])
    else if workIsRead m.item.op then ({ m with first := m.last + 1 } :: r.1, r.2)
    else (r.1, m :: r.2)

/-- R79, R80: every PSN of a path up to `psn` is acknowledged. A PSN never sent acknowledges nothing. -/
def Dev.ackUpTo (d : Dev) (q p : Nat) (psn : Psn) : Dev :=
  let sent := (d.work q).sent
  let r := ackSplit (d.ctx q).mp psn p sent
  if !psnBefore psn ((d.ctx q).txNext p) ∨ r.1 = sent then d else (d.advance q p r.1).messagesDone q r.2

/-! ### The single path (R71, R79, R81, R82) -/

/-- A packet of an RDMA READ response (R71); it also acknowledges the requests before it. One out of order is dropped, and the timer sends the
request again for what is left (log 168). -/
def Dev.readResponse (d : Dev) (q : Nat) (pkt : Packet) : Dev :=
  match d.oldestRead q with
  | none => d
  | some m =>
    if pkt.psn ≠ m.first then d
    else
      let d0 := d.ackUpTo q m.path (m.first - 1)
      let got := (d0.work q).rdBuf ++ pkt.payload
      if readLen m.item ≤ got.length then
        let d1 := (d0.updWork q (fun x => { x with rdBuf := [] })).advance q m.path ((d0.work q).sent.filter (fun x => decide (x ≠ m)))
        ((d1.ccRise q).readDone q m.item (got.take (readLen m.item))).pump q ((d1.work q).sendQ.length + 1)
      else (d0.updWork q (fun x => { x with rdBuf := got })).advance q m.path
        ((d0.work q).sent.map (fun x => if x = m then { x with first := x.first + 1, off := x.off + 1 } else x))

/-- Longest SEND: a capsule with in-capsule data (R115). -/
def recvMax : Nat := 64 + 16384

/-- The expected PSN moves on, and with a message's last packet the MSN, and it is acknowledged. -/
def Dev.took (d : Dev) (q : Nat) (psn : Psn) (ends : Bool) : Dev :=
  let d1 := d.updCtx q (fun c => { c with rqEpsn := psn + 1, msn := if ends then c.msn + 1 else c.msn })
  if ends then d1.sendAck q 0 psn else d1

def posBegins (p : PktPos) : Bool := decide (p = .only ∨ p = .first)
def posEnds (p : PktPos) : Bool := decide (p = .only ∨ p = .last)

/-- The rest of a SEND packet, once its message has its slot and its pages. -/
def Dev.sendBody (d : Dev) (q : Nat) (pkt : Packet) : Dev :=
  let w := d.work q
  let rx := if posBegins pkt.pos then pkt.payload else w.rx ++ pkt.payload
  if (d.ctx q).cls = 0 ∧ recvMax < rx.length then d.tooLong q
  else if posEnds pkt.pos then
    ((d.updWork q (fun x => { x with rx := [], rxPages := [], nakSent := false })).deliver q w.rxPages pkt.imm rx).took q pkt.psn true
  else (d.updWork q (fun x => { x with rx := rx, nakSent := false })).took q pkt.psn false

/-- A SEND packet with the expected PSN (R81, R82, R115, R150). -/
def Dev.recvSend (d : Dev) (q : Nat) (pkt : Packet) : Dev :=
  if !(posBegins pkt.pos) then d.sendBody q pkt
  else if (d.ctx q).noSlot then d.rnr q 0 pkt.psn
  else
    match d.reserveSend q pkt.payload with
    | none => d.rnr q 0 pkt.psn
    | some (ps, d1) =>
      ((d1.updCtx q (fun c => { c with rqFree := c.rqFree - 1 })).updWork q (fun x => { x with rxPages := ps })).sendBody q pkt

/-- R157, R454: a packet of a put, `off` bytes into the message `msg` as far as it has arrived. Each page lies in the mirror area as its packet is
placed; a resync copy waits for its marker (R489). The last packet brings the put's end. -/
def Dev.placePut (d : Dev) (k : Word) (msg : List Byte) (off : Nat) (bs : List Byte) (fin : Option (Nat × Psn × List Byte)) : Dev :=
  let runs := if d.flag Reg.FOV_STS_RESYNC_TGT && isResync msg then [] else putRuns msg
  let part (r : Nat × Nat × Nat) : Option (Nat × List Byte) :=
    let lo := max r.1 off
    let hi := min (r.1 + r.2.2) (off + bs.length)
    if lo < hi then some (r.2.1 + (lo - r.1), (bs.drop (lo - off)).take (hi - lo)) else none
  let l := runs.filterMap part
  let put (at_ : Nat) (b : List Byte) (f : Option (Nat × Psn × List Byte)) : Placing :=
    { mr := rkeyIndex k, mirror := true, addr := at_, bytes := b, left := 1, put := f }
  let d1 := d.each l.dropLast (fun x d => d.place (put x.1 x.2 none))
  match l.getLast? with
  | some x => d1.place (put x.1 x.2 fin)
  | none => d1.place (put 0 [] fin)

/-- An RDMA WRITE packet with the expected PSN: the key check of R97, then placement. A put is acknowledged when its last packet is placed
(R454). -/
def Dev.recvWrite (d : Dev) (q : Nat) (pkt : Packet) : Dev :=
  let w := d.work q
  let c := d.ctx q
  let begins := pkt.reth.isSome
  match (if begins then pkt.reth else w.rxKey) with
  | none => d.refuse q 0 pkt.psn .invalidReq qpRemoteInvalid
  | some r =>
    let off := if begins then 0 else w.rxOff
    let put := decide (c.cls = 1) && (d.region (rkeyIndex r.rkey)).isWindow
    let ok := if put then d.windowCheck c.pd r.rkey else d.keyCheck c.pd r.rkey (r.va + off) pkt.payload.length
    if !ok then d.refuse q 0 pkt.psn .remoteAccess qpRemoteAccess
    else
      let ends := posEnds pkt.pos
      let msg := (if begins then [] else w.rx) ++ pkt.payload
      let d1 := d.updWork q (fun x => { x with
        rxKey := if ends then none else some r, rxOff := off + pkt.payload.length, rx := if put && !ends then msg else [], nakSent := false })
      if put then (d1.placePut r.rkey msg off pkt.payload (if ends then some (q, pkt.psn, msg) else none)).updCtx q
        (fun c => { c with rqEpsn := pkt.psn + 1 })
      else ((d1.placeAt r.rkey (r.va + off) pkt.payload).cond ends (fun d => d.noteImm q pkt.imm)).took q pkt.psn ends

/-- A packet beyond the expected PSN: one NAK until the expected one arrives (R79). -/
def Dev.beyond (d : Dev) (q : Nat) : Dev :=
  if (d.work q).nakSent then d
  else (d.updWork q (fun x => { x with nakSent := true })).transmit q 0 (.nak q 0 (d.ctx q).rqEpsn .seqErr)

/-- A put of context q is still being placed: its last packet is acknowledged when it is. -/
def Dev.putPlacing (d : Dev) (q : Nat) : Bool := d.xpt.placing.any (fun p => decide ((p.put.map (·.1)) = some q))

/-- A packet at its queue pair, single path: sequence first (R79), then the operation (R71, R72). A duplicate is acknowledged again and not executed
again, except an RDMA READ, which is not served. -/
def Dev.qpPacket (d : Dev) (q : Nat) (pkt : Packet) : Dev :=
  let c := d.ctx q
  if !c.receives then d
  else if pkt.op = .readResp then d.readResponse q pkt
  else if pkt.psn ≠ c.rqEpsn ∧ psnBefore c.rqEpsn pkt.psn then d.beyond q
  else if pkt.op = .readReq then d.refuse q 0 pkt.psn .invalidReq qpRemoteInvalid
  else if pkt.psn ≠ c.rqEpsn then d.cond (!d.putPlacing q) (fun d => d.sendAck q 0 pkt.psn)
  else
    match pkt.op with
    | .send => d.recvSend q pkt
    | .write => d.recvWrite q pkt
    | _ => d.refuse q 0 pkt.psn .invalidReq qpRemoteInvalid

/-! ### Multipath (R88 to R94) -/

/-- R91: a message number inside the window. -/
def QpCtx.inWindow (c : QpCtx) (window : Nat) (id : BitVec 16) : Bool :=
  decide ((id - c.msgRxBase).toNat < max 1 window)

/-- R92, R99: a new message in flight takes a bitmap, and a SEND its slot (R81). -/
def Dev.takeBitmap (d : Dev) (q : Nat) (m : Mpeth) (pkt : Packet) : Option (Nat × Dev) :=
  match d.freeBitmap with
  | none => none
  | some i =>
    some (i, (d.updBitmap i (fun _ => { valid := true, qp := q, msgId := m.msgId, pktLast := m.pktLast, op := pkt.op })).updCtx q
      (fun c => if pkt.op = .readResp then c else { c with
        msgRxInfl := c.msgRxInfl + 1, rqFree := if pkt.op = .send then c.rqFree - 1 else c.rqFree }))

/-- The packet's bit of a bitmap. -/
def Bitmap.has (b : Bitmap) (i : Nat) : Bool := decide (b.bits / 2 ^ i % 2 = 1)

/-- Every packet of the message has arrived (R94). -/
def Bitmap.full (b : Bitmap) : Bool := decide (b.bits = 2 ^ (b.pktLast + 1) - 1)

/-- R93: the packet's bit is set, and its payload placed at OFFSET, unless it was there already. -/
def Dev.mpPlace (d : Dev) (i : Nat) (m : Mpeth) (pkt : Packet) (pages : List Nat) : Dev :=
  if (d.bitmap i).has m.pktIdx then d
  else
    let d1 := d.updBitmap i (fun b => { b with
      bits := b.bits + 2 ^ m.pktIdx, imm := if pkt.imm.isSome then pkt.imm else b.imm, pages := b.pages ++ pages
      buf := if pkt.op = .write then b.buf else b.buf ++ [(m.offset, pkt.payload)] })
    match pkt.op, pkt.reth with
    | .write, some r => d1.placeAt r.rkey (r.va + m.offset) pkt.payload
    | _, _ => d1

/-- A message's bytes, put together by offset. -/
def joinBuf (buf : List (Nat × List Byte)) : List Byte :=
  (buf.foldl (fun acc p => tput [] acc p.1 p.2) []).flatMap (·.2)

/-- A bitmap returns to the pool. -/
def Dev.dropBitmap (d : Dev) (i : Nat) : Dev := { d with xpt := { d.xpt with bitmaps := tput {} d.xpt.bitmaps i {} } }

/-- R89: the outstanding RDMA READ that a response names. -/
def Dev.readOf (d : Dev) (q : Nat) (id : BitVec 16) : Option SentMsg :=
  (d.work q).sent.find? (fun m => decide (m.msgId = id) && workIsRead m.item.op)

/-- R89: an RDMA READ response that is whole ends its request. -/
def Dev.mpReadCheck (d : Dev) (q i : Nat) : Dev :=
  let b := d.bitmap i
  if b.op = .readResp ∧ b.full then
    let d1 := d.dropBitmap i
    match d.readOf q b.msgId with
    | none => d1
    | some m =>
      let d2 := ((d1.advance q m.path ((d1.work q).sent.filter (fun x => decide (x ≠ m)))).ccRise q).readDone q m.item (joinBuf b.buf)
      d2.pump q ((d2.work q).sendQ.length + 1)
  else d

/-- R94: release the oldest message in flight if its bitmap is full. -/
def Dev.releaseMessage (d : Dev) (q : Nat) : Dev :=
  match d.bitmapOf q (d.ctx q).msgRxBase false with
  | none => d
  | some i =>
    let b := d.bitmap i
    if !b.full then d
    else
      let d1 := (d.dropBitmap i).updCtx q (fun c => { c with
          msgRxBase := c.msgRxBase + 1, msgRxInfl := c.msgRxInfl - 1, msn := c.msn + 1 })
      if b.op = .send then d1.deliver q b.pages b.imm (joinBuf b.buf) else d1.noteImm q b.imm

/-- MESSAGE_COMPLETE, R94: complete messages are released in MSG_ID order. -/
def Dev.messageComplete (d : Dev) (q : Nat) : Dev := loop (fun _ d => d.releaseMessage q) 64 d

def execMessageComplete (q : Nat) (s : State) : Ans := lift (fun d => d.messageComplete q) s

/-- The path's expected PSN moves on, and the packet is acknowledged on its path (R90). -/
def Dev.mpAck (d : Dev) (q p : Nat) (psn : Psn) : Dev :=
  (d.updCtx q (fun c => c.setPath p { c.path p with rxEpsn := psn + 1, nakSent := false })).sendAck q p psn

/-- R93, R94: a packet of message bitmap i is placed, complete messages are released, and the packet is acknowledged. -/
def Dev.mpTake (d : Dev) (q i : Nat) (m : Mpeth) (pkt : Packet) (pages : List Nat) : Dev :=
  ((((d.mpPlace i m pkt pages).messageComplete q).mpAck q m.path pkt.psn)).mpReadCheck q i

/-- The packet's request is one that the FH6400 does not serve (R71, R91). -/
def Dev.mpInvalid (d : Dev) (q : Nat) (m : Mpeth) (pkt : Packet) : Bool :=
  decide (pkt.op = .readReq ∨ pkt.op = .atomic ∨ pkt.op = .sendInv ∨ 256 * mtuBytes (d.ctx q).pmtu < m.msgLen ∨ 255 < m.pktLast ∨
    m.pktLast < m.pktIdx)

/-- R97: an RDMA WRITE packet passes the key check of its own RETH; other packets have none. -/
def Dev.mpKeyOk (d : Dev) (q : Nat) (m : Mpeth) (pkt : Packet) : Bool :=
  pkt.op ≠ .write || (match pkt.reth with
    | some h => d.keyCheck (d.ctx q).pd h.rkey (h.va + m.offset) pkt.payload.length
    | none => false)

/-- MP_PACKET_RECEIVE, R79, R81, R82, R91 to R94, R97. -/
def Dev.mpReceive (d : Dev) (q : Nat) (pkt : Packet) : Dev :=
  let c := d.ctx q
  match pkt.mp with
  | none => d
  | some m =>
    let p := m.path
    let r := c.path p
    let resp := decide (pkt.op = .readResp)
    if !c.receives || !c.mp then d
    else if pkt.psn ≠ r.rxEpsn ∧ psnBefore r.rxEpsn pkt.psn then
      if r.nakSent then d
      else (d.updCtx q (fun c => c.setPath p { c.path p with nakSent := true })).transmit q p (.nak q p r.rxEpsn .seqErr)
    else if pkt.op = .readReq then d.refuse q p pkt.psn .invalidReq qpRemoteInvalid
    else if pkt.psn ≠ r.rxEpsn then d.sendAck q p pkt.psn
    else if resp ∧ (d.readOf q m.msgId).isNone then d.mpAck q p pkt.psn
    else if !resp && !c.inWindow (d.work q).msgWindow m.msgId then d
    else if d.mpInvalid q m pkt then d.refuse q p pkt.psn .invalidReq qpRemoteInvalid
    else if pkt.op = .send ∧ c.cls = 0 ∧ recvMax < m.msgLen then d.tooLong q
    else if !d.mpKeyOk q m pkt then d.refuse q p pkt.psn .remoteAccess qpRemoteAccess
    else
      let old := d.bitmapOf q m.msgId resp
      let seen := match old with
        | some i => (d.bitmap i).has m.pktIdx
        | none => false
      match (if pkt.op = .send ∧ m.pktIdx = 0 ∧ !seen then d.reserveSend q pkt.payload else some ([], d)) with
      | none => d.rnr q p pkt.psn
      | some (ps, d1) =>
        match old with
        | some i => d1.mpTake q i m pkt ps
        | none =>
          if pkt.op = .send && c.noSlot then d.rnr q p pkt.psn
          else
            match d1.takeBitmap q m pkt with
            | none => d.raiseOnce 133 133 q 0 0
            | some (i, d2) => d2.mpTake q i m pkt ps

/-! ### Host ports (R63, R64) -/

/-- R64: a packet's priority: its PCP if it is tagged, else DSCP[5:3]. -/
def pktPrio (pkt : Packet) : Nat := match pkt.tags with
  | t :: _ => t
  | [] => pkt.dscp / 8

/-- R63 to R65: a port takes a packet: its frame must fit, the buffer of its priority holds `fill` bytes, and its ICRC must be good. None where it is
dropped and counted. -/
def Dev.portTakes (d : Dev) (p : Nat) (pkt : Packet) (fill : Nat) : Bool × Dev :=
  if !d.frameFits p pkt.frameLen pkt.tags.length then (false, d.bumpSat (Reg.HPT_RX_DROP_COUNT p) 1)
  else
    let d1 := match d.prioOf p (pktPrio pkt) with
      | some pr => d.pfcFill p pr fill
      | none => d
    if pkt.icrcOk then (true, d1) else (false, d1.bumpSat (Reg.HPT_ICRC_DROP_COUNT p) 1)

/-- A packet reaches its queue pair; one marked by congestion is answered (R67). -/
def Dev.packetAt (d : Dev) (p : Nat) (pkt : Packet) : Dev :=
  d.arrive (some p) pkt.dqpn (fun q d =>
    let d1 := d.cond pkt.ecnCe (fun d => d.cnpSend q ((pkt.mp.map (·.path)).getD 0))
    if (d.ctx q).mp then d1.mpReceive q pkt else d1.qpPacket q pkt)

/-- ROCE_PACKET_RECEIVE, R63 to R67, R74: flow control, ICRC, queue-pair number, congestion, then the queue pair. -/
def Dev.rocePacket (d : Dev) (p : Nat) (pkt : Packet) (fill : Nat) : Dev :=
  if !d.isOn (.port p) then d
  else
    let (ok, d1) := d.portTakes p pkt fill
    if !ok then d1
    else if pkt.dqpn = 1 then { d1 with xpt := { d1.xpt with toSteward := d1.xpt.toSteward ++ [(p, pkt.payload)] } }
    else d1.packetAt p pkt

def execRocePacketReceive (p : Nat) (pkt : Packet) (fill : Nat) (s : State) : Ans :=
  lift (fun d => d.rocePacket p pkt fill) s

/-- MP_PACKET_RECEIVE, R74, R91 to R93: a multipath packet that its port has taken. -/
def execMpPacketReceive (p : Nat) (pkt : Packet) (s : State) : Ans :=
  lift (fun d => d.arrive (some p) pkt.dqpn (fun q d => d.mpReceive q pkt)) s

/-! ### Connections (R72, R75, R87, R103, R682, R683) -/

/-- R683: the largest path MTU code that a port's MAX_FRAME carries. PRESUMED: a RoCEv2 frame adds 102 bytes to its
payload: Ethernet with one tag and FCS 22, IPv6 40, UDP 8, BTH 12, RETH 16, ICRC 4. -/
def frameMtu (maxFrame : Nat) : Nat := if 4096 + 102 ≤ maxFrame then 5 else if 2048 + 102 ≤ maxFrame then 4 else 3

/-- R75: contexts of class 2. -/
def Dev.replicationQps (d : Dev) : Nat := (d.xpt.ctxs.filter (fun e => decide (e.2.cls = 2))).length

/-- R683: ACK_TO from the packet lifetime and the response time of the peer, each as n of 4.096 µs × 2^n: the least encoding that is at least two
lifetimes and the response. PRESUMED (log 169): that sum, from the InfiniBand transport. 14 where the exchange leaves it to this side. -/
def ackToOf (life : Option (Nat × Nat)) : Nat :=
  match life with
  | none => 14
  | some (l, r) => ((List.range 32).find? (fun n => decide (2 ^ (l % 32 + 1) + 2 ^ (r % 32) ≤ 2 ^ n))).getD 31

/-- R87: the extension block in a peer's private data: PATHS, MSG_WINDOW and PKT_MAX; none without the signature and a valid layout. -/
def mpOffer (priv : List Byte) : Option (Nat × Nat × Nat) :=
  let b := priv.drop 32
  let n := leField b 3 1
  let w := leField b 4 1
  if leField b 0 2 = 0x4D58 ∧ leField b 2 1 = 1 ∧ 1 ≤ n ∧ n ≤ 4 ∧ 1 ≤ w ∧ w ≤ 64 then some (n, w, leField b 5 1) else none

/-- R87: the block that this side sends. DESIGN CHOICE (log 170): its own values are the largest, so the smaller of the two sides' is the peer's. -/
def mpBlock (o : Nat × Nat × Nat) : List Byte :=
  List.replicate 32 0 ++ leBytes 2 0x4D58 ++ leBytes 1 1 ++ leBytes 1 (min 4 o.1) ++ leBytes 1 (min 64 o.2.1) ++ leBytes 1 (min 255 o.2.2) ++
    List.replicate 10 0

/-- R87: what the exchange agrees. The FH6400 accepts any valid offer; a connection that it asked for has the extension only if it offered it. -/
def Dev.mpAgreed (d : Dev) (a : ConnAttrs) : Option (Nat × Nat × Nat) :=
  if a.active ∧ d.flag Reg.XPT_CFG_MP_OFFER = false then none else mpOffer a.priv

/-- R683: the attributes of a context as the exchange agrees them. -/
def Dev.connCtx (d : Dev) (rep : Bool) (a : ConnAttrs) (c : QpCtx) : QpCtx :=
  let o := d.mpAgreed a
  let n := (o.map (·.1)).getD 1
  let path (i : Nat) (r : PathRec) : PathRec := { r with port := a.port, up := o.isSome && decide (i < n) }
  { c with
    cls := if rep then 2 else 0, port := a.port, mp := o.isSome, npath := n - 1
    attrValid := true, destQpn := a.destQpn, pmtu := max 3 (min (min a.pmtu (frameMtu (d.fld (Reg.HPT_MTU_MAX_FRAME a.port)))) 5)
    ackTo := ackToOf a.life, retryCnt := (a.retryCnt.getD 7) % 8, rnrRetry := (a.rnrRetry.getD 7) % 8, rnrTimer := (a.rnrTimer.getD 1) % 32
    rdMax := min 16 a.rdMax, pd := a.pd % 4096, rqSlots := min 1024 a.rqSlots
    path0 := path 0 c.path0, path1 := path 1 c.path1, path2 := path 2 c.path2, path3 := path 3 c.path3
    unit := { c.unit with en := true } }

/-- R73, R87: the steward answers a request with the queue-pair number of the context and its incarnation, and the extension block. -/
def Dev.connReply (d : Dev) (q : Nat) (a : ConnAttrs) : Dev :=
  if a.active then d
  else d.emit (.cmReply a.port (BitVec.ofNat 24 ((d.ctx q).incarn * 2 ^ 14 + q)) (((d.mpAgreed a).map mpBlock).getD []))

/-- R75, R424: NO_RESOURCE, with which a connection of class 2 is rejected. -/
def rejNoResource : Nat := 2

/-- R72, R75, R683: the steward programs the attributes of a new connection on an OFF context and enables it. A request for which no context is free,
or one more of class 2, is rejected: NO_RESOURCE for class 2, Controller Busy (R103) for class 0. -/
def Dev.cmConnect (d : Dev) (q : Nat) (rep : Bool) (a : ConnAttrs) : Dev :=
  if q < 64 ∨ Config.contexts ≤ q ∨ d.ustate (.qp q) ≠ .off ∨ (d.ctx q).attrValid then d.emit (.cmReject a.port (if rep then rejNoResource else statusCode stBusy))
  else if rep ∧ 256 ≤ d.replicationQps then (d.emit (.cmReject a.port rejNoResource)).raise 135 q 0 0
  else
    let o := d.mpAgreed a
    let d1 := (d.updCtx q (d.connCtx rep a)).updWork q (fun w => { w with
      startSqPsn := a.sqPsn, startRqPsn := a.rqPsn, msgWindow := (o.map (·.2.1)).getD 0, pktMax := (o.map (·.2.2)).getD 0 })
    (d1.updBind q (fun _ => {})).connReply q a

/-- R682: clear EN on a queue pair whose connection ends; ATTR_VALID goes when the context is OFF. -/
def Dev.closeQp (d : Dev) (q : Nat) : Dev :=
  if q < 64 then d
  else if d.ustate (.qp q) = .off then
    (d.updCtx q (fun c => { c with unit := { c.unit with en := false }, attrValid := false, cls := 0 })).updBind q (fun _ => {})
  else (d.updCtx q (fun c => { c with unit := { c.unit with en := false } })).updBind q (fun b => { b with closing := true })

/-- HOST_DISCONNECT, R682: the end of an admin queue's connection ends every queue pair of its controller. -/
def Dev.hostDisconnect (d : Dev) (q : Nat) : Dev :=
  let b := d.bind q
  if b.bound ∧ b.qid = 0 then
    let c := d.ctrl b.cntlid
    let d1 := d.each (c.ioQps ++ [q]) (fun q d => d.closeQp q)
    { d1 with nvt := { d1.nvt with ctrls := tput {} d1.nvt.ctrls b.cntlid {} } }
  else
    (d.closeQp q).cond b.bound (fun d => d.updCtrl b.cntlid (fun c => { c with ioQps := c.ioQps.filter (fun x => decide (x ≠ q)) }))

def execHostDisconnect (q : Nat) (s : State) : Ans := lift (fun d => d.hostDisconnect q) s

/-- CM_DATAGRAM, R72: the steward takes a connection request, or the end of one. -/
def Dev.cmDatagram (d : Dev) (p : Nat) (m : CmMsg) : Dev :=
  if !d.isOn (.port p) then d
  else
    match m with
    | .connect q rep a => d.cmConnect q rep { a with port := p }
    | .disconnect q => d.hostDisconnect q

def execCmDatagram (p : Nat) (m : CmMsg) (s : State) : Ans := lift (fun d => d.cmDatagram p m) s

/-- QP_CTL_WRITE, R99: the named context's EN, applied at the next edge. -/
def Dev.qpCtlWrite (d : Dev) (val : Nat) : Dev :=
  let q := val % 2 ^ 14
  ((d.setFld Reg.XPT_QP_CTL_INDEX q).setFld Reg.XPT_QP_CTL_EN (val / 2 ^ 16 % 2)).writeCtl (.qp q) (val / 2 ^ 16 % 2)

def execQpCtlWrite (val : Word) (s : State) : Ans := lift (fun d => d.qpCtlWrite val.toNat) s

/-! ### Work items (R76, R85, R86) -/

/-- WORK_ITEM_POST, R85, R76. -/
def execWorkItemPost (q : Nat) (w : WorkItem) (s : State) : Ans := lift (fun d => d.post q w) s

/-- R86, R172: the wait of a write's completion is broken: its groups that the peer has not acknowledged take the
vault path, and the completion is posted again after it, without a wait. -/
def Dev.completionBroken (d : Dev) (t : Nat) : Dev :=
  let d1 := d.updTag t (fun x => { x with state := .running, posted := false, mirror := none })
  (d1.each ((d1.cal.groups.filter (fun e => decide (e.2.tag = t) && e.2.placed && !e.2.vault)).map (·.1))
    (fun g d => d.toVault g)).cond (d1.editsLost t) (fun d => d.recsToVault t) |>.tryComplete t

/-- What an item returned FLUSHED means to its producer (R76, R120, R130, R153). -/
def Dev.itemFlushed (d : Dev) (w : WorkItem) : Dev :=
  match w.prod with
  | .completion t => d.updTag t (fun x => { x with leaveAt := true })
  | .hostData t => d.updTag t (fun x => { x with out := x.out - 1 })
  | .mirrorPut _ g => d.toVault g
  | .releasePut s i => d.updDir s i (fun e => { e with releasing := false })
  | .fwd t => if (d.tag t).fwdOut then d.forwardFail t
    else if w.bytes.head? = some 3#8 then d.updTag t (fun x => { x with leaveAt := true }) else d
  | _ => d

/-- WORK_ITEM_FLUSHED, R76: a queue pair that cannot send returns its items: those posted since it could not, and on
the error path every unsent or unacknowledged one. -/
def Dev.flushItems (d : Dev) (q : Nat) : Dev :=
  let w := d.work q
  let dead := decide ((d.ctx q).xstate = .error)
  let items := (if dead then w.sent.map (·.item) ++ w.sendQ else []) ++ w.flushed
  let d1 := d.updWork q (fun x => if dead then { x with sent := [], sendQ := [], flushed := [] } else { x with flushed := [] })
  let d2 := if dead then d1.each (List.range 4) (fun p d => d.disarm (tmAck q p)) else d1
  d2.each items (fun w d => d.itemFlushed w)

def execWorkItemFlushed (q : Nat) (s : State) : Ans := lift (fun d => d.flushItems q) s

/-- WAIT_CONDITION_MET, R85: the head item's condition holds at a beat edge, and the item goes. -/
def Dev.waitMet (d : Dev) (q : Nat) : Dev :=
  match (d.work q).sendQ with
  | [] => d
  | w :: rest =>
    match w.wait with
    | none => d.pump q (rest.length + 1)
    | some (m, n) =>
      if waitHolds (d.ctx m).cc n then
        (d.updWork q (fun x => { x with sendQ := { w with wait := none } :: rest })).pump q (rest.length + 1)
      else d

def execWaitConditionMet (q : Nat) (s : State) : Ans := lift (fun d => d.waitMet q) s

/-- WAIT_BROKEN, R86: WAIT_QP has left ON before the condition holds; the item returns to its producer. -/
def Dev.waitBroken (d : Dev) (q : Nat) : Dev :=
  match (d.work q).sendQ with
  | [] => d
  | w :: rest =>
    match w.wait with
    | none => d
    | some (m, n) =>
      if waitHolds (d.ctx m).cc n ∨ d.isOn (.qp m) then d
      else
        let d1 := d.updWork q (fun x => { x with sendQ := rest })
        (match w.prod with
         | .completion t => d1.completionBroken t
         | .fwd t => d1.completionBroken t
         | _ => d1).pump q (rest.length + 1)

def execWaitBroken (q : Nat) (s : State) : Ans := lift (fun d => d.waitBroken q) s

/-! ### Acknowledgements (R80, R83, R84, R90) -/

/-- SENDs sent and not yet acknowledged; on multipath those beyond MSG_ACK (R90). -/
def Dev.sendsOut (d : Dev) (q : Nat) : Nat :=
  if (d.ctx q).mp then ((d.work q).mpIds.filter (fun e => decide (e.2 = 1))).length
  else ((d.work q).sent.filter (fun m => workIsSend m.item.op)).length

/-- R83: take an advertised credit, less the SENDs still out; 0xFFFF is unlimited. -/
def Dev.takeCredit (d : Dev) (q credit : Nat) : Dev :=
  d.updCtx q (fun c => { c with
    creditTx := if credit = creditUnlimited then creditUnlimited else credit - d.sendsOut q })

/-- R90: `b` is ahead of `a` by serial comparison over 2^16. -/
def msgAhead (a b : BitVec 16) : Bool := decide (a ≠ b) && decide ((b - a).toNat < 2 ^ 15)

/-- R84, R90: MSG_ACK states that every earlier message is complete. CC rises for each; an RDMA READ counts with its response. -/
def Dev.msgAcked (d : Dev) (q : Nat) (ack : BitVec 16) : Dev :=
  let gone := (d.work q).mpIds.filter (fun e => msgAhead e.1 ack)
  let d1 := (d.updWork q (fun w => { w with mpIds := w.mpIds.filter (fun e => !msgAhead e.1 ack) })).updCtx q (fun c => { c with msgTxAck := ack })
  d1.each (gone.filter (fun e => decide (e.2 ≠ 2))) (fun _ d => d.ccRise q)

/-- ACK_RECEIVE, R80, R84, R90: what the PSN covers is acknowledged, credits are updated, and the send queue is served. On multipath messages are
complete by MSG_ACK, and the credit is that of the acknowledgement which carried the highest one. -/
def Dev.ackReceive (d : Dev) (q path : Nat) (psn : Psn) (credit : Nat) (msgAck : BitVec 16) : Dev :=
  let c := d.ctx q
  let d1 := d.ackUpTo q path psn
  let d2 :=
    if !c.mp then d1.takeCredit q credit
    else if msgAhead msgAck c.msgTxAck then d1
    else (d1.msgAcked q msgAck).takeCredit q credit
  d2.pump q ((d2.work q).sendQ.length + 1)

def execAckReceive (dest : QpAddr) (path : Nat) (psn : Psn) (credit : Nat) (msgAck : BitVec 16) (s : State) : Ans :=
  lift (fun d => d.arrive dest.via dest.dqpn (fun q d => d.ackReceive q path psn credit msgAck)) s

/-- R95: a message moves to path n, behind what is sent there, with new path PSNs for its unacknowledged packets; its MPETH does not change. -/
def Dev.movePath (d : Dev) (q n : Nat) (m : SentMsg) : Dev :=
  let first := (d.ctx q).txNext n
  let last : Psn := first + (m.last - m.first)
  let moved := { m with path := n, first := first, last := last }
  ((d.updCtx q (fun c => c.setTxNext n (last + 1))).updWork q (fun x => { x with
    sent := x.sent.filter (fun y => decide (y ≠ m)) ++ [moved] })).emitReq q moved

/-- R95: a path is DOWN: its unacknowledged packets are sent again on the lowest path still up with new path PSNs;
with no path left the queue pair is stopped. -/
def Dev.pathDown (d : Dev) (q p : Nat) : Dev :=
  let d1 := ((d.updCtx q (fun c => c.setPath p { c.path p with up := false })).disarm (tmAck q p)).raise 132 q p 0
  match (d1.ctx q).upPaths with
  | [] => d1.stopUnit (.qp q) qpRetryExhausted
  | n :: _ => (d1.each (d1.unacked q p) (fun m d => d.movePath q n m)).arm (tmAck q n)

/-- R80, R95: a timeout or a NAK sequence error: resend against RETRY_LEFT, or exhaust it. -/
def Dev.retryPath (d : Dev) (q p : Nat) : Dev :=
  let c := d.ctx q
  if c.retry p = 0 then
    if c.mp then d.pathDown q p else d.stopUnit (.qp q) qpRetryExhausted
  else ((d.updCtx q (fun c => c.setRetry p (c.retry p - 1))).resend q p).arm (tmAck q p)

/-- ACK_TIMEOUT, R80, R83: the timer of a path has run out. With nothing outstanding and no credit one SEND goes as a
probe. -/
def Dev.ackTimeout (d : Dev) (q p : Nat) : Dev :=
  let c := d.ctx q
  if c.ackTo = 0 ∨ d.expired (tmAck q p) (ackTimeoutBeats c.ackTo) = false then d
  else if !(d.unacked q p).isEmpty then d.retryPath q p
  else
    match (d.work q).sendQ with
    | w :: rest =>
      if d.canSend q ∧ w.wait = none ∧ workIsSend w.op ∧ c.creditTx = 0 then
        ((d.updWork q (fun x => { x with sendQ := rest })).sendItem q w).arm (tmAck q p)
      else d.disarm (tmAck q p)
    | [] => d.disarm (tmAck q p)

def execAckTimeout (q path : Nat) (s : State) : Ans := lift (fun d => d.ackTimeout q path) s

/-- R140: an RDMA READ or WRITE to the host fails while its queue pair is still in RTS: the command ends with Data Transfer Error. -/
def Dev.transferFailed (d : Dev) (q p : Nat) : Dev :=
  match (d.unacked q p).head? with
  | none => d
  | some m =>
    match m.item.prod with
    | .hostData t => d.cond (decide ((d.tag t).state = .running)) (fun d => d.complete t stTransfer none)
    | .hostFetch t => d.cond (decide ((d.tag t).state = .running)) (fun d => (d.dropUnplaced t).complete t stTransfer none)
    | _ => d

/-- NAK_RECEIVE, R78, R80: the PSNs before the one it names are acknowledged. -/
def Dev.nakReceive (d : Dev) (q p : Nat) (psn : Psn) (k : NakKind) : Dev :=
  let d1 := d.ackUpTo q p (psn - 1)
  match k with
  | .seqErr => d1.cond (!(d1.unacked q p).isEmpty) (fun d => d.retryPath q p)
  | .invalidReq => d1.stopUnit (.qp q) qpRemoteInvalid
  | .remoteAccess => (d1.transferFailed q p).stopUnit (.qp q) qpRemoteAccess
  | .remoteOp => (d1.transferFailed q p).stopUnit (.qp q) qpRemoteOp

def execNakReceive (dest : QpAddr) (path : Nat) (psn : Psn) (k : NakKind) (s : State) : Ans :=
  lift (fun d => d.arrive dest.via dest.dqpn (fun q d => d.nakReceive q path psn k)) s

/-- RNR_NAK_RECEIVE, R80: the PSNs before the one it names are acknowledged; the RNR timer that it carries is armed, against RNR_LEFT; a count of 7
is unlimited. -/
def Dev.rnrNak (d0 : Dev) (q p : Nat) (psn : Psn) (timer : Nat) : Dev :=
  let d := d0.ackUpTo q p (psn - 1)
  let c := d.ctx q
  if (d.unacked q p).isEmpty then d
  else if c.rnrRetry ≠ 7 ∧ c.rnrLeft = 0 then d.stopUnit (.qp q) qpRnrExhausted
  else
    (((d.updCtx q (fun c => { c with rnrLeft := if c.rnrRetry = 7 then c.rnrLeft else c.rnrLeft - 1 })).updWork q
      (fun w => { w with rnrWait := tput 0 w.rnrWait p (rnrBeats timer) })).disarm (tmAck q p)).arm (tmRnr q p)

def execRnrNakReceive (dest : QpAddr) (path : Nat) (nak : RnrNak) (s : State) : Ans :=
  lift (fun d => d.arrive dest.via dest.dqpn (fun q d => d.rnrNak q path nak.psn nak.timer)) s

/-- RNR_TIMER_EXPIRE, R80: what was refused is tried again. -/
def Dev.rnrExpire (d : Dev) (q p : Nat) : Dev :=
  if d.expired (tmRnr q p) (tget 0 (d.work q).rnrWait p) then
    let d1 := (((d.updWork q (fun w => { w with rnrWait := tput 0 w.rnrWait p 0 })).disarm (tmRnr q p)).resend q p).arm (tmAck q p)
    d1.pump q ((d1.work q).sendQ.length + 1)
  else d

def execRnrTimerExpire (qp : QpPath) (s : State) : Ans := lift (fun d => d.rnrExpire qp.q qp.path) s

/-! ### Registered regions (R96, R98) -/

/-- MR_REGISTER, R96: the steward registers a region with a new TAG. -/
def Dev.mrRegister (d : Dev) (r base len pd : Nat) (write : Bool) : Dev :=
  if (d.region r).state = .free then
    d.updRegion r (fun x => { x with
      state := .valid, write := write, tag := (x.tag + 1) % 256, pd := pd % 4096, base := base, len := len })
  else d

def execMrRegister (r base len pd : Nat) (write : Bool) (s : State) : Ans :=
  lift (fun d => d.mrRegister r base len pd write) s

/-- MR_REVOKE, R98: the region is REVOKING from the next edge. -/
def Dev.mrRevoke (d : Dev) (r : Nat) : Dev :=
  if (d.region r).state = .valid then { d with edge := d.edge ++ [.revoke r] } else d

def execMrRevoke (r : Nat) (s : State) : Ans := lift (fun d => d.mrRevoke r) s

/-- REVOCATION_DONE, R98: no checked packet is still being placed; the region is FREE. -/
def Dev.revocationDone (d : Dev) (r : Nat) : Dev :=
  if (d.region r).state = .revoking ∧ (d.region r).inflight = 0 then
    (d.updRegion r (fun x => { tag := x.tag })).raise 134 r 0 0
  else d

def execRevocationDone (r : Nat) (s : State) : Ans := lift (fun d => d.revocationDone r) s

end Sys2Proof.Machine
end

