-- ==== Sys2Proof/Machine/Nvme.lean ====
section
/-! DEFINITION. The NVMe over Fabrics target: admission and the checks of a command, forwarding, asymmetric access,
reservations, and the commands that the steward firmware serves (R35 to R38, R102 to R142). -/
namespace Sys2Proof.Machine

/-! ### Admission (R35 to R38, R118) -/

/-- R36: a signed budget, as its register holds it. -/
def Dev.budget (d : Dev) (f : Fld) : Int := intOf 4 (d.fld f)
def Dev.setBudget (d : Dev) (f : Fld) (v : Int) : Dev := d.setFld f (v % 2 ^ 32).toNat

/-- R36, R676: what a slice adds to its budgets at an edge: half while the throttle holds. -/
def Dev.admRate (d : Dev) (s : Nat) : Nat :=
  if d.hot then d.fld (Reg.SLI_ADM_RATE_RATE s) / 2 else d.fld (Reg.SLI_ADM_RATE_RATE s)

/-- R36, R57: the budgets rise by the rate, up to the ceiling. -/
def Dev.refill (d : Dev) (s : Nat) : Dev :=
  let cap : Int := d.fld (Reg.SLI_ADM_CAP_CAP s)
  let add (f : Fld) (d : Dev) : Dev := d.setBudget f (min (d.budget f + d.admRate s) cap)
  add (Reg.SLI_ADM_OUT_OUT s) (add (Reg.SLI_ADM_IN_IN s) d)

/-- R38: own-dirty is above the high-water mark. -/
def Dev.aboveHwm (d : Dev) : Bool := decide (d.fld Reg.GLB_CAL_HWM_PAGES < d.ownDirty)

/-- R170, R174, R331, R472, R523: write-class commands are not admitted for a reason other than the mark. -/
def Dev.writeHeld (d : Dev) : Bool :=
  d.flag Reg.GLB_CAL_STS_COMMIT_HELD || d.cal.pwrfail || d.flag Reg.MDE_STS_CP_HELD || d.flag Reg.FOV_STS_WRITE_HOLD ||
    d.mem.image

/-- R492, step 1: write-class commands of moving groups are withheld while own-dirty exceeds HANDOVER_MARK. -/
def Dev.handHeld (d : Dev) (c : HostCmd) : Bool :=
  decide (d.fov.handRole = 1 ∧ d.fov.handStep = 1) && decide (256 * d.fld Reg.FOV_CFG2_HANDOVER_MARK < d.ownDirty) &&
    (match d.cmdVolume c with
     | some v => decide ((d.vol v).anaGrp ≠ 0 ∧ d.fov.handMask / 2 ^ ((d.vol v).anaGrp - 1) % 2 = 1)
     | none => false)

/-- R480, R518: a FENCED head, or one whose Geyser flush has ended, admits no command. -/
def Dev.noAdmission (d : Dev) : Bool := decide (d.fld Reg.FOV_STS_STATE = 7) || d.geyOver

/-- R118: the lowest free tag of a slice. -/
def Dev.freeTag (d : Dev) (s : Nat) : Option Nat :=
  let base := s * Config.tagsPerSlice
  let used := (d.nvt.tags.filter (fun e => decide (e.1 / Config.tagsPerSlice = s))).length
  ((List.range (min (used + 1) Config.tagsPerSlice)).map (fun i => base + i)).find?
    (fun t => decide ((d.tag t).state = .free))

/-- R37: a budget lets a command through. -/
def Dev.affords (d : Dev) (s : Nat) (out : Bool) (charge : Nat) : Bool :=
  let b := d.budget (if out then Reg.SLI_ADM_OUT_OUT s else Reg.SLI_ADM_IN_IN s)
  let cap := d.fld (Reg.SLI_ADM_CAP_CAP s)
  decide ((charge : Int) ≤ b) || (decide (cap < charge) && decide (b = (cap : Int)))

/-! ### The checks at admission (R119) -/

/-- What the checks of R119 decide. -/
inductive Verdict where
  | run (v : Nat)
  | forward (v : Nat)
  | fail (st : Status) (v : Nat)
deriving DecidableEq, Repr

/-- R114: in-capsule data is 1 to 16,384 bytes. A descriptor outside that ends with Data SGL Length Invalid: DESIGN CHOICE, the spec names no status
for it. -/
def inCapsuleOver : Sgl → Bool
  | .inCapsule k => decide (k = 0 ∨ 16384 < k)
  | _ => false

/-- R114: the SGL check: type, then the sum of lengths, then MDTS. A data length that cannot be known, R36, is not
compared. -/
def sglCheck (c : HostCmd) (len : Option Nat) : Option Status :=
  match c.sgl with
  | .other _ => some stSglType
  | s =>
    match len with
    | none => none
    | some n =>
      if sglLen s ≠ n ∨ inCapsuleOver s then some stSglLength
      else if 2 ^ 20 < n then some stField
      else none

/-- Commands that transfer data, to which R114 applies. -/
def transfers (op : Nat) : Bool := decide (op ∉ [opFlush, opZeroes, opVerify])

def regsHas (r : Resv) (h : Nat) : Bool := r.regs.any (fun x => decide (x.host = h))

/-- The reservation types whose registrants are all holders. -/
def allRegs (t : Nat) : Bool := decide (t = 5 ∨ t = 6)

/-- R134: a host may run a command under a reservation. The types are those of NVMe (R132): 1 write exclusive,
2 exclusive access, 3 and 4 the same for registrants only, 5 and 6 for all registrants. -/
def resvAllows (r : Resv) (h op : Nat) : Bool :=
  let holder := if allRegs r.rtype then regsHas r h else decide (r.holder = h)
  let reading := decide (op ∈ [opRead, opCompare, opVerify])
  if op ∈ [opResvRegister, opResvReport, opResvAcquire, opResvRelease] then true
  else
    match r.rtype with
    | 0 => true
    | 1 => reading || holder
    | 2 => holder
    | 3 | 5 => reading || regsHas r h
    | _ => regsHas r h

/-- R140: a command's blocks lie in the volume. -/
def inVolume (c : HostCmd) (v : Namespace) : Bool :=
  let top := v.size * 32768
  let ok (slba n : Nat) : Bool := decide ((slba + n) * v.blk ≤ top)
  if c.opcode ∈ [opWrite, opRead, opCompare, opZeroes, opVerify] then ok c.slba c.nlb
  else if c.opcode = opDsm then c.ranges.all (fun r => ok r.slba r.nlb)
  else if c.opcode = opCopy then
    c.ranges.all (fun r => ok r.slba r.nlb) && ok c.slba (c.ranges.foldl (fun n r => n + r.nlb) 0)
  else true

/-- R119, steps 5 to 7, made on the owner. -/
def Dev.ownerChecks (d : Dev) (c : HostCmd) (v : Nat) : Option Status :=
  let x := d.vol v
  if !inVolume c x then some stRange
  else if writeClass c.opcode ∧ x.roVol then some stProtected
  else if !resvAllows x.resv c.hostIdx c.opcode then some stConflict
  else none

/-- R123: the ANA state of a volume's group here. -/
def Dev.anaOf (d : Dev) (v : Nat) : Nat := d.fld (Reg.NVT_ANA (d.vol v).anaGrp)

/-- R119: the checks in their order; the first that fails decides. -/
def Dev.verdict (d : Dev) (c : HostCmd) : Verdict :=
  let vol := d.cmdVolume c
  -- R429: a replicated grain is a write that this head makes itself
  if c.rep.isSome then .run (vol.getD 0)
  else if c.opcode ∉ ioOpcodes then .fail stOpcode (vol.getD 0)
  else
    let sg := if c.fwdIn ∨ transfers c.opcode = false then none
      else sglCheck c (vol.map (fun _ => d.dataLen c))
    match sg with
    | some st => .fail st (vol.getD 0)
    | none =>
      match vol with
      | none => if c.opcode = opFlush ∧ c.nsid = 0xFFFFFFFF then .run 0 else .fail stNamespace 0
      | some v =>
        let run := match d.ownerChecks c v with
          | some st => Verdict.fail st v
          | none => .run v
        if (d.vol v).deleting then .fail stNamespace v
        else if c.fwdIn then (if d.anaOf v = 1 then run else .fail stAnaTransition v)
        else
          match d.anaOf v with
          | 1 => run
          | 2 => if d.flag Reg.NVT_CFG_FWD_EN then .forward v else .fail stAnaInaccessible v
          | 3 => .fail stAnaInaccessible v
          | 4 => .fail stAnaLoss v
          | _ => .fail stAnaTransition v

/-- R114, R142: a refusal by R114 raises event 323, at most once per epoch. -/
def Dev.sglEvent (d : Dev) (c : HostCmd) (st : Status) : Dev :=
  if transfers c.opcode ∧ c.fwdIn = false ∧ c.opcode ∈ ioOpcodes ∧ (st = stSglType ∨ st = stSglLength ∨ st = stField) then
    d.raiseOnce 323 323 c.qp (sglType c.sgl) 0
  else d

/-- R118, R119: a command is admitted: it takes a tag, its charge and its slot, and is parsed and checked. -/
def Dev.admitOne (d : Dev) (s t : Nat) (c : HostCmd) (pages : List Nat) : Dev :=
  let (out, charge) := d.charge s c
  let f := if out then Reg.SLI_ADM_OUT_OUT s else Reg.SLI_ADM_IN_IN s
  let d2 := (d.setBudget f (d.budget f - charge)).cond c.rep.isNone (fun d => d.entryFreed c.qp)
  let host := if c.fwdIn then c.hostIdx else (d.ctrl (d.bind c.qp).cntlid).host
  let c := { c with hostIdx := host }
  let order := d.cal.order
  let verdict := d2.verdict c
  let v := match verdict with
    | .run v => v
    | .forward v => v
    | .fail _ v => v
  let d3 := ({ d2 with cal := { d2.cal with order := order + 1 } }.reuse pages (.command t)).updTag t (fun _ =>
    { state := .running, fwdIn := c.fwdIn, cmd := some c, vol := v, beat := d.beat, order := order, pages := pages })
  let d3 := ({ d3 with pmc := { d3.pmc with lastTag := t, lastQp := c.qp } }.count 0 0x001 1).count (1 + s) 0x001 1
  let d4 := (d3.updSlice s (fun x => { x with lastTag := t, lastTagQp := c.qp })).cond c.rep.isSome (fun d =>
    d.storeOwn ((cmdGrains c (d.vol v)).zip pages) (cmdRange c (d.vol v)).1 c.data)
  match verdict with
  | .run _ => d4.cond c.fwdIn (fun d => d.bumpSat Reg.NVT_FWD_RECV_COUNT 1)
  | .forward _ =>
    let d5 := d4.forward t
    d5.cond (bringsData c.opcode && !(sglBlocks c.sgl).isEmpty) (fun d => d.startFetch t c)
  | .fail st _ => (d4.sglEvent c st).complete t st none

/-- R37, R38, R118, R150: why the next command may not be admitted at this edge, or the pages it brings. -/
def Dev.admitNext (d : Dev) (s : Nat) (c : HostCmd) : Option (Nat × List Nat × Dev) :=
  let (out, charge) := d.charge s c
  let held := (writeClass c.opcode && (d.aboveHwm || d.writeHeld || d.handHeld c)) || d.noAdmission
  if held then none
  else if !d.affords s out charge then none
  else
    match d.freeTag s with
    | none => none
    | some t =>
      match c.pages, c.sgl, d.cmdVolume c with
      | [], .none, some v =>
        if c.rep.isSome then (d.allocGrains (.command t) (cmdGrains c (d.vol v))).map (fun r => (t, r.1, r.2))
        else some (t, [], d)
      | [], .none, none => some (t, [], d)
      | [], .inCapsule _, _ => some (t, [], d)
      | [], _, some v =>
        if c.opcode = opWrite then
          (d.allocGrains (.command t) (cmdGrains c (d.vol v))).map (fun r => (t, r.1, r.2))
        else some (t, [], d)
      | [], _, none => some (t, [], d)
      | ps, _, _ => some (t, ps, d)

/-- R37: admit waiting commands in order; the first that is not admitted stops admission at this edge. -/
def Dev.admitLoop (d : Dev) (s : Nat) : List HostCmd → Dev × List HostCmd
  | [] => (d, [])
  | c :: rest =>
    match d.admitNext s c with
    | none => (d, c :: rest)
    | some (t, pages, d1) => (d1.admitOne s t c pages).admitLoop s rest

/-- ADMIT_COMMAND, R35 to R38: one beat edge of a slice's admission. -/
def Dev.admitWaiting (d : Dev) (s : Nat) : Dev :=
  let w := (d.slice s).waiting
  if d.isOn (.slice s) then
    let (d1, rest) := (d.refill s).admitLoop s w
    let d2 := d1.updSlice s (fun x => { x with waiting := rest })
    let d3 := ((d2.setFlag (Reg.SLI_ADM_STS_HELD s) (!rest.isEmpty)).setFld (Reg.SLI_ADM_STS_WAITING s)
      (min rest.length 65535)).setFlag (Reg.SLI_ADM_STS_DIRTY_HELD s)
      (match rest with
       | c :: _ => writeClass c.opcode && d2.aboveHwm
       | [] => false)
    let d4 := d3.cond (d3.flag (Reg.SLI_ADM_STS_DIRTY_HELD s)) (fun d => d.raiseOnce 5 5 d.ownDirty 0 0)
    match rest with
    | c :: _ =>
      let (out, charge) := d4.charge s c
      d4.cond (!(writeClass c.opcode && (d4.aboveHwm || d4.writeHeld || d4.handHeld c)) && d4.affords s out charge &&
        (d4.freeTag s).isNone) (fun d => d.raiseOnce (5000 + s) 320 s 0 0)
    | [] => d4
  else (((d.refill s).setFlag (Reg.SLI_ADM_STS_HELD s) (!w.isEmpty)).setFld (Reg.SLI_ADM_STS_WAITING s) (min w.length 65535)).setFld
    (Reg.SLI_ADM_STS_DIRTY_HELD s) 0

def execAdmitCommand (sl : Nat) (s : State) : Ans := lift (fun d => d.admitWaiting sl) s

/-- TAG_FREE, R120: at the edge after its completion capsule has left, or came back FLUSHED. -/
def Dev.tagFree (d : Dev) (t : Nat) : Dev :=
  if (d.tag t).leaveAt then { d with nvt := { d.nvt with tags := tput {} d.nvt.tags t {} } } else d

def execTagFree (t : Nat) (s : State) : Ans := lift (fun d => d.tagFree t) s

/-- A command of this opcode that is admitted, runs here and whose path has not begun. -/
def Dev.runs (d : Dev) (t op : Nat) : Option HostCmd :=
  let x := d.tag t
  match x.cmd with
  | some c => if x.state = .running ∧ x.fwdOut = false ∧ x.begun = false ∧ c.opcode = op then some c else none
  | none => none

/-- FLUSH, R168: every write that completed before is committed already. -/
def Dev.flush (d : Dev) (t : Nat) : Dev := if (d.runs t opFlush).isSome then d.complete t stSuccess none else d

def execFlush (t : Nat) (s : State) : Ans := lift (fun d => d.flush t) s

/-! ### Events to hosts -/

/-- R142: post an asynchronous event to a controller: to a held request, or kept until one comes. -/
def Dev.asyncEvent (d : Dev) (c : Nat) (info : Word) : Dev :=
  match (d.ctrl c).aers with
  | cid :: rest =>
    (d.updCtrl c (fun x => { x with aers := rest })).post (d.ctrl c).adminQp
      ⟨.send, cqeBytes info.toNat (d.sqhd (d.ctrl c).adminQp) cid stSuccess, .steward, none⟩
  | [] => d.updCtrl c (fun x => { x with events := x.events ++ [info] })

def Dev.liveCtrls (d : Dev) : List Nat := (d.nvt.ctrls.filter (fun e => e.2.valid)).map (·.1)

/-- R126: the ANA change notice, to every controller that enabled it. -/
def anaNotice : Word := 0x000C0302#32

/-- R124, R125: the ANA state of a group (ID − 1) changes at an edge. -/
def Dev.setAna (d : Dev) (g st : Nat) : Dev :=
  let old := d.fld (Reg.NVT_ANA g)
  if old = st then d
  else
    let d1 := (d.setFld (Reg.NVT_ANA g) st).raise 321 (g + 1) old st
    d1.each (d1.liveCtrls.filter (fun c => decide ((d1.ctrl c).asyncConfig.toNat / 2 ^ 11 % 2 = 1)))
      (fun c d => d.asyncEvent c anaNotice)

/-- R123: the ANA states. -/
def anaOptimized : Nat := 1
def anaNonOptimized : Nat := 2
def anaInaccessible : Nat := 3
def anaLoss : Nat := 4
def anaChange : Nat := 15

/-- R125: the changes that the table gives. -/
def anaAllowed (old st : Nat) : Bool :=
  decide ((old, st) ∈ [(1, 15), (15, 2), (2, 15), (15, 1), (2, 3), (3, 15), (3, 2), (4, 2)]) || decide (st = 4)

/-- ANA_CHANGE, R125: the failover block changes a group's state at the next edge. `grp` is the ANA group ID. -/
def Dev.anaCommand (d : Dev) (grp st : Nat) : Dev :=
  if 1 ≤ grp ∧ grp ≤ 64 ∧ anaAllowed (d.fld (Reg.NVT_ANA (grp - 1))) st then
    { d with edge := d.edge ++ [.ana (grp - 1) st] }
  else d

def execAnaChange (grp st : Nat) (s : State) : Ans := lift (fun d => d.anaCommand grp st) s

/-- Commands of a group's volumes still running here. -/
def Dev.grpRunning (d : Dev) (g : Nat) : Bool :=
  d.nvt.tags.any (fun e => decide (e.2.state = .running) && !e.2.fwdOut && decide ((d.vol e.2.vol).anaGrp = g))

/-- ANA_CHANGE_DRAINED, R125: the leaving owner's commands have ended and the peer holds the group. -/
def Dev.anaDrained (d : Dev) (grp : Nat) : Dev :=
  let g := grp - 1
  if 1 ≤ grp ∧ grp ≤ 64 ∧ d.fld (Reg.NVT_ANA g) = anaChange ∧ d.fld (Reg.NVT_ANA_OWN g) = 0 ∧ d.fov.handRole ≠ 2 ∧ d.grpRunning g = false then
    { d with edge := d.edge ++ [.ana g anaNonOptimized] }
  else d

def execAnaChangeDrained (grp : Nat) (s : State) : Ans := lift (fun d => d.anaDrained grp) s

/-! ### Forwarding (R127 to R130) -/

/-- The pages that wait under an RTAG, in the order in which they were taken. -/
def Dev.forwardedPages (d : Dev) (m rtag : Nat) : List Nat :=
  (d.cal.runs.filter (fun r => decide (r.use = .forwarded m rtag))).map (·.first)

/-- FWD_CMD, R127, R150: the owner receives a forwarded command on mirror context m. `nsid` of the operand is the
VOLUME of the header. A Write's data goes into the pages taken when its message began to arrive, or into pages taken now; without room it is
answered with an RNR NAK. -/
def Dev.fwdCmd (d : Dev) (m rtag slice : Nat) (c0 : HostCmd) : Dev :=
  let c := { c0 with qp := m, fwdIn := true, fwdTag := rtag, pages := [], dlen := if c0.opcode = opWrite then 0 else c0.dlen }
  if c.opcode = opWrite ∧ (d.vol c.nsid).valid then
    let gs := cmdGrains c (d.vol c.nsid)
    let got := d.forwardedPages m rtag
    match (if got = [] then d.allocGrains (.received m) gs else some (got, d.reuse got (.received m))) with
    | none => d.rnr m 0 (d.ctx m).rqEpsn
    | some (ps, d1) =>
      (d1.storeOwn (gs.zip ps) (cmdRange c (d.vol c.nsid)).1 c.data).enqueueCmd slice { c with pages := ps }
  else d.enqueueCmd slice c

def execFwdCmd (m rtag slice : Nat) (c : HostCmd) (s : State) : Ans := lift (fun d => d.fwdCmd m rtag slice c) s

/-- R114, R368: the host address and key for an offset within a command's data. -/
def blockAt : List KeyedSgl → Nat → Option (Nat × Word)
  | [], _ => none
  | b :: t, off => if off < b.len then some (b.addr + off, b.key) else blockAt t (off - b.len)

/-- Read data to the host: one RDMA WRITE message (R127, R368). -/
def Dev.toHost (d : Dev) (t off : Nat) (bs : List Byte) : Dev :=
  match (d.tag t).cmd with
  | none => d
  | some c =>
    match blockAt (sglBlocks c.sgl) off with
    | none => d
    | some (va, key) =>
      let items := d.splitItem c.qp ⟨.write va key, bs, .hostData t, none⟩
      (d.updTag t (fun x => { x with out := x.out + items.length })).each items (fun w d => d.post c.qp w)

/-- FWD_DATA, R127: at the receiving head read data goes on to the host; at the owner a forwarded write's data goes into
its pages, or joins the data of another command. `t` is the RTAG of the header. -/
def Dev.fwdData (d : Dev) (t off : Nat) (bs : List Byte) : Dev :=
  let takes : Bool := match (d.tag t).cmd with
    | some c => decide (c.opcode = opRead ∨ c.opcode = opResvReport)
    | none => false
  if (d.tag t).state = .running ∧ (d.tag t).fwdOut ∧ takes then d.toHost t off bs
  else
    match d.nvt.tags.find? (fun e => decide (e.2.state = .running) && e.2.fwdIn &&
      (match e.2.cmd with
       | some c => decide (c.fwdTag = t)
       | none => false)) with
    | some (own, _) => d.fetchArrived own bs
    | none =>
      let mine (c : HostCmd) : Bool := c.fwdIn && decide (c.fwdTag = t)
      d.each (List.range 8) (fun s d =>
        match (d.slice s).waiting.find? mine with
        | none => d
        | some c =>
          let v := d.vol c.nsid
          let d1 := d.cond (decide (c.opcode = opWrite)) (fun d =>
            d.storeOwn ((cmdGrains c v).zip c.pages) ((cmdRange c v).1 + off) bs)
          d1.updSlice s (fun x => { x with
            waiting := x.waiting.map (fun y =>
            if mine y then
              (if y.opcode = opWrite then { y with dlen := y.dlen + bs.length } else { y with data := y.data ++ bs })
            else y) }))

def execFwdData (t off : Nat) (bs : List Byte) (s : State) : Ans := lift (fun d => d.fwdData t off bs) s

/-- FWD_CPL, R127, R129: the owner's status is passed to the host behind the data already posted. -/
def Dev.fwdCpl (d : Dev) (t sct sc : Nat) : Dev :=
  let x := d.tag t
  if x.state = .running ∧ x.fwdOut then
    let st : Status := ⟨sct, sc⟩
    (d.complete t st none).cond (decide (st = stAnaTransition)) (fun d =>
      (d.bumpSat Reg.NVT_FWD_FAIL_COUNT 1).raise 322 t x.vol (statusCode st))
  else d

def execFwdCpl (t sct sc : Nat) (s : State) : Ans := lift (fun d => d.fwdCpl t sct sc) s

/-- FORWARD_FAIL, R130. -/
def execForwardFail (t : Nat) (s : State) : Ans := lift (fun d => d.cond (d.forwardLost t) (fun d => d.forwardFail t)) s

/-! ### Reservations (R132 to R136) -/

def keyOfHost (r : Resv) (h : Nat) : Option DWord := (r.regs.find? (fun x => decide (x.host = h))).map (·.key)

/-- Release a reservation that its holder gives up. -/
def Resv.released (r : Resv) : Resv := { r with rtype := 0, holder := 0 }

/-- Remove some registrants; a reservation without its holder, or without registrants, ends. -/
def Resv.without (r : Resv) (p : Registrant → Bool) : Resv :=
  let left := r.regs.filter (fun x => !p x)
  let r1 := { r with regs := left }
  if r.rtype = 0 then r1
  else if allRegs r.rtype then (if left.isEmpty then r1.released else r1)
  else if left.any (fun x => decide (x.host = r.holder)) then r1 else r1.released

/-- Reservation Register (R135): the new state, or the status that refuses it. -/
def resvRegister (r : Resv) (h : Nat) (a : RegAction) (cur new : DWord) (ptpl : Option Bool) : Except Status Resv :=
  let keep (x : Resv) : Resv := { x with ptpl := ptpl.getD x.ptpl, gen := x.gen + 1 }
  match a, keyOfHost r h with
  | .register, none => if 64 ≤ r.regs.length then .error stInternal else .ok (keep { r with regs := r.regs ++ [⟨h, new⟩] })
  | .register, some k => if k = new then .ok r else .error stConflict
  | .unregister, some k => if k = cur then .ok (keep (r.without (fun x => decide (x.host = h)))) else .error stConflict
  | .unregister, none => .error stConflict
  | .replace, some k =>
    if k = cur then .ok (keep { r with regs := r.regs.map (fun x => if x.host = h then { x with key := new } else x) })
    else .error stConflict
  | .replace, none => .error stConflict

/-- Reservation Acquire (R135, R136): the new state, or the status that refuses it. -/
def resvAcquire (r : Resv) (h : Nat) (a : AcqAction) (rtype : Nat) (cur pre : DWord) : Except Status Resv :=
  if keyOfHost r h ≠ some cur then .error stConflict
  else if rtype = 0 ∨ 6 < rtype then .error stField
  else
    match a with
    | .acquire =>
      let mine := if allRegs r.rtype then true else decide (r.holder = h)
      if r.rtype = 0 then .ok { r with rtype := rtype, holder := h }
      else if mine && decide (r.rtype = rtype) then .ok r
      else .error stConflict
    | _ =>
      let take (x : Resv) : Resv := { x with rtype := rtype, holder := h, gen := x.gen + 1 }
      if r.rtype = 0 then .ok { (r.without (fun x => decide (x.key = pre) && decide (x.host ≠ h))) with gen := r.gen + 1 }
      else if allRegs r.rtype then
        if pre = 0 then .ok (take { r with regs := r.regs.filter (fun x => decide (x.host = h)) })
        else .ok { (r.without (fun x => decide (x.key = pre))) with gen := r.gen + 1 }
      else if keyOfHost r r.holder = some pre then
        .ok (take { r with regs := r.regs.filter (fun x => decide (x.key ≠ pre) || decide (x.host = h)) })
      else .ok { (r.without (fun x => decide (x.key = pre))) with gen := r.gen + 1 }

/-- Reservation Release (R135). -/
def resvRelease (r : Resv) (h : Nat) (a : RelAction) (cur : DWord) : Except Status Resv :=
  if keyOfHost r h ≠ some cur then .error stConflict
  else
    match a with
    | .release => .ok (if allRegs r.rtype ∨ r.holder = h then r.released else r)
    | .clear => .ok { rtype := 0, ptpl := r.ptpl, holder := 0, regs := [], gen := r.gen + 1 }

/-- R326: the STEWARD records of a reservation change: its head, and one for each registrant; their form is the model's own. -/
def resvWhat : Nat := 1
def regWhat : Nat := 4

/-- R135: the reservation state on which the next change builds: that of the last change still waiting. -/
def Namespace.resvLast (v : Namespace) : Resv := (v.resvNext.getLast?.map (·.new)).getD v.resv

def ResvWhy.code : ResvWhy → Nat
  | .quiet => 0 | .release => 1 | .preempt => 2 | .clear => 3

def ResvWhy.ofCode : Nat → ResvWhy
  | 1 => .release | 2 => .preempt | 3 => .clear | _ => .quiet

/-- R132, R135: the journal records of a reservation state, with what made it. -/
def Dev.resvRecs (d : Dev) (v hm order beat : Nat) (p : ResvPend) : List JRec × Dev :=
  let new := p.new
  let (r, d1) := d.journalRec hm order beat (.steward resvWhat v
    (new.rtype + 8 * (if new.ptpl then 1 else 0) + 16 * p.why.code + 2 ^ 16 * new.holder + 2 ^ 32 * new.gen.toNat) (new.regs.length + 2 ^ 16 * p.host))
  new.regs.foldl (fun (acc : List JRec × Dev) (g : Registrant) =>
    let (x, d) := acc.2.journalRec hm order beat (.steward regWhat v g.key.toNat g.host)
    (acc.1 ++ [x], d)) ([r], d1)

/-- R135, R156, R172: a change of reservation is journaled and mirrored; it takes effect at the first edge after. -/
def Dev.resvChange (d : Dev) (t : Nat) (p : ResvPend) : Dev :=
  let x := d.tag t
  let (recs, d1) := d.resvRecs x.vol (t / 8192) x.order x.beat p
  ((d1.commitRecs t recs []).updTag t (fun x => { x with begun := true, resv := true })).updVol x.vol
    (fun v => { v with resvNext := v.resvNext ++ [p] })

/-- A reservation command at the steward of the owner. -/
def Dev.resvCommand (d : Dev) (t op : Nat) (why : ResvWhy) (f : Resv → Nat → Except Status Resv) : Dev :=
  match d.runs t op with
  | none => d
  | some c =>
    match f (d.vol (d.tag t).vol).resvLast c.hostIdx with
    | .error st => d.complete t st none
    | .ok new => d.resvChange t { new := new, tag := some t, host := c.hostIdx, why := why }

/-- RESERVATION_REGISTER, R135. -/
def execReservationRegister (t : Nat) (a : RegAction) (cur new : DWord) (ptpl : Option Bool) (s : State) : Ans :=
  lift (fun d => d.resvCommand t opResvRegister (if a = .unregister then .release else .quiet) (fun r h => resvRegister r h a cur new ptpl)) s

/-- RESERVATION_ACQUIRE, R135, R136. -/
def execReservationAcquire (t : Nat) (a : AcqAction) (rtype : Nat) (cur pre : DWord) (s : State) : Ans :=
  lift (fun d => d.resvCommand t opResvAcquire (if a = .acquire then .quiet else .preempt) (fun r h => resvAcquire r h a rtype cur pre)) s

/-- RESERVATION_RELEASE, R135. -/
def execReservationRelease (t : Nat) (a : RelAction) (cur : DWord) (s : State) : Ans :=
  lift (fun d => d.resvCommand t opResvRelease (if a = .clear then .clear else .release) (fun r h => resvRelease r h a cur)) s

/-- The NVMe Reservation Status data structure: generation, type, registrants, persistence, then one 24-byte entry per
registrant: controller 0xFFFF, holder, host identifier, key. -/
def resvReportBytes (r : Resv) (ident : Nat → Nat) : List Byte :=
  leBytes 4 r.gen.toNat ++ leBytes 1 r.rtype ++ leBytes 2 r.regs.length ++ leBytes 2 0 ++
    leBytes 1 (if r.ptpl then 1 else 0) ++ leBytes 14 0 ++
    r.regs.flatMap (fun x => leBytes 2 0xFFFF ++
      leBytes 1 (if r.rtype ≠ 0 ∧ (allRegs r.rtype ∨ x.host = r.holder) then 1 else 0) ++ leBytes 5 0 ++
      leBytes 8 (ident x.host) ++ leBytes 8 x.key.toNat)

/-- RESERVATION_REPORT, R135: the state of the volume goes to the host. -/
def Dev.resvReport (d : Dev) (t : Nat) : Dev :=
  match d.runs t opResvReport with
  | none => d
  | some c =>
    let bs := (padTo c.dlen (resvReportBytes (d.vol (d.tag t).vol).resv (fun h => d.nvt.hosts.getD h 0)))
    let d1 := if c.fwdIn then
        d.post c.qp ⟨.send, fwdHeader 2 (t / 8192) c.fwdTag (d.tag t).vol c.hostIdx 0 bs.length ++ bs, .fwd t, none⟩
      else d.toHost t 0 bs
    d1.complete t stSuccess none

def execReservationReport (t : Nat) (s : State) : Ans := lift (fun d => d.resvReport t) s

/-- R136: the notices to a host when another host `issuer` changes a reservation, as NVMe defines them: 1 registration preempted, to those that a
preempt removes; 2 reservation released, to the registrants that stay when a reservation for registrants ends or changes its type; 3 reservation
preempted, to those that a clear removes. -/
def noticeKinds (old new : Resv) (why : ResvWhy) (h issuer : Nat) : List Nat :=
  let lost := regsHas old h && !regsHas new h
  let stays := regsHas new h
  if h = issuer then []
  else
    match why with
    | .quiet => []
    | .clear => if lost then [3] else []
    | .release => if stays ∧ 3 ≤ old.rtype ∧ new.rtype = 0 then [2] else []
    | .preempt => (if lost then [1] else []) ++ (if stays ∧ old.rtype ≠ 0 ∧ new.rtype ≠ old.rtype then [2] else [])

/-- R112, R136: the notices of a change go to the controllers of the hosts on this head that have not masked them. -/
def Dev.resvNotices (d : Dev) (vol : Nat) (old new : Resv) (why : ResvWhy) (issuer : Nat) : Dev :=
  d.each d.liveCtrls (fun c d =>
    let x := d.ctrl c
    if x.subsys ≠ (d.vol vol).subsys then d
    else
      let kinds := (noticeKinds old new why x.host issuer).filter (fun k => decide (x.resvMask.toNat / 2 ^ k % 2 = 0))
      d.each kinds (fun k d => (d.updCtrl c (fun x => { x with resvLog := x.resvLog ++ [(k, (d.vol vol).nsid)] })).asyncEvent
        c 0x00800006#32))

/-- R132, R136: the head that mirrors a volume follows its reservation, and gives its own hosts their notices once all registrants have come. -/
def Dev.resvFollow (d : Dev) (what a b c : Nat) : Dev :=
  let d1 := if what % 256 = resvWhat then
      (d.stewardReplay what a b c).updVol a (fun v => { v with resvIn := some ((d.vol a).resv, b / 16 % 4, c) })
    else d.stewardReplay what a b c
  match (d1.vol a).resvIn with
  | some (old, why, n) =>
    if (d1.vol a).resv.regs.length = n % 2 ^ 16 then
      (d1.updVol a (fun v => { v with resvIn := none })).resvNotices a old (d1.vol a).resv (ResvWhy.ofCode why) (n / 2 ^ 16)
    else d1
  | none => d1

/-- R81, R117: the steward has taken a command: its entry is free. -/
def Dev.adminTaken (d : Dev) (q : Nat) : Dev :=
  { d with nvt := { d.nvt with adminWait := d.nvt.adminWait.erase q } }.cond (d.nvt.adminWait.contains q) (fun d => d.entryFreed q)

/-- A steward-served command is done: its entry is free, and its completion goes to the queue. -/
def Dev.adminReply (d : Dev) (q cid result : Nat) (st : Status) : Dev :=
  let d1 := d.adminTaken q
  d1.post q ⟨.send, cqeBytes result (d1.sqhd q) (BitVec.ofNat 16 cid) st, .steward, none⟩

/-- R135: the journal records of a change are mirrored, or in the vault. -/
def Dev.resvMirrored (d : Dev) (p : ResvPend) : Bool :=
  let wait := match p.tag with
    | some t => (d.tag t).mirror
    | none => p.wait
  let left := match p.tag with
    | some t => (d.tag t).vaultLeft
    | none => 0
  decide (left = 0) && (match wait with
    | some (m, n) => waitHolds (d.ctx m).cc n || (p.tag.isNone && !d.isOn (.qp m))
    | none => true)

/-- A change of reservation takes effect, its notices go out and its command ends. -/
def Dev.resvTakes (d : Dev) (vol : Nat) (p : ResvPend) : Dev :=
  let old := (d.vol vol).resv
  let d1 := (d.updVol vol (fun v => { v with resv := p.new, resvNext := v.resvNext.drop 1 })).resvNotices vol old p.new p.why p.host
  let d2 := match p.tag with
    | some t => (d1.updTag t (fun x => { x with resv := false })).complete t ((d1.tag t).status.getD stSuccess) none
    | none => d1
  match p.reply with
  | some (q, cid) => d2.adminReply q cid 0 stSuccess
  | none => d2

/-- The changes of a volume that are mirrored take effect in their order. -/
def Dev.resvRun (d : Dev) (vol : Nat) : List ResvPend → Dev
  | [] => d
  | p :: rest => if d.resvMirrored p then (d.resvTakes vol p).resvRun vol rest else d

/-- RESERVATION_EFFECT, R135: the first edge after the record is mirrored. -/
def Dev.resvEffect (d : Dev) (vol : Nat) : Dev := d.resvRun vol (d.vol vol).resvNext

def execReservationEffect (vol : Nat) (s : State) : Ans := lift (fun d => d.resvEffect vol) s

/-! ### Admin and fabrics commands (R103, R112, R113, R122) -/

/-- Data of an admin command goes to the host by RDMA WRITE, then its completion. -/
def Dev.adminData (d : Dev) (q cid : Nat) (buf : KeyedSgl) (bs : List Byte) : Dev :=
  (d.post q ⟨.write buf.addr buf.key, padTo buf.len bs, .steward, none⟩).adminReply q cid 0 stSuccess

/-- `n` bytes that neither spec/ nor the state gives: free values. -/
def Dev.freeBlock (d : Dev) (n : Nat) : List Byte × Dev :=
  ((List.range n).map (fun i => Config.freeByte (d.free + i)), { d with free := d.free + n })

/-- Put fields over a block of bytes. -/
def overlay (base : List Byte) (fs : List (Nat × List Byte)) : List Byte :=
  fs.foldl (fun b f => b.take f.1 ++ f.2 ++ b.drop (f.1 + f.2.length)) base

/-- The controller that a queue belongs to. -/
def Dev.ctrlOf (d : Dev) (q : Nat) : Nat := (d.bind q).cntlid

/-- R102: the first CNTLID of this head. -/
def Dev.cntlidBase (d : Dev) : Nat := if d.slotId = 0 then 1 else 0x801

/-- R132: the host with an index. 0 is no host. -/
def Dev.setHost (d : Dev) (i ident : Nat) : Dev :=
  { d with nvt := { d.nvt with hosts := (d.nvt.hosts ++ List.replicate (i + 1 - d.nvt.hosts.length) 0).set i ident } }

/-- The code under which a head tells its peer a new host: the model's own. -/
def hostChange : Nat := 0x03FF

/-- R543: a change goes into the journal and at once to the peer. -/
def Dev.tellPeer (d : Dev) (code : Nat) (args : List Byte) : Dev :=
  (d.journalChange code args).mirrorSince (d.fld Reg.MDE_JSEQ_NEXT_SEQ)

/-- R132: the index of a host identifier; a new one is added and told to the peer, so that both heads have the same. A head takes a free index of
its own parity first: DESIGN CHOICE, the spec does not say how two heads keep from taking the same one. -/
def Dev.hostIndex (d : Dev) (ident : Nat) : Option (Nat × Dev) :=
  match d.nvt.hosts.findIdx? (fun h => decide (h = ident)) with
  | some i => some (i, d)
  | none =>
    let free (i : Nat) : Bool := decide (d.nvt.hosts.getD i 0 = 0)
    match ((List.range 4096).find? (fun i => free i && decide (i % 2 = d.slotId))).orElse (fun _ => (List.range 4096).find? free) with
    | none => none
    | some i => some (i, (d.setHost i ident).tellPeer hostChange (leBytes 2 i ++ leBytes 224 ident))

/-- R547: a host may connect to a subsystem. -/
def Dev.hostAllowed (d : Dev) (sub idx : Nat) : Bool :=
  (d.subsystem sub).valid && (d.subsystem sub).hosts.contains idx

/-- NVMe over Fabrics: Connect Invalid Parameters and Connect Invalid Host. -/
def stConnectParam : Status := ⟨1, 0x82⟩
def stConnectHost : Status := ⟨1, 0x84⟩

/-- R102: the index under which CONNECT names the discovery subsystem. DESIGN CHOICE: the spec gives subsystems the indices 0 to 255. -/
def discSubsys : Nat := 256

/-- CONNECT, R102, R103: a queue of a controller on a queue pair. `qid` 0 makes a new controller; `subsys` 256 is the discovery subsystem, with
one controller per head and no I/O queue. -/
def Dev.connect (d : Dev) (q cid qid sqsize subsys host cntlid : Nat) (noFlow : Bool) (kato : Nat) : Dev :=
  let disc := decide (subsys = discSubsys)
  if sqsize + 1 < 2 ∨ 1024 < sqsize + 1 then d.adminReply q cid 0 stBusy
  else
    match (if host = 0 then none else d.hostIndex host) with
    | none => d.adminReply q cid 0 (if host = 0 then stConnectParam else stBusy)
    | some (h, d1) =>
      if !disc && !d1.hostAllowed subsys h then d.adminReply q cid 0 stConnectHost
      else
        let bind (c : Nat) (d : Dev) : Dev :=
          ((d.updBind q (fun b => { b with
            cntlid := c, qid := qid, bound := true, noFlow := noFlow, sqSize := sqsize + 1, sqhd := 0 })).updCtx q
            (fun x => { x with rqSlots := sqsize + 1, rqFree := min x.rqFree (sqsize + 1) })).adminReply q cid c stSuccess
        if qid = 0 then
          match (List.range 2048).find? (fun i => !(d1.ctrl (d1.cntlidBase + i)).valid) with
          | none => d.adminReply q cid 0 stBusy
          | some i =>
            if disc && d1.nvt.ctrls.any (fun e => e.2.valid && e.2.disc) then d.adminReply q cid 0 stBusy
            else
              let c := d1.cntlidBase + i
              bind c (d1.updCtrl c (fun _ => {
                valid := true, disc := disc, subsys := subsys, host := h, adminQp := q, kato := kato, lastCmdBeat := d.beat }))
        else
          let x := d1.ctrl cntlid
          if !x.valid ∨ x.disc ∨ x.subsys ≠ subsys ∨ x.host ≠ h then d.adminReply q cid 0 stConnectParam
          else if 128 ≤ x.ioQps.length then d.adminReply q cid 0 stBusy
          else bind cntlid (d1.updCtrl cntlid (fun x => { x with ioQps := x.ioQps ++ [q] }))

def execConnect (q cid qid sqsize subsys host cntlid : Nat) (noFlow : Bool) (kato : Nat) (s : State) : Ans :=
  lift (fun d => d.connect q cid qid sqsize subsys host cntlid noFlow kato) s

/-- R102: CAP: queues of 1,024 entries, the NVM command set alone, MPSMIN 4 KiB; its other bits are those of a free value. -/
def capOf (f : Nat) : Nat :=
  1023 + 2 ^ 16 * (f % 2 ^ 21) + 2 ^ 37 + 2 ^ 45 * (f / 2 ^ 21 % 8) + 2 ^ 52 * (f / 2 ^ 24 % 2 ^ 12)

/-- R102: CAP, VS of NVMe 2.0, CC and CSTS; NVMe's CSTS.RDY follows CC.EN. -/
def Dev.propertyGet (d : Dev) (q cid : Nat) (p : Property) : Dev :=
  let c := d.ctrl (d.ctrlOf q)
  match p with
  | .cc => d.adminReply q cid c.cc.toNat stSuccess
  | .csts => d.adminReply q cid c.csts.toNat stSuccess
  | .vs => d.adminReply q cid 0x20000 stSuccess
  | .cap =>
    let (n, d1) := d.draw
    d1.adminReply q cid (capOf (Config.freeNat n)) stSuccess
  | .other _ => d.adminReply q cid 0 stField

/-- PROPERTY_GET, R112. -/
def execPropertyGet (q cid : Nat) (p : Property) (s : State) : Ans := lift (fun d => d.propertyGet q cid p) s

/-- PROPERTY_SET, R112: CC is written; RDY follows its EN bit, and a shutdown notice is answered as complete. -/
def Dev.propertySet (d : Dev) (q cid : Nat) (p : Property) (v : DWord) : Dev :=
  match p with
  | .cc =>
    let rdy : Nat := v.toNat % 2
    let shn : Nat := v.toNat / 2 ^ 14 % 4
    (d.updCtrl (d.ctrlOf q) (fun c => { c with
      cc := BitVec.ofNat 32 v.toNat, csts := BitVec.ofNat 32 (rdy + (if shn = 0 then 0 else 8)) })).adminReply
      q cid 0 stSuccess
  | _ => d.adminReply q cid 0 stField

def execPropertySet (q cid : Nat) (p : Property) (v : DWord) (s : State) : Ans := lift (fun d => d.propertySet q cid p v) s

/-! DH-HMAC-CHAP (R112): the messages are those of NVMe 2.0, PRESUMED. -/

/-- R112: SHA-256 (1) or SHA-384 (2), and the length of its value. -/
def authHashLen (h : Nat) : Nat := if h = 1 then 32 else if h = 2 then 48 else 0

/-- R112: the null group (0), or ffdhe2048 to ffdhe8192 (1 to 5), and the length of a public value. -/
def authGroupLen (g : Nat) : Nat := [0, 256, 384, 512, 768, 1024].getD g 0

/-- The first identifier of a list of a negotiation that R112 supports. -/
def authPick (b : List Byte) (at_ n : Nat) (ok : Nat → Bool) : Option Nat :=
  ((b.drop at_).take n).map (·.toNat) |>.find? ok

/-- A negotiation: its first descriptor offers hashes and groups; without a common one the exchange fails. -/
def QpBind.authNegotiate (b : QpBind) (m : List Byte) : QpBind :=
  let c := { b with authTid := leField m 4 2, authHash := 0, authGroup := 0 }
  match authPick m 12 (min 30 (leField m 10 1)) (fun h => decide (h = 1 ∨ h = 2)),
    authPick m 42 (min 30 (leField m 11 1)) (fun g => decide (g ≤ 5)) with
  | some h, some g => { c with auth := .challenge, authHash := h, authGroup := g }
  | none, _ => { c with auth := .failure 4 }
  | _, none => { c with auth := .failure 5 }

/-- A message of the host, by AUTH_TYPE and AUTH_ID. `right` tells whether a response passes. -/
def QpBind.authTake (b : QpBind) (m : List Byte) (right : Bool) : QpBind :=
  match leField m 0 1, leField m 1 1, b.auth with
  | 0, 0, _ => b.authNegotiate m
  | 1, 2, .reply =>
    if leField m 4 2 ≠ b.authTid ∨ leField m 6 1 ≠ authHashLen b.authHash then { b with auth := .failure 6 }
    else { b with auth := if right then .success else .failure 1 }
  | 1, 4, .done => b
  | 1, 0xF0, _ => { b with auth := .none }
  | _, _, _ => { b with auth := .failure 7 }

/-- What the exchange waits for once the steward's message is out. -/
def QpBind.authGiven (b : QpBind) : AuthStep := match b.auth with
  | .challenge => .reply
  | .success => .done
  | .failure _ => .none
  | s => s

/-- The steward's message: a challenge, the success of the host's response, or a failure with its explanation. `x` holds the bytes that spec/
does not give. -/
def QpBind.authMsg (b : QpBind) (x : List Byte) : List Byte :=
  let n := authHashLen b.authHash
  let g := authGroupLen b.authGroup
  match b.auth with
  | .challenge =>
    leBytes 1 1 ++ leBytes 1 1 ++ leBytes 2 0 ++ leBytes 2 b.authTid ++ leBytes 1 n ++ leBytes 1 0 ++ leBytes 1 b.authHash ++
      leBytes 1 b.authGroup ++ leBytes 2 g ++ x.take 4 ++ (x.drop 4).take (n + g)
  | .success => leBytes 1 1 ++ leBytes 1 3 ++ leBytes 2 0 ++ leBytes 2 b.authTid ++ leBytes 1 n ++ leBytes 1 0 ++ leBytes 1 0 ++ leBytes 7 0 ++ x.take n
  | .failure w => leBytes 1 1 ++ leBytes 1 0xF1 ++ leBytes 2 0 ++ leBytes 2 b.authTid ++ leBytes 1 1 ++ leBytes 1 w
  | _ => []

/-- AUTHENTICATION_SEND, R112: the steward takes the next message of the DH-HMAC-CHAP exchange. Whether a response is right is a free value: the secrets are not in spec/. -/
def Dev.authSend (d : Dev) (q cid : Nat) (msg : List Byte) : Dev :=
  let (n, d1) := d.draw
  (d1.updBind q (fun b => b.authTake msg (decide (Config.freeNat n % 2 = 0)))).adminReply q cid 0 stSuccess

def execAuthenticationSend (q cid : Nat) (msg : List Byte) (s : State) : Ans := lift (fun d => d.authSend q cid msg) s

/-- AUTHENTICATION_RECEIVE, R112: the steward's next message; challenge, public value and response bytes are free values. -/
def Dev.authReceive (d : Dev) (q cid : Nat) (buf : KeyedSgl) : Dev :=
  let b := d.bind q
  let (x, d1) := d.freeBlock (16 + authHashLen b.authHash + authGroupLen b.authGroup)
  (d1.updBind q (fun b => { b with auth := b.authGiven })).adminData q cid buf (b.authMsg x)

def execAuthenticationReceive (q cid : Nat) (buf : KeyedSgl) (s : State) : Ans := lift (fun d => d.authReceive q cid buf) s

/-- DISCONNECT, R682: the completion goes out, and the queue pair stops gracefully. -/
def execDisconnect (q cid : Nat) (s : State) : Ans :=
  lift (fun d => (d.adminReply q cid 0 stSuccess).hostDisconnect q) s

/-- R102, R104 to R109, R112, R113, R126, R137: the Identify Controller fields that spec/ gives, at NVMe's offsets. AWUN and AWUPF of the controller are
those of its largest blocks; each volume's own are in its namespace structure. `base` holds the bits that spec/ does not give. -/
def Dev.identifyCtrl (d : Dev) (c : Nat) (base : List Byte) : List (Nat × List Byte) :=
  let x := d.ctrl c
  [(77, leBytes 1 8), (78, leBytes 2 c), (80, leBytes 4 0x20000), (96, leBytes 1 (leField base 96 1 ||| 64)), (111, leBytes 1 (if x.disc then 2 else 1)),
   (256, leBytes 2 0), (259, leBytes 1 7), (342, leBytes 1 2), (344, leBytes 4 64), (348, leBytes 4 64),
   (516, leBytes 4 32768), (520, leBytes 2 (0x1AD + leField base 520 1 / 16 % 2 * 16)), (522, leBytes 2 0), (526, leBytes 2 7), (528, leBytes 2 7),
   (534, leBytes 2 1), (768, padTo 256 (d.subsystem x.subsys).nqn), (1792, leBytes 4 1028), (1796, leBytes 4 1)]

/-- R102, R105 to R107, R137: the Identify Namespace fields that spec/ gives, at NVMe's offsets. MSSRL has 16 bits and reads 65,535, the largest value
that fits (R137 gives 65,536, which `copyOk` allows). -/
def identifyNs (v : Namespace) (base : List Byte) : List (Nat × List Byte) :=
  let n := v.size * (32768 / v.blk)
  let atom := leBytes 2 (32768 / v.blk - 1)
  [(0, leBytes 8 n), (8, leBytes 8 n), (24, leBytes 1 (leField base 24 1 ||| 2)), (25, leBytes 1 0), (26, leBytes 1 0), (27, leBytes 1 0), (28, leBytes 1 0),
   (29, leBytes 1 0), (33, leBytes 1 1), (34, atom), (36, atom), (40, atom), (42, leBytes 2 0), (44, atom), (74, leBytes 2 65535), (76, leBytes 4 (2 ^ 20)),
   (80, leBytes 1 127), (92, leBytes 4 (v.anaGrp + 1)), (99, leBytes 1 (if v.roVol then 1 else 0)),
   (128, leBytes 4 ((if v.lbaf then 12 else 9) * 2 ^ 16))]

/-- NVME_IDENTIFY, R112: controller, namespace and active-namespace structures; other CNS values are refused. -/
def Dev.nvmeIdentify (d : Dev) (q cid cns nsid : Nat) (buf : KeyedSgl) : Dev :=
  let c := d.ctrlOf q
  match cns with
  | 0x01 =>
    let (b, d1) := d.freeBlock 4096
    d1.adminData q cid buf (overlay b (d.identifyCtrl c b))
  | 0x00 =>
    match d.volumeOf (d.ctrl c).subsys nsid with
    | none => d.adminReply q cid 0 stNamespace
    | some v =>
      let (b, d1) := d.freeBlock 4096
      d1.adminData q cid buf (overlay b (identifyNs (d.vol v) b))
  | 0x02 =>
    let ids := (d.nvt.ns.filter (fun e => e.2.valid && decide (e.2.subsys = (d.ctrl c).subsys) && decide (nsid < e.2.nsid))).map
      (fun e => (e.2.nsid, ()))
    let sorted := ids.foldl (fun acc e => tins (tdel acc e.1) e.1 ()) []
    d.adminData q cid buf (padTo 4096 ((sorted.take 1024).flatMap (fun e => leBytes 4 e.1)))
  | _ => d.adminReply q cid 0 stField

def execNvmeIdentify (q cid cns nsid : Nat) (buf : KeyedSgl) (s : State) : Ans :=
  lift (fun d => d.nvmeIdentify q cid cns nsid buf) s

/-- R126: the ANA log page: a header, then one descriptor per group that has volumes here, from the NVT_ANA states. The Change Counts are 0:
DESIGN CHOICE, the spec gives them no value. -/
def Dev.anaLog (d : Dev) (sub : Nat) : List Byte :=
  let groups := (List.range 64).filter (fun g => d.nvt.ns.any (fun e => e.2.valid && decide (e.2.subsys = sub) && decide (e.2.anaGrp = g)))
  leBytes 8 0 ++ leBytes 2 groups.length ++ leBytes 6 0 ++ groups.flatMap (fun g =>
    let ids := (d.nvt.ns.filter (fun e => e.2.valid && decide (e.2.subsys = sub) && decide (e.2.anaGrp = g))).map (·.2.nsid)
    leBytes 4 (g + 1) ++ leBytes 4 ids.length ++ leBytes 8 0 ++ leBytes 1 (d.fld (Reg.NVT_ANA g)) ++ leBytes 15 0 ++
      ids.flatMap (leBytes 4))

/-- The digits of a number. -/
def digits (n : Nat) : List Byte := (toString n).toList.map (fun c => BitVec.ofNat 8 c.toNat)

/-- An IPv4 address as NVMe writes it. -/
def dotted (a : BitVec 32) : List Byte :=
  let o (i : Nat) : List Byte := digits (a.toNat / 2 ^ (8 * i) % 256)
  let dot : List Byte := [0x2E#8]
  o 3 ++ dot ++ o 2 ++ dot ++ o 1 ++ dot ++ o 0

/-- R112: one Discovery log entry: a subsystem at a host port. `x` holds the bytes that spec/ does not give. -/
def discEntry (x : List Byte) (port : Nat) (addr : BitVec 32) (nqn : List Byte) : List Byte :=
  overlay x [(0, leBytes 1 1), (1, leBytes 1 1), (2, leBytes 1 2), (4, leBytes 2 port), (6, leBytes 2 0xFFFF), (256, padTo 256 nqn), (512, padTo 256 (dotted addr))]

/-- R102, R112: the Discovery log page: a header, then each subsystem that the host may use at each host port that is ON. -/
def Dev.discoveryLog (d : Dev) (host : Nat) : List Byte × Dev :=
  let subs := (List.range 256).filter (fun i => d.hostAllowed i host)
  let recs := subs.flatMap (fun i => ((List.range 16).filter (fun p => d.isOn (.port p))).map (fun p => (i, p)))
  let (gen, d1) := d.freeBlock 8
  let (x, d2) := d1.freeBlock 1024
  (gen ++ leBytes 8 recs.length ++ leBytes 1008 0 ++
    recs.flatMap (fun r => discEntry x r.2 (d.port r.2).ip4 (d.subsystem r.1).nqn), d2)

/-- NVMe: Invalid Log Page. -/
def stLogPage : Status := ⟨1, 0x09⟩

/-- R370: an entry of the Error Information log, as NVMe 2.0 lays it out (log 202). -/
def errBytes (e : ErrRec) : List Byte :=
  padTo 64 (leBytes 8 e.num ++ leBytes 2 e.qid ++ leBytes 2 e.cid ++ leBytes 2 (2 * e.status) ++ leBytes 2 0xFFFF ++ leBytes 8 e.lba ++ leBytes 4 e.nsid)

/-- GET_LOG_PAGE, R112, R126, R136. Contents that spec/ does not give are free values. The Log Page Count of a Reservation Notification is always 1:
DESIGN CHOICE, the spec gives it no value. -/
def Dev.getLogPage (d : Dev) (q cid : Nat) (page : LogPage) (buf : KeyedSgl) : Dev :=
  let c := d.ctrlOf q
  match page with
  | .ana => d.adminData q cid buf (d.anaLog (d.ctrl c).subsys)
  | .changedNs =>
    (d.updCtrl c (fun x => { x with changedNs := [] })).adminData q cid buf
      (padTo 4096 ((d.ctrl c).changedNs.flatMap (leBytes 4)))
  | .resvNotification =>
    match (d.ctrl c).resvLog with
    | [] => d.adminData q cid buf (padTo 64 [])
    | (k, nsid) :: rest =>
      (d.updCtrl c (fun x => { x with resvLog := rest })).adminData q cid buf
        (padTo 64 (leBytes 8 1 ++ leBytes 1 k ++ leBytes 1 (min 255 rest.length) ++ leBytes 2 0 ++ leBytes 4 nsid))
  | .discovery =>
    if (d.ctrl c).disc then
      let (bs, d1) := d.discoveryLog (d.ctrl c).host
      d1.adminData q cid buf bs
    else d.adminReply q cid 0 stLogPage
  | .error => d.adminData q cid buf ((d.ctrl c).errLog.flatMap errBytes)
  | .smart =>
    let (bs, d1) := d.freeBlock buf.len
    d1.adminData q cid buf bs
  | .other _ => d.adminReply q cid 0 stLogPage

def execGetLogPage (q cid : Nat) (page : LogPage) (buf : KeyedSgl) (s : State) : Ans :=
  lift (fun d => d.getLogPage q cid page buf) s

/-- The value of a feature at a controller, and of Reservation Persistence in the volume that its namespace identifier names. -/
def Dev.feature (d : Dev) (c : Ctrl) : Feature → Option Nat
  | .numQueues => some c.numQueues
  | .asyncConfig => some c.asyncConfig.toNat
  | .keepAlive => some c.kato
  | .hostId => some c.host
  | .resvMask => some c.resvMask.toNat
  | .resvPersist nsid => (d.volumeOf c.subsys nsid).map (fun v => if (d.vol v).resv.ptpl then 1 else 0)
  | .other _ => none

/-- R112, R133, R135: Persist Through Power Loss of a volume's reservation: a change like any other, whose journal records go on mirror context 0. -/
def Dev.setPtpl (d : Dev) (v : Nat) (on : Bool) (q cid : Nat) : Dev :=
  let p : ResvPend := { new := { (d.vol v).resvLast with ptpl := on }, tag := none, reply := some (q, cid) }
  let (recs, d1) := d.resvRecs v 0 0 0 p
  let d2 := d1.cond (d1.isOn (.qp 0)) (fun d => d.each (chunks 63 (recs.length + 1) recs) (fun l d =>
    d.post 0 (putItem d.cal.winKey ptJournal 0 (putBytes ptJournal 0 [] l []) (.linkMsg 0))))
  d2.updVol v (fun x => { x with resvNext := x.resvNext ++ [{ p with wait := if d1.isOn (.qp 0) then some (0, d2.putCount 0) else none }] })

/-- SET_FEATURES, R112. Number of Queues grants at most 128 of each (R102), zero-based. -/
def Dev.setFeatures (d : Dev) (q cid : Nat) (f : Feature) (v : Word) : Dev :=
  let c := d.ctrlOf q
  let n := v.toNat
  match f with
  | .numQueues =>
    let g := min (n % 2 ^ 16) 127 + 2 ^ 16 * min (n / 2 ^ 16) 127
    (d.updCtrl c (fun x => { x with numQueues := g })).adminReply q cid g stSuccess
  | .asyncConfig => (d.updCtrl c (fun x => { x with asyncConfig := v })).adminReply q cid 0 stSuccess
  | .keepAlive => (d.updCtrl c (fun x => { x with kato := n })).adminReply q cid 0 stSuccess
  | .resvMask => (d.updCtrl c (fun x => { x with resvMask := v })).adminReply q cid 0 stSuccess
  | .hostId => d.adminReply q cid 0 stField
  | .resvPersist nsid =>
    match d.volumeOf (d.ctrl c).subsys nsid with
    | none => d.adminReply q cid 0 stNamespace
    | some v => d.setPtpl v (decide (n % 2 = 1)) q cid
  | .other _ => d.adminReply q cid 0 stField

def execSetFeatures (q cid : Nat) (f : Feature) (v : Word) (s : State) : Ans := lift (fun d => d.setFeatures q cid f v) s

/-- GET_FEATURES, R112. -/
def Dev.getFeatures (d : Dev) (q cid : Nat) (f : Feature) : Dev :=
  match d.feature (d.ctrl (d.ctrlOf q)) f with
  | some n => d.adminReply q cid n stSuccess
  | none => d.adminReply q cid 0 (match f with
      | .resvPersist _ => stNamespace
      | _ => stField)

def execGetFeatures (q cid : Nat) (f : Feature) (s : State) : Ans := lift (fun d => d.getFeatures q cid f) s

/-- NVMe: Asynchronous Event Request Limit Exceeded. -/
def stAerLimit : Status := ⟨1, 0x05⟩

/-- ASYNCHRONOUS_EVENT_REQUEST, R112, R102: held, up to 8; an event already waiting answers it at once. -/
def Dev.asyncRequest (d : Dev) (q cid : Nat) : Dev :=
  let c := d.ctrlOf q
  match (d.ctrl c).events with
  | e :: rest => (d.updCtrl c (fun x => { x with events := rest })).adminReply q cid e.toNat stSuccess
  | [] =>
    if 8 ≤ (d.ctrl c).aers.length then d.adminReply q cid 0 stAerLimit
    else
      (d.updCtrl c (fun x => { x with aers := x.aers ++ [BitVec.ofNat 16 cid] })).adminTaken q

def execAsynchronousEventRequest (q cid : Nat) (s : State) : Ans := lift (fun d => d.asyncRequest q cid) s

/-- KEEP_ALIVE, R113. -/
def execKeepAlive (q cid : Nat) (s : State) : Ans :=
  lift (fun d => (d.updCtrl (d.ctrlOf q) (fun c => { c with lastCmdBeat := d.beat })).adminReply q cid 0 stSuccess) s

/-- Take the first command that satisfies `p` out of a list. -/
def takeFirst (p : HostCmd → Bool) : List HostCmd → Option (HostCmd × List HostCmd)
  | [] => none
  | c :: t => if p c then some (c, t) else (takeFirst p t).map (fun r => (r.1, c :: r.2))

/-- ABORT, R122: only a command that still waits for admission is ended. Its slot is free, but SQHD does not move: R117 has it report the entries freed
by admission. DESIGN CHOICE. -/
def Dev.abort (d : Dev) (q cid victimQp victimCid : Nat) : Dev :=
  let s := home victimQp
  match takeFirst (fun c => decide (c.qp = victimQp) && decide (c.cid = BitVec.ofNat 16 victimCid) && !c.fwdIn) (d.slice s).waiting with
  | none => d.adminReply q cid 1 stSuccess
  | some (c, rest) =>
    let d1 := (d.updSlice s (fun x => { x with waiting := rest })).setFld (Reg.SLI_ADM_STS_WAITING s) (min rest.length 65535)
    let d2 := { d1 with cal := { d1.cal with runs := d1.cal.runs.filter (fun r => !(c.pages.contains r.first)) } }
    let d3 := (d2.freeSlot victimQp).post victimQp
      ⟨.send, cqeBytes 0 (d2.sqhd victimQp) c.cid stAborted, .steward, none⟩
    (d3.raise 324 victimQp victimCid 0).adminReply q cid 0 stSuccess

def execAbort (q cid victimQp victimCid : Nat) (s : State) : Ans := lift (fun d => d.abort q cid victimQp victimCid) s

/-- Milliseconds in beats of 125 ns. -/
def msBeats (ms : Nat) : Nat := 8000 * ms

/-- KEEP_ALIVE_EXPIRE, R113: no command within the keep-alive timeout; EN is cleared on all the controller's queue
pairs. -/
def Dev.keepAliveExpire (d : Dev) (c : Nat) : Dev :=
  let x := d.ctrl c
  if x.valid ∧ x.kato ≠ 0 ∧ msBeats x.kato ≤ d.since x.lastCmdBeat then
    (d.raise 325 c 0 0).hostDisconnect x.adminQp
  else d

def execKeepAliveExpire (cntlid : Nat) (s : State) : Ans := lift (fun d => d.keepAliveExpire cntlid) s

/-- INVALID_COMMAND_OPCODE, R104, R112: any other admin opcode. -/
def execInvalidCommandOpcode (q cid : Nat) (s : State) : Ans := lift (fun d => d.adminReply q cid 0 stOpcode) s

end Sys2Proof.Machine
end

