-- ==== Sys2Proof/Machine/WritePath.lean ====
section
/-! DEFINITION. The write path: commands that store, region groups and their commit, vault-through mode, and the release
of grains (R110, R137 to R188, R453, R454). -/
namespace Sys2Proof.Machine

/-! ### Region groups (R145, R165) -/

/-- R165: the bytes of a group that a range does not bring: offset, length, and how far their source lies from them. -/
def gapsOf (gs : List Grain) (a b : Nat) : List (Nat × Nat × Int) :=
  match gs.head?, gs.getLast? with
  | some x, some y =>
    let lo := x.off
    let hi := y.off + y.size
    (if lo < a then [(lo, min a hi - lo, 0)] else []) ++ (if b < hi then [(max b lo, hi - max b lo, 0)] else [])
  | _, _ => []

/-- Add a region group of a tag's command. -/
def Dev.addGroup (d : Dev) (t : Nat) (gs : List (Grain × Nat)) (gaps : List (Nat × Nat × Int)) : Dev :=
  let x := d.tag t
  let region := (gs.head?.map (fun g => g.1.off / 32768)).getD 0
  let g : RGroup := { tag := t, slice := grainSlice x.vol region, vol := x.vol, grains := gs.map (·.1), pages := gs.map (·.2)
                      gaps := gaps, rmw := !gaps.isEmpty, admitBeat := x.beat, order := x.order, m := d.putQp t }
  { d.updTag t (fun x => { x with groupsLeft := x.groupsLeft + 1 }) with
      cal := { d.cal with nextGrp := d.cal.nextGrp + 1, groups := d.cal.groups ++ [(d.cal.nextGrp, g)] } }

/-- R145: the groups of some grains, one per region, with the gap bytes that `gaps` gives for the grains of each. -/
def Dev.addGroups (d : Dev) (t : Nat) (gs : List (Grain × Nat)) (gaps : List Grain → List (Nat × Nat × Int)) : Dev :=
  d.each (regionsOf (gs.map (·.1))) (fun r d =>
    let mine := gs.filter (fun g => decide (g.1.off / 32768 = r))
    d.addGroup t mine (gaps (mine.map (·.1))))

/-- WRITE, R143 to R145, R165: the command is cut into grains and region groups; data still to come is fetched. -/
def Dev.write (d : Dev) (t : Nat) : Dev :=
  match d.runs t opWrite with
  | none => d
  | some c =>
    let v := d.vol (d.tag t).vol
    let gs := cmdGrains c v
    let r := cmdRange c v
    match (if (d.tag t).pages = [] then d.allocGrains (.command t) gs else some ((d.tag t).pages, d)) with
    | none => d
    | some (ps, d1) =>
      let d2 := d1.updTag t (fun x => { x with begun := true, pages := ps })
      let d3 := d2.addGroups t (gs.zip ps) (fun l => gapsOf l r.1 r.2)
      let d4 :=
        if c.fwdIn then
          d3.updTag t (fun x => { x with left := r.2 - r.1, fetched := c.data.length + c.dlen })
        else if (sglBlocks c.sgl).isEmpty then d3
        else d3.startFetch t c
      d4.queueGroups t

def execWrite (t : Nat) (s : State) : Ans := lift (fun d => d.write t) s

/-! ### Placement (R148, R153, R156, R172, R177) -/

/-- R165, R681: the group that a slice's write-path engine takes next. -/
def Dev.nextGroup (d : Dev) (s : Nat) : Option Nat :=
  (tget [] d.cal.placeQ s).find? (fun g => match d.group g with
    | some r => d.serves s (r.tag / Config.tagsPerSlice)
    | none => false)

/-- Draw record IDs for the grains of a group (R177). -/
def drawIds : Nat → List Nat → List Nat × List Nat
  | 0, l => ([], l)
  | n + 1, [] => ([0], (drawIds n []).2)
  | n + 1, g :: rest => (g :: (drawIds n rest).1, (drawIds n rest).2)

/-- R153, R177: write one entry and its INSERT record. Answers the record. -/
def Dev.placeGrain (d : Dev) (g : RGroup) (gid : Nat) (gr : Grain) (page grid idx : Nat) : JRec × Dev :=
  let (rec_, d1) := d.journalRec (g.tag / Config.tagsPerSlice) g.order g.admitBeat (.insert g.vol (grainKey gr) grid false false)
  let e : DirEntry := { state := .staged, size := sizeCode gr.size, rmw := g.rmw, vol := g.vol, off := gr.off / 4096, page := page
                        grid := grid, mirrorQp := g.m, putCount := g.count, admitBeat := g.admitBeat, order := g.order, tag := g.tag, grp := gid }
  let d2 := { d1 with mde := { d1.mde with inserts := d1.mde.inserts ++ [rec_] } }
  (rec_, (d2.updDir g.slice idx (fun _ => e)).reuse [page] (.grain g.slice idx))

/-- Place the grains of a group in order. Answers the journal records. -/
def Dev.placeGrains (d : Dev) (g : RGroup) (gid : Nat) : List (Grain × Nat × Nat × Nat) → List JRec × Dev
  | [] => ([], d)
  | (gr, page, grid, idx) :: rest =>
    let (r, d1) := d.placeGrain g gid gr page grid idx
    let (rs, d2) := d1.placeGrains g gid rest
    (r :: rs, d2)

/-- R454: post the mirror put of a placed group. -/
def Dev.postPut (d : Dev) (g : RGroup) (gid : Nat) (idxs : List Nat) (recs : List JRec) : Dev :=
  let ents := idxs.map (fun i => (i, d.dir g.slice i))
  let pages := ents.flatMap (fun e => d.entryBytes e.2)
  let n := ents.foldl (fun n e => n + 2 ^ e.2.size) 0
  d.post g.m (putItem d.cal.winKey ptMirror n (putBytes ptMirror g.slice ents recs pages) (.mirrorPut g.slice gid))

/-- REGION_GROUP_PLACE, R148, R153, R156, R158, R163, R172, R177, R329: in one quantum of the write-path engine the next group of a slice is placed, its journal records
are written, and its put is posted or it takes the vault path; with the command's last group the completion is posted. -/
def Dev.placeGroup (d : Dev) (s : Nat) : Dev :=
  match d.nextGroup s with
  | none => (d.setFld (Reg.SLI_WPE_STS_DIR_FULL s) 0).setFld (Reg.SLI_WPE_STS_ID_WAIT s) 0
  | some gid =>
    match d.group gid with
    | none => d
    | some g =>
      if d.wpeFree s = false then d
      else
        let n := g.grains.length
        let idxs := d.freeIdx s n
        let full := decide (Config.dirEntries < d.dirUsed s + n)
        let noIds := decide ((d.pool s).length < n)
        let d0 := ((d.cond (full && !d.flag (Reg.SLI_WPE_STS_DIR_FULL s)) (fun d => d.raise (sliceSrc s 0) s 0 0)).setFlag
          (Reg.SLI_WPE_STS_DIR_FULL s) full).setFlag (Reg.SLI_WPE_STS_ID_WAIT s) noIds
        if full || noIds || d.ringFull n then d0
        else
          let (ids, pool) := drawIds n (d0.pool s)
          let mOn := d0.isOn (.qp g.m)
          let g1 := { g with
              placed := true, entries := idxs, put := mOn
              count := if mOn then d0.putCount g.m + 1 else 0, beat := d.beat }
          let d1 := ({ d0.setPool s pool with cal := { d0.cal with placeQ := tupd [] d0.cal.placeQ s (fun l => l.erase gid) } }).updSlice s
            (fun x => { x with wpeAt := d.edges + 1 })
          let (recs, d2) := d1.placeGrains g1 gid (g.grains.zip (g.pages.zip (ids.zip idxs)))
          let d3 := (d2.updGroup gid (fun _ => g1)).count (1 + s) 0x003 1 |>.bumpSat (Reg.SLI_WPE_PLACED_COUNT s) n
          let d4 := d3.cond mOn (fun d => d.postPut g1 gid idxs recs)
          let d5 := if d4.vaultThrough || !mOn then d4.toVault gid
            else d4.updTag g.tag (fun x => { x with mirror := some (g.m, g1.count) })
          (d5.updTag g.tag (fun x => { x with groupsLeft := x.groupsLeft - 1 })).tryComplete g.tag

def execRegionGroupPlace (sl : Nat) (s : State) : Ans := lift (fun d => d.placeGroup sl) s

/-! ### Placed writes from the peer (R152, R157, R453, R454) -/

/-- The pages of entries, one run after another in `bs`, go to the same page numbers of the mirror area. -/
def mirPages (mem : List Host.Cell) : List DirEntry → List Byte → List Host.Cell
  | [], _ => mem
  | e :: t, bs => mirPages (writeBytes mem (e.page * pageBytes) (bs.take e.bytes)) t (bs.drop e.bytes)

/-- R454: what a complete put does at the peer. A NONCE_HWM record also raises the mark table (R327), PLACE and RELOCATE change the copy of a
foreign record (R495). -/
def Dev.putWhole (d : Dev) (bs : List Byte) : Dev :=
  let ptype := leField bs 0 1
  let nent := leField bs 1 1
  let nrec := leField bs 2 2
  let sl := leField bs 4 1
  let ents := putEnts bs
  let recs := (List.range nrec).map (fun i => decodeJRec ((bs.drop (16 + 48 * nent + 64 * i)).take 64))
  let pages := bs.drop (16 + 48 * nent + 64 * nrec)
  let d1 := if ptype = ptMirror then
    { d with cal := { d.cal with mirror := mirPages d.cal.mirror (ents.map (·.2)) pages } } else d
  let d2 := d1.each ents (fun e d => { d with
    cal := { d.cal with
    mirDirs := if e.2.state = .free then tput {} d.cal.mirDirs (dirKey sl e.1) {}
      else tput {} d.cal.mirDirs (dirKey sl e.1) e.2 } })
  d2.each recs (fun r d =>
    -- R146: the image has the ring's room
    let d := { d with mde := { d.mde with
      peerRing := (recIns r d.mde.peerRing).filter (fun x => decide (r.seq < x.seq + ringPages * recsPerPage)) } }
    match r.body with
    | .nonceHwm slot head gen counter => d.takeMark slot head gen counter
    | .place grid seg off stored gsize raw kslot fp =>
      if d.holds grid then d else d.updGrec grid (fun g => { g with
        seg := seg, off := off, stored := stored, gsize := gsize, raw := raw, kslot := kslot, fp := fp, state := .placed })
    | .relocate grid seg off stored =>
      if d.holds grid then d else d.updGrec grid (fun g => { g with seg := seg, off := off, stored := stored })
    | .steward what a b c =>
      if what % 256 = 6 then { d with mbx := { d.mbx with inbox := d.mbx.inbox ++ [(what, a, b, c)] } }
      else if what % 256 = resvWhat ∨ what % 256 = regWhat then d.resvFollow what a b c
      else d
    | _ => d)

/-- R454, R489: a put takes effect, or as a resync copy waits for its batch's marker. A put that releases an entry drops the copy that
waits. -/
def Dev.putApply (d : Dev) (bs : List Byte) : Dev :=
  if d.flag Reg.FOV_STS_RESYNC_TGT && isResync bs then { d with fov := { d.fov with tgtPend := d.fov.tgtPend ++ [bs] } }
  else
    let d1 := if leField bs 0 1 = ptRelease then
        { d with
          fov := { d.fov with
          tgtPend := d.fov.tgtPend.filter (fun p => !(decide (leField p 0 1 = ptMirror) &&
          (List.range (leField bs 1 1)).any (fun i => decide (leField bs (16 + 48 * i + 40) 4 = leField p 56 4) && decide (leField bs 4 1 = leField p 4 1)))) } }
      else d
    d1.putWhole bs

/-- R454: the last packet of a put is placed: the put takes effect, the message is complete, and it is acknowledged in the same beat. -/
def Dev.putDone (d : Dev) (m : Nat) (psn : Psn) (bs : List Byte) : Dev :=
  ((d.putApply bs).updCtx m (fun c => { c with msn := c.msn + 1 })).sendAck m 0 psn

/-- PLACED_WRITE, R97, R157, R453, R454: a put arrives whole on class-1 context m under an R_Key; after the key check it is placed and applied,
and acknowledged. -/
def Dev.placedWrite (d : Dev) (m : Nat) (key : Word) (bs : List Byte) : Dev :=
  let c := d.ctx m
  if m < 64 ∧ c.receives then
    if d.windowCheck c.pd key then
      let last : Psn := c.rqEpsn + BitVec.ofNat 24 (packetsOf bs.length 4096 - 1)
      (d.updCtx m (fun c => { c with rqEpsn := last + 1 })).putDone m last bs
    else d.refuse m 0 c.rqEpsn .remoteAccess qpRemoteAccess
  else d

def execPlacedWrite (m : Nat) (put : WholePut) (s : State) : Ans := lift (fun d => d.placedWrite m put.key put.bytes) s

/-- R98: a placement ends: its bytes lie in memory, and the last of a put ends the put, unless its context has taken the error path. -/
def Dev.placed (d : Dev) (p : Placing) : Dev :=
  let d1 := d.updRegion p.mr (fun x => { x with inflight := x.inflight - 1 })
  let d2 := if p.mirror then { d1 with cal := { d1.cal with mirror := writeBytes d1.cal.mirror p.addr p.bytes } }
    else { d1 with ram := writeBytes d1.ram p.addr p.bytes }
  match p.put with
  | some (q, psn, bs) => d2.cond (d2.ctx q).receives (fun d => d.putDone q psn bs)
  | none => d2

/-- R98: one beat edge of the placements under way. -/
def Dev.placeStep (d : Dev) : Dev :=
  let done := d.xpt.placing.filter (fun p => decide (p.left ≤ 1))
  let rest := (d.xpt.placing.filter (fun p => decide (1 < p.left))).map (fun p => { p with left := p.left - 1 })
  { d with xpt := { d.xpt with placing := rest } }.each done (fun p d => d.placed p)

/-! ### Where the data of a unit lies (R107, R154, R311) -/

/-- R154, R107, R172: a map-only insert is in effect, and hides older Caldera entries, once its put's count is reached or its vault write is done. -/
def Dev.editInEffect (d : Dev) (e : MapOnly) : Bool :=
  if e.grp = 0 ∧ e.rep then waitHolds (d.ctx e.m).cc e.count
  else if e.grp = 0 then waitHolds (d.ctx e.m).cc e.count || !d.nvt.tags.any (fun x => decide (x.2.order = e.order) && decide (x.2.state ≠ .free))
  else (d.group (e.grp - 1)).isNone

/-- A map-only insert covers unit `blk` of a volume. -/
def MapOnly.covers (e : MapOnly) (v blk : Nat) : Bool :=
  decide (e.vol = v) && decide (keyStart e.key ≤ blk) && decide (blk < keyStart e.key + keyParts e.key)

/-- The newest map-only insert in effect over unit `blk` among those that `sel` admits by their place in the order of admission. -/
def Dev.editFor (d : Dev) (sel : Nat → Nat → Nat → Bool) (v blk : Nat) : Option MapOnly :=
  (d.cal.mapOnly.filter (fun e => e.covers v blk && sel e.admitBeat e.home e.order && d.editInEffect e)).foldl (fun best e => match best with
    | none => some e
    | some b => if admitBefore b.admitBeat b.home b.order e.admitBeat e.home e.order then some e else some b) none

/-- R180: the INSERT of a map-only edit has not been applied to the map yet. -/
def Dev.editPending (d : Dev) (e : MapOnly) : Bool :=
  d.mde.inserts.any (fun r => match r.body with
    | .insert t k _ _ _ => decide (t = e.vol ∧ k = e.key ∧ r.admitBeat = e.admitBeat ∧ r.home = e.home ∧ r.order = e.order)
    | _ => false)

/-- R107, R154: an edit that is in the map is kept while the Caldera holds an older entry that it hides. -/
def Dev.editKept (d : Dev) (e : MapOnly) : Bool :=
  d.editPending e || d.cal.dirs.any (fun x => decide (x.2.vol = e.vol) && keysMeet (keyOf x.2.off x.2.size) e.key &&
    admitBefore x.2.admitBeat (x.2.tag / Config.tagsPerSlice) x.2.order e.admitBeat e.home e.order)

def Dev.pruneEdits (d : Dev) : Dev := { d with cal := { d.cal with mapOnly := d.cal.mapOnly.filter d.editKept } }

/-- What a unit of a volume reads from (R154, R311): a Caldera entry, a record through the map with the KEY of its extent,
zeros, or nothing readable. -/
inductive Source where
  | caldera (dkey : Nat) (e : DirEntry)
  | record (key grid : Nat)
  | zeros
  | fault (page : Nat)
  | damaged
deriving DecidableEq, Repr

/-- R495: a record of the domain that this head does not hold, of which the foreign table has no copy. -/
def Dev.foreignGap (d : Dev) (grid : Nat) : Bool := !d.holds grid && !(d.mde.recs.any (fun e => decide (e.1 = grid)))

/-- R334, R335, R362, R495: where the data of a grain record lies: at its place, or, while it has none, in the newest Caldera entry that holds it. A record whose
page is not resident waits for it, and one of a DAMAGED page gives no data. -/
def Dev.recordSource (d : Dev) (key grid : Nat) : Source :=
  if (d.grec grid).damaged then .damaged
  else if d.mde.away.contains (grainPage grid) ∨ d.foreignGap grid then .fault (grainPage grid)
  else if (d.grec grid).state = .placed then .record key grid
  else match newest (d.cal.dirs.filter (fun e => e.2.seen && decide (e.2.grid = grid))) with
    | some (k, e) => .caldera k { e with off := keyStart key }
    | none => .record key grid

/-- R154, R311, R335: where the data of a unit lies, as the writes that `sel` admits left it. The map holds no newer write than a command for which
`sel` speaks (R139, R166, R180). -/
def Dev.sourceFor (d : Dev) (sel : Nat → Nat → Nat → Bool) (v blk : Nat) : Source :=
  let viaMap (edit : Option MapOnly) : Source :=
    match edit.filter d.editPending with
    | some e => if e.grid = 0 then .zeros else d.recordSource e.key e.grid
    | none =>
      match d.mapLookup v blk with
      | .zeros => .zeros
      | .ent e => d.recordSource e.key e.grid
      | .fault p => .fault p
      | .damaged => .damaged
  match newest (d.cal.dirs.filter (fun e => e.2.seen && e.2.covers v blk && sel e.2.admitBeat (e.2.tag / Config.tagsPerSlice) e.2.order)),
    d.editFor sel v blk with
  | some (k, e), some x =>
    if admitBefore e.admitBeat (e.tag / Config.tagsPerSlice) e.order x.admitBeat x.home x.order then viaMap (some x)
    else .caldera k e
  | some (k, e), none => .caldera k e
  | none, x => viaMap x

/-- R154, R311, R335: where the current data of a unit lies. -/
def Dev.source (d : Dev) (v blk : Nat) : Source := d.sourceFor (fun _ _ _ => true) v blk

/-- A source that needs a metadata page which is not resident (R334). -/
def Source.needsPage : Source → Bool
  | .fault _ => true
  | _ => false

/-- A source on flash. -/
def Source.onFlash : Source → Bool
  | .record _ _ => true
  | .damaged => true
  | _ => false

/-! ### Read-modify-write (R165 to R167) -/

/-- R166: what was admitted before a group's command. -/
def RGroup.older (g : RGroup) (beat hm order : Nat) : Bool :=
  admitBefore beat hm order g.admitBeat (g.tag / Config.tagsPerSlice) g.order

/-- The units from which the bytes of a gap come. -/
def gapUnits (p : Nat × Nat × Int) : List Nat :=
  let a := ((p.1 : Int) + p.2.2).toNat
  (List.range ((a % 4096 + p.2.1 + 4095) / 4096)).map (fun i => a / 4096 + i)

def RGroup.units (g : RGroup) : List Nat := g.gaps.flatMap gapUnits

/-- R166: where the old data of a unit lies for a merge. -/
def Dev.oldSource (d : Dev) (g : RGroup) (blk : Nat) : Source := d.sourceFor g.older g.vol blk

/-- The 4,096 old bytes of a unit: from the Caldera, from flash, or zeros. -/
def Dev.oldUnit (d : Dev) (g : RGroup) (fl : GapData) (blk : Nat) : List Byte :=
  match d.oldSource g blk, fl with
  | .caldera _ e, _ => readBytes (if e.adopted then d.cal.mirror else d.cal.own) (e.page * pageBytes + (blk - e.off) * 4096) 4096
  | .record _ _, .bytes off bs => (List.range 4096).map (fun i => if off ≤ blk * 4096 + i then bs.getD (blk * 4096 + i - off) 0 else 0)
  | _, _ => List.replicate 4096 0

/-- The old bytes of a gap. -/
def Dev.oldBytes (d : Dev) (g : RGroup) (fl : GapData) (p : Nat × Nat × Int) : List Byte :=
  (((gapUnits p).flatMap (d.oldUnit g fl)).drop (((p.1 : Int) + p.2.2).toNat % 4096)).take p.2.1

/-- R166: an older write over the gap bytes is still STAGED or not yet placed, or a map page on the way to them is not resident. -/
def Dev.mergeWaits (d : Dev) (g : RGroup) : Bool :=
  d.olderWaiting g.vol g.admitBeat (g.tag / Config.tagsPerSlice) g.order ||
  g.units.any (fun b =>
    d.cal.dirs.any (fun e => decide (e.2.state = .staged) && e.2.covers g.vol b && g.older e.2.admitBeat (e.2.tag / Config.tagsPerSlice) e.2.order) ||
    d.cal.mapOnly.any (fun e => e.covers g.vol b && g.older e.admitBeat e.home e.order && !d.editInEffect e) ||
    d.olderUnplaced g.vol (keyOf b 0) g.admitBeat (g.tag / Config.tagsPerSlice) g.order || (d.oldSource g b).needsPage)

/-- R166: some gap byte comes from flash. -/
def Dev.needsFlash (d : Dev) (g : RGroup) : Bool := g.units.any (fun b => (d.oldSource g b).onFlash)

/-- R166, R681: the group of a slice whose gap bytes are merged next. -/
def Dev.nextMerge (d : Dev) (s : Nat) : Option (Nat × RGroup) :=
  d.cal.groups.find? (fun e => decide (e.2.slice = s) && !e.2.gaps.isEmpty && !e.2.placed && d.serves s (e.2.tag / Config.tagsPerSlice) &&
    !d.mergeWaits e.2)

/-- RMW_MERGE, R163, R166, R167: the gap bytes of the slice's first waiting group arrive; the write-path engine copies them, a quantum per 4 KiB, before
the group is placed. Unreadable old data ends the command with Unrecovered Read Error, and nothing of the group is stored. -/
def Dev.rmwMerge (d : Dev) (s : Nat) (fl : GapData) : Dev :=
  match d.nextMerge s with
  | none => d
  | some (gid, g) =>
    if (fl = .unreadable ∧ d.needsFlash g) ∨ g.units.any (fun b => decide (d.oldSource g b = .damaged)) then
      let d1 := (d.dropGroup gid).updTag g.tag (fun x => { x with groupsLeft := x.groupsLeft - 1, status := some stUnrecovered })
      (d1.raise (sliceSrc s 1) g.tag g.vol 0).tryComplete g.tag
    else
      let d1 := d.each g.gaps (fun p d => d.storeOwn (g.grains.zip g.pages) p.1 (d.oldBytes g fl p))
      ((d1.updGroup gid (fun g => { g with gaps := [] })).bumpSat (Reg.SLI_WPE_RMW_COUNT s) 1).addJobFor s .wpe wpeMerge
        ((g.gaps.map (·.2.1)).sum) (.group gid)

def execRmwMerge (sl : Nat) (g : GapData) (s : State) : Ans := lift (fun d => d.rmwMerge sl g) s

/-! ### Inserts without grain data: Write Zeroes, deallocation, Copy (R110, R137 to R139, R156) -/

/-- An extent to map without data: KEY and record; 0 maps zeros. -/
abbrev MapEdit := Nat × Nat

/-- Write the INSERT records of some extents. Answers them. -/
def Dev.mapEdits (d : Dev) (t : Nat) : List MapEdit → List JRec × Dev
  | [] => ([], d)
  | (key, grid) :: rest =>
    let x := d.tag t
    let (r, d1) := d.journalRec (t / Config.tagsPerSlice) x.order x.beat
      (.insert x.vol key grid (decide (grid ≠ 0)) (decide (grid = 0)))
    let d2 := { d1 with mde := { d1.mde with inserts := d1.mde.inserts ++ [r] } }
    let (rs, d3) := d2.mapEdits t rest
    (r :: rs, d3)

/-- R156, R158, R172: the records of some extents are journaled and committed. -/
def Dev.postEdits (d : Dev) (t : Nat) (edits : List MapEdit) : Dev :=
  if edits.isEmpty then d
  else
    let (recs, d1) := d.mapEdits t edits
    d1.commitRecs t recs edits

/-- R110: the whole 4 KiB units of a byte range. -/
def innerRange (a b : Nat) : Nat × Nat := ((a + 4095) / 4096 * 4096, b / 4096 * 4096)

/-- R110, R143: the grains of the units at the ends of a range that it covers only partly. -/
def edgeGrains (a b : Nat) : List Grain :=
  let w := widen a b
  let i := innerRange a b
  if i.2 ≤ i.1 then cut w.1 w.2 else cut w.1 i.1 ++ cut i.2 w.2

/-- WRITE_ZEROES, R110: whole 4 KiB units are deallocated in the map; parts of them go through read-modify-write. -/
def Dev.writeZeroes (d : Dev) (t : Nat) : Dev :=
  match d.runs t opZeroes with
  | none => d
  | some c =>
    let r := cmdRange c (d.vol (d.tag t).vol)
    let i := innerRange r.1 r.2
    let gs := edgeGrains r.1 r.2
    match d.allocGrains (.command t) gs with
    | none => d
    | some (ps, d1) =>
      let d2 := d1.updTag t (fun x => { x with begun := true, pages := ps })
      let d3 := d2.each (gs.zip ps) (fun g d => d.storeOwn [g] g.1.off (List.replicate g.1.size 0))
      let d4 := d3.addGroups t (gs.zip ps) (fun l => gapsOf l r.1 r.2)
      ((d4.postEdits t ((cut i.1 i.2).map (fun g => (grainKey g, 0)))).queueGroups t).tryComplete t

def execWriteZeroes (t : Nat) (s : State) : Ans := lift (fun d => d.writeZeroes t) s

/-- R139: what a tag's command finds: the writes admitted before it. -/
def Dev.beforeTag (d : Dev) (t : Nat) (beat hm order : Nat) : Bool :=
  admitBefore beat hm order (d.tag t).beat (t / Config.tagsPerSlice) (d.tag t).order

/-- The whole grain that a source gives for unit `blk`: its KEY and its record (0 for zeros, which take one unit). -/
def Source.whole (blk : Nat) : Source → Option MapEdit
  | .caldera _ e => some (keyOf e.off e.size, e.grid)
  | .record key grid => some (key, grid)
  | .zeros => some (keyOf blk 0, 0)
  | _ => none

/-- R110, R138: the whole grains inside units `lo` to `hi` as a command finds them, each once, and the units that belong to grains which the range
covers only partly. -/
def Dev.grainsIn (d : Dev) (t v lo hi : Nat) : List MapEdit × List Nat :=
  (List.range (hi - lo)).foldl (fun acc i =>
    let blk := lo + i
    match (d.sourceFor (d.beforeTag t) v blk).whole blk with
    | none => (acc.1, acc.2 ++ [blk])
    | some (key, grid) =>
      if lo ≤ keyStart key ∧ keyStart key + keyParts key ≤ hi then
        (if acc.1.contains (key, grid) then acc else (acc.1 ++ [(key, grid)], acc.2))
      else (acc.1, acc.2 ++ [blk])) ([], [])

/-- R334: some unit of a range needs a map page that is not resident. -/
def Dev.needsPages (d : Dev) (t v lo hi : Nat) : Bool :=
  (List.range (hi - lo)).any (fun i => (d.sourceFor (d.beforeTag t) v (lo + i)).needsPage)

/-- R110, R137: the descriptors of a command, once all their bytes are here. -/
def Dev.descriptors (d : Dev) (t : Nat) (c : HostCmd) : Option (List Byte) :=
  let bs := c.data ++ (d.tag t).data
  if c.dlen ≤ bs.length then some (bs.take c.dlen) else none

/-- A command's descriptors lie with the host, and their fetch has not begun. -/
def Dev.fetchDue (d : Dev) (t : Nat) (c : HostCmd) : Bool :=
  !(sglBlocks c.sgl).isEmpty && decide ((d.tag t).left = 0) && !c.fwdIn

/-- The path of a command has begun, and nothing more of it is to be fetched. -/
def Dev.beginTag (d : Dev) (t : Nat) : Dev := d.updTag t (fun x => { x with begun := true, left := 0, fetched := 0 })

/-- DATASET_MANAGEMENT, R110: a deallocate acts on the whole grains that its ranges cover; without it nothing is done. It waits for its descriptors
and for the map pages of its ranges. -/
def Dev.datasetManagement (d : Dev) (t : Nat) : Dev :=
  match d.runs t opDsm with
  | none => d
  | some c =>
    if d.fetchDue t c then d.startFetch t c
    else match d.descriptors t c with
      | none => d
      | some bs =>
        let v := (d.tag t).vol
        let ranges := dsmRanges (c.dlen / 16) bs
        let spans := ranges.map (fun r => innerRange (r.slba * (d.vol v).blk) ((r.slba + r.nlb) * (d.vol v).blk))
        if !inVolume { c with ranges := ranges } (d.vol v) then (d.beginTag t).complete t stRange none
        else if !c.ad then (d.beginTag t).complete t stSuccess none
        else if spans.any (fun i => d.needsPages t v (i.1 / 4096) (i.2 / 4096)) then d
        else
          let edits := spans.flatMap (fun i => ((d.grainsIn t v (i.1 / 4096) (i.2 / 4096)).1).map (fun e => (e.1, 0)))
          ((d.beginTag t).postEdits t edits).tryComplete t

def execDatasetManagement (t : Nat) (s : State) : Ans := lift (fun d => d.datasetManagement t) s

/-- R137: the bounds of Copy: format 0, at most 128 ranges of at most 65,536 blocks and 2^20 in all, 4 KiB boundaries,
and source and destination congruent modulo 32 KiB. -/
def copyOk (c : HostCmd) (v : Namespace) (ranges : List LbaRange) : Bool :=
  let b := v.blk
  decide (c.copyFormat = 0) && decide (ranges.length ≤ 128) && ranges.all (fun r => decide (r.nlb ≤ 65536)) &&
    decide (ranges.foldl (fun n r => n + r.nlb) 0 ≤ 2 ^ 20) && decide (c.slba * b % 4096 = 0) &&
    (ranges.foldl (fun acc r =>
      (acc.1 && decide (r.slba * b % 4096 = 0) && decide (r.nlb * b % 4096 = 0) &&
        decide (r.slba * b % 32768 = acc.2 % 32768), acc.2 + r.nlb * b)) (true, c.slba * b)).1

/-- What Copy does over its ranges, each a source unit and a number of units, from destination unit `dst` on: map entries for whole grains, and the
other destination units with the way to their source in bytes. -/
def Dev.copyPlan (d : Dev) (t v : Nat) : Nat → List (Nat × Nat) → List MapEdit × List (Nat × Int)
  | _, [] => ([], [])
  | dst, (src, n) :: rest =>
    let (whole, parts) := d.grainsIn t v src (src + n)
    let (es, ps) := d.copyPlan t v (dst + n) rest
    (whole.map (fun e => (keyOf (dst + (keyStart e.1 - src)) (3 - e.1 % 4), e.2)) ++ es,
     parts.map (fun u => (dst + (u - src), (src : Int) * 4096 - (dst : Int) * 4096)) ++ ps)

/-- Rising units as runs, each its first unit and the one after its last. -/
def unitRuns : List Nat → List (Nat × Nat)
  | [] => []
  | u :: t => match unitRuns t with
    | (a, b) :: l => if u + 1 = a then (u, b) :: l else (u, u + 1) :: (a, b) :: l
    | [] => [(u, u + 1)]

/-- R137 to R139, R143, R145: Copy over ranges that are all right: whole grains are mapped, the rest becomes new grains whose bytes merges bring
from the sources. It waits for room. -/
def Dev.copyRun (d : Dev) (t v dst : Nat) (spans : List (Nat × Nat)) : Dev :=
  let (edits, parts) := d.copyPlan t v dst spans
  let gs := (unitRuns (parts.map (·.1))).flatMap (fun r => cut (r.1 * 4096) (r.2 * 4096))
  match d.allocGrains (.command t) gs with
  | none => d
  | some (ps, d1) =>
    let gaps (l : List Grain) : List (Nat × Nat × Int) := (parts.filter (fun p => l.any (fun g =>
      decide (g.off ≤ p.1 * 4096) && decide (p.1 * 4096 < g.off + g.size)))).map (fun p => (p.1 * 4096, 4096, p.2))
    let d2 := ((d1.beginTag t).updTag t (fun x => { x with pages := ps })).addGroups t (gs.zip ps) gaps
    (d2.postEdits t edits).tryComplete t

/-- COPY, R137 to R139. The sources are looked up as the writes admitted before it left them; it waits for its descriptors and for map pages. -/
def Dev.copy (d : Dev) (t : Nat) : Dev :=
  match d.runs t opCopy with
  | none => d
  | some c =>
    if d.fetchDue t c then d.startFetch t c
    else match d.descriptors t c with
      | none => d
      | some bs =>
        let v := (d.tag t).vol
        let b := (d.vol v).blk
        let ranges := copyRanges (c.dlen / 32) bs
        let spans := ranges.map (fun r => (r.slba * b / 4096, r.nlb * b / 4096))
        if !copyOk c (d.vol v) ranges then (d.beginTag t).complete t stField none
        else if !inVolume { c with ranges := ranges } (d.vol v) then (d.beginTag t).complete t stRange none
        else if spans.any (fun i => d.needsPages t v i.1 (i.1 + i.2)) then d
        else d.copyRun t v (c.slba * b / 4096) spans

def execCopy (t : Nat) (s : State) : Ans := lift (fun d => d.copy t) s

/-! ### Vault-through mode (R171 to R176) -/

/-- R173: an own grain that the catch-up pass has still to write. -/
def DirEntry.unvaulted (e : DirEntry) : Bool :=
  decide (e.state ∈ [GState.mirrored, .destaging, .placed]) && !e.vaulted && !e.lost

/-- R173: CATCHUP reads 1 while the mode holds and such a grain remains. -/
def Dev.refreshCatchup (d : Dev) : Dev :=
  d.setFlag Reg.GLB_CAL_STS_CATCHUP ((d.vaultThrough || d.mem.image) && d.cal.dirs.any (fun e => e.2.unvaulted))

/-- R174, R252: no vault SSD is ON, or slot 4,095 is not READY, while the mode holds: writes are held. -/
def Dev.refreshCommit (d : Dev) : Dev :=
  let held := d.vaultThrough && (d.vaultsOn.isEmpty || decide ((d.kslot 4095).state ≠ .ready))
  let d1 := d.setFlag Reg.GLB_CAL_STS_COMMIT_HELD held
  d1.cond (held && !d.flag Reg.GLB_CAL_STS_COMMIT_HELD) (fun d => d.raise 6 0 0 0)

/-- VAULT_THROUGH_ENTER, R171, R174: the edge after the first reason arises. -/
def Dev.vaultEnter (d : Dev) : Dev :=
  if d.vaultReasons ≠ 0 ∧ d.vaultThrough = false then
    ((((d.setFld Reg.GLB_CAL_STS_MODE 1).raise 4 1 d.vaultReasons 0).refreshCatchup)).refreshCommit
  else d

def execVaultThroughEnter (s : State) : Ans := lift Dev.vaultEnter s

/-- R176: grains of the vault log that the peer's mirror holds are released from the log. -/
def Dev.releaseVaulted (d : Dev) : Dev :=
  let l := d.cal.dirs.filter (fun e => e.2.vaulted && !e.2.adopted)
  { d with
    cal := { d.cal with dirs := d.cal.dirs.map (fun e => if e.2.vaulted && !e.2.adopted then (e.1, { e.2 with vaulted := false }) else e) }
    mem := { d.mem with relQ := d.mem.relQ ++ l.map (fun e => e.2.grid), jseq := 0 } }

/-- VAULT_THROUGH_EXIT, R171, R176: the edge after the last reason ends. -/
def Dev.vaultExit (d : Dev) : Dev :=
  if d.vaultReasons = 0 ∧ d.vaultThrough then
    let d1 := ((((d.setFld Reg.GLB_CAL_STS_MODE 0).raise 4 0 0 0).refreshCatchup)).refreshCommit
    { d1 with cal := { d1.cal with catchupN := 0 } }.releaseVaulted
  else d

def execVaultThroughExit (s : State) : Ans := lift Dev.vaultExit s

/-- VAULT_WRITE_COMPLETE, R172, R175: a group's vault writes are done, or have all failed. -/
def Dev.vaultWriteDone (d : Dev) (g : Nat) (ok : Bool) : Dev :=
  match d.group g with
  | none => d
  | some r =>
    if !r.vault then d
    else
      let d1 := (d.groupMirrored g ok).cond ok (fun d => d.setFld Reg.GLB_CAL_VAULT_LAT_BEATS (min 65535 (d.since r.beat)))
      let d2 := d1.updTag r.tag (fun x => { x with
        vaultLeft := x.vaultLeft - 1, status := if ok then x.status else some stInternal })
      (d2.refreshCatchup).tryComplete r.tag

def execVaultWriteComplete (g : Nat) (ok : Bool) (s : State) : Ans := lift (fun d => d.vaultWriteDone g ok) s

/-- CATCHUP_WRITE, R173: the pass has written a grain, or its vault writes all failed and it is tried again from the next
epoch edge. -/
def Dev.catchupWrite (d : Dev) (s idx : Nat) (ok : Bool) : Dev :=
  if (d.vaultThrough ∨ d.mem.image) ∧ (d.dir s idx).unvaulted ∧ d.cal.pwrfail = false then
    if ok then
      let d1 := d.updDir s idx (fun e => { e with vaulted := true })
      let n := d.cal.catchupN + 1
      let d2 := { d1 with cal := { d1.cal with catchupN := n } }.refreshCatchup
      if d2.flag Reg.GLB_CAL_STS_CATCHUP then d2
      else { d2.raise 7 n 0 0 with cal := { d2.cal with catchupN := 0 } }
    else d.updDir s idx (fun e => { e with vaultRetry := true })
  else d

def execCatchupWrite (sl idx : Nat) (ok : Bool) (s : State) : Ans := lift (fun d => d.catchupWrite sl idx ok) s

/-! ### Destage and release (R179 to R184) -/

/-- R179, R660: a grain is eligible for destage; none is while LOCKED is set. -/
def Dev.eligible (d : Dev) (s idx : Nat) : Bool :=
  let e := d.dir s idx
  decide (e.state = .mirrored) && !e.retryEpoch && !e.lost && !d.cal.pwrfail && !d.destageHalted s && !d.flag Reg.KEY_STS_LOCKED &&
    (decide (d.fld Reg.GLB_CAL_DST_MARK_PAGES < d.ownDirty) ||
      -- R492: while a hand-over runs every such grain is eligible at once
      decide (d.fov.handRole = 1 ∧ d.fov.handStep ≠ 0) ||
      -- R153: a grain whose cipher refused is destaged again from the next epoch edge
      e.refused || d.expired (tmMirrored s idx) (d.fld (Reg.SLI_WPE_CFG_DST_AGE s)))

/-- DESTAGE_START, R153, R179, R189: the oldest eligible grain of a slice enters DESTAGING, and its fingerprint is due. -/
def Dev.destageStart (d : Dev) (s idx : Nat) : Dev :=
  let e := d.dir s idx
  if d.eligible s idx ∧ (d.dirOf s).all (fun x => !(d.eligible s x.1 && x.2.before e)) ∧ d.isOn (.slice s) then
    ((d.updDir s idx (fun e => { e with state := .destaging, refused := false })).updRed (dirKey s idx) (fun _ => { step := .fpWait })).bump
      (Reg.SLI_FPU_WAIT_GRAINS s) 1
  else d

def execDestageStart (sl idx : Nat) (s : State) : Ans := lift (fun d => d.destageStart sl idx) s

/-- R153: the record under which a destaging grain is placed: its own, or the one it duplicates. -/
def DirEntry.placeGrid (e : DirEntry) : Nat := e.dupOf.getD e.grid

/-- R293: a segment is VERIFIED. -/
def Dev.segVerified (d : Dev) (seg : Nat) : Bool := (d.segEnt seg).verified

/-- DESTAGE_PLACED, R153, R178, R181: the strips are written, or the match recorded, the grain's destage records are mirrored, and it enters PLACED with the place of its record. The wait is on the
count that covers the records' own put, which R178 asks for; no waiting work item is made. DEDUCED (log 193). -/
def Dev.destagePlaced (d : Dev) (s idx : Nat) : Dev :=
  let e := d.dir s idx
  let r := d.grec e.placeGrid
  let x := d.red (dirKey s idx)
  let mirrored := match x.wait with
    | some (m, n) => waitHolds (d.ctx m).cc n || !d.isOn (.qp m)
    | none => true
  if e.state = .destaging ∧ e.discarded = false ∧ x.step = .journaled ∧ mirrored = true ∧ r.state = .placed then
    (d.updRed (dirKey s idx) (fun _ => {})).updDir s idx (fun e => { e with
      state := if e.dupOf.isSome && d.segVerified r.seg then .verified else .placed, segment := r.seg })
  else d

def execDestagePlaced (sl idx : Nat) (s : State) : Ans := lift (fun d => d.destagePlaced sl idx) s

/-- R363: a release waits until the grain's map insert is applied. -/
def Dev.insertPending (d : Dev) (grid : Nat) : Bool :=
  d.mde.inserts.any (fun r => match r.body with
    | .insert _ _ g _ _ => decide (g = grid)
    | _ => false)

/-- RELEASE_PUT, R153, R183, R364: a duplicate, a discarded or an own-verified grain is released through its mirror entry;
in vault-through without its context, its LOG_RELEASE is written and it is FREE. -/
def Dev.releasePut (d : Dev) (s idx : Nat) : Dev :=
  let e := d.dir s idx
  if (e.state = .verified ∨ e.discarded) ∧ e.releasing = false ∧ e.refs = 0 ∧ d.insertPending e.grid = false then
    if d.isOn (.qp e.mirrorQp) then
      (d.updDir s idx (fun e => { e with releasing := true })).post e.mirrorQp
        (putItem d.cal.winKey ptRelease 0 (putBytes ptRelease s [(idx, { e with state := .free })] [] []) (.releasePut s idx))
    else if d.vaultThrough then
      if e.vaulted then
        { d with mem := { d.mem with relQ := d.mem.relQ ++ [e.grid] } }.updDir s idx (fun e => { e with releasing := true, logRel := true })
      else d.freeEntry (dirKey s idx)
    else d
  else d

def execReleasePut (sl idx : Nat) (s : State) : Ans := lift (fun d => d.releasePut sl idx) s

/-- GRAIN_RELEASE, R182, R363, R364: the edge after a VERIFIED report of the peer: this head frees its entries of the
segment; one that a read refers to, or whose insert is pending, waits. -/
def Dev.grainRelease (d : Dev) (seg : Nat) : Dev :=
  d.each ((d.cal.dirs.filter (fun e => decide (e.2.state = .verified) && decide (e.2.segment = seg) && decide (e.2.refs = 0) &&
    e.2.dupOf.isNone && !d.insertPending e.2.grid)).map (·.1)) (fun k d => d.freeEntry k)

def execGrainRelease (seg : Nat) (s : State) : Ans := lift (fun d => d.grainRelease seg) s

end Sys2Proof.Machine
end

