-- ==== Sys2Proof/Machine/Reduction.lean ====
section
/-! DEFINITION. Reduction: fingerprints, the Tephra index and its batches, matches, and the Sinter compressors (R189 to R216,
R459). -/
namespace Sys2Proof.Machine

/-! ### The Tephra table (R194 to R198) -/

/-- R194: b, and whether the table is present. -/
def Dev.tphBits (d : Dev) : Nat := d.fld Reg.MDE_TPH_SIZE_LOG2_BUCKETS
def Dev.tphPresent (d : Dev) : Bool := decide (16 ≤ d.tphBits) && decide (d.tphBits ≤ 32)
def Dev.tphActive (d : Dev) : Bool := d.tphPresent && d.flag Reg.MDE_TPH_CFG_EN

/-- R194: a hook's bucket. -/
def bucketOf (b : Nat) (fp : List Byte) : Nat := leNat fp / 32 % 2 ^ b

/-- R195: FP_HI. -/
def fpHi (fp : List Byte) : Nat := leNat fp / 2 ^ 64

/-- R195: the 16 bytes of an entry, and the entry of 16 bytes. -/
def TphEnt.bytes (e : TphEnt) : List Byte :=
  leBytes 8 e.fpHi ++ leBytes 4 e.seg ++ leBytes 2 (e.gsize + 4 * e.slot + (if e.valid then 2 ^ 15 else 0)) ++ leBytes 2 e.epoch16
def tphOf (bs : List Byte) : TphEnt :=
  let f := leField bs 12 2
  ⟨leField bs 0 8, leField bs 8 4, f % 4, f / 4 % 2, leField bs 14 2, decide (f / 2 ^ 15 = 1)⟩

/-- R194: a bucket is one line of DDR5 from MDE_TPH_BASE on. BASE counts in MiB. -/
def Dev.bucketLine (d : Dev) (k : Nat) : Nat := (d.fld Reg.MDE_TPH_BASE_BASE * 4096 + k) % 2 ^ 36

/-- R194: the 16 entries of a bucket. -/
def Dev.bucket (d : Dev) (k : Nat) : List TphEnt :=
  (List.range 16).map (fun i => tphOf (((d.lineNow (d.bucketLine k)).drop (16 * i)).take 16))

/-- R196: serial comparison over 2^16: `a` is older than `b`. -/
def serialOlder (a b : Nat) : Bool := decide (0 < (b + 2 ^ 16 - a) % 2 ^ 16) && decide ((b + 2 ^ 16 - a) % 2 ^ 16 < 2 ^ 15)

/-- R196: where an entry goes in a full bucket: the oldest, the lowest-numbered among equals. -/
def oldestEntry (l : List TphEnt) : Nat :=
  ((l.zipIdx.foldl (fun (best : Option (TphEnt × Nat)) e => match best with
    | none => some e
    | some x => if serialOlder e.1.epoch16 x.1.epoch16 then some e else some x) none).map (·.2)).getD 0

/-- R196: insert an entry into a bucket, through the metadata cache; an entry that is there already is not inserted again. Answers whether it was inserted. -/
def Dev.tphInsert (d : Dev) (k : Nat) (e : TphEnt) : Bool × Dev :=
  let l := d.bucket k
  if l.any (fun x => x.valid && decide (x.fpHi = e.fpHi) && decide (x.gsize = e.gsize) && decide (x.seg = e.seg)) then
    (false, d.cacheAccess (d.bucketLine k) none none false)
  else
    let i := (firstIdx (fun (x : TphEnt) => !x.valid) l).getD (oldestEntry l)
    (true, (d.cacheAccess (d.bucketLine k) (some ((l.set i { e with valid := true }).flatMap TphEnt.bytes)) none false).bump Reg.MDE_TPH_INSERTS_COUNT 1)

/-- R197: the segments to which a hook's bucket leads. -/
def Dev.tphLookup (d : Dev) (fp : List Byte) (gsize : Nat) : List Nat :=
  ((d.bucket (bucketOf d.tphBits fp)).filter (fun x =>
    x.valid && decide (x.fpHi = fpHi fp) && decide (x.gsize = gsize))).map (·.seg)

/-- R196: the bucket is read or written in this beat, its line by way of the metadata cache. -/
def Dev.touch (d : Dev) (k : Nat) : Dev := { d with tph := { d.tph with touched := k :: d.tph.touched } }

/-- R196: a bucket that was used in this beat, or for which inserts wait. -/
def Dev.bucketBusy (d : Dev) (k : Nat) : Bool := d.tph.touched.contains k || d.tph.insQ.any (fun e => decide (e.2.1 = k))

/-- R196, R216: an own insert is on its way to the table. -/
def Dev.tphOwn (d : Dev) (fp : List Byte) (gsize seg : Nat) : Dev :=
  if !d.tphActive then d
  else { d with tph := { d.tph with insQ := d.tph.insQ ++ [(true, bucketOf d.tphBits fp, ⟨fpHi fp, seg, gsize, d.slotId, d.epoch % 2 ^ 16, true⟩)] } }

/-- R206, R207: an entry of this head that was inserted goes into the batch of this epoch while there is room. None does while the link is down. -/
def Dev.batchAdd (d : Dev) (e : TphEnt) : Dev :=
  if !d.linkSends then d
  else if d.tph.outQ.length < d.fld Reg.MDE_TPH_BATCH_MAX_ENTRIES then { d with tph := { d.tph with outQ := d.tph.outQ ++ [e] } }
  else
    let n := d.tph.overflow + 1
    (({ d with tph := { d.tph with overflow := n } }).bump Reg.MDE_TPH_INSERT_DROP_COUNT 1).raiseOnce 1026 1026 n 0 0

/-- R196: one insert of the queue, where its bucket has not been used in this beat. -/
def Dev.tphApply (d : Dev) (x : Bool × Nat × TphEnt) : Dev :=
  if d.tph.touched.contains x.2.1 then { d with tph := { d.tph with insQ := d.tph.insQ ++ [x] } }
  else if !d.tphActive then d
  else
    let r := (d.touch x.2.1).tphInsert x.2.1 x.2.2
    r.2.cond (r.1 && x.1) (fun d => d.batchAdd x.2.2)

/-- R196: the inserts of one beat: in order, one of each bucket. -/
def Dev.tphBeat (d : Dev) : Dev := { d with tph := { d.tph with insQ := [], touched := [] } }.each d.tph.insQ (fun x d => d.tphApply x)

/-! ### The manifest cache (R199, R200) -/

/-- R199: put a manifest into the cache; when it is full, the one whose last match lies furthest back leaves. -/
def Dev.cacheManifest (d : Dev) (m : Manifest) : Dev :=
  let l := d.tph.mans.filter (fun x => decide (x.seg ≠ m.seg))
  let l1 :=
    if l.length < 16384 then l
    else
      let lo := (l.map (·.last)).foldl min m.last
      match firstIdx (fun (x : Manifest) => decide (x.last = lo)) l with
      | some i => l.eraseIdx i
      | none => l
  { d with tph := { d.tph with mans := l1 ++ [m] } }.setFld Reg.MDE_TPH_STS_MC_USED (l1.length + 1)

/-- R200: the candidates for a grain, with their manifests. -/
def Dev.candidates (d : Dev) (fp : List Byte) (gsize kslot gen : Nat) : List (Manifest × ManEntry) :=
  d.tph.mans.flatMap (fun m => (m.ents.filter (fun e =>
    decide (e.fp = fp) && decide (e.gsize = gsize) && decide (e.kslot = kslot) && decide (e.gen = gen))).map (fun e => (m, e)))

/-- R200: the candidate of the most recently written segment. -/
def Dev.candidate (d : Dev) (fp : List Byte) (gsize kslot gen : Nat) : Option (Manifest × ManEntry) :=
  (d.candidates fp gsize kslot gen).foldl (fun best c => match best with
    | none => some c
    | some b => if b.1.written ≤ c.1.written then some c else some b) none

/-! ### A grain's way (R189, R201 to R205) -/

def Dev.volSlot (d : Dev) (v : Nat) : Nat := (d.volRed v).kslot

/-- R219: WAITING of a slice's compressors. -/
def Dev.refreshComp (d : Dev) (s : Nat) : Dev :=
  d.setFld (Reg.SLI_SNC_SLICE_STS_WAITING s) (min 65535
    (d.tph.grains.filter (fun e => decide (e.1 / Config.dirEntries = s) && decide (e.2.step = .compWait))).length)

/-- R211, R216: step 4 of a grain whose volume does not compress: the grain is marked RAW. -/
def Dev.startRaw (d : Dev) (k : Nat) : Dev :=
  let e := d.dirKeyed k
  let d1 := if (d.red k).step = .compWait ∧ (d.volRed e.vol).comp = false then
      d.updRed k (fun x => { x with step := .packWait, raw := true, stored := d.entryBytes e })
    else d
  d1.refreshComp (k / Config.dirEntries)

/-- R189: a unique grain goes on to step 4. -/
def Dev.redUnique (d : Dev) (k : Nat) : Dev :=
  (d.updRed k (fun x => { x with step := .compWait, loads := [] })).startRaw k

/-- R204, R322: an accepted match is kept: the REMAP, the increment and the RETURN are journaled, and the grain's extents point
at the matched record. -/
def Dev.keepMatch (d : Dev) (k grid : Nat) : Dev :=
  let e := d.dirKeyed k
  let key := keyOf e.off e.size
  let (n, d1) := d.remapAll e.vol e.admitBeat key e.grid grid
  let d2 := (d1.ref grid ((n : Int) - 1)).ref e.grid (-(n : Int))
  let (r1, d3) := d2.journalRec 0 0 0 (.remap e.vol key grid e.grid n)
  let (r2, d4) := d3.journalRec 0 0 0 (.refcount grid 1)
  let (r3, d5) := d4.journalRec 0 0 0 (.ret e.grid)
  let (w, d6) := (d5.returnId e.grid).mirrorRecs e.mirrorQp [r1, r2, r3]
  let d7 := d6.updDirKey k (fun x => { x with dupOf := some grid })
  (d7.updRed k (fun x => { x with step := .journaled, loads := [], wait := w })).bump Reg.MDE_TPH_MATCHES_COUNT 1

/-- R202, R203, R205: the cache's candidate for a grain is accepted on its record, or the grain is unique. -/
def Dev.tryMatch (d : Dev) (k : Nat) : Dev :=
  let e := d.dirKeyed k
  let fp := (d.red k).fp
  match d.candidate fp e.size (d.volSlot e.vol) (d.kslot (d.volSlot e.vol)).gen with
  | none => d.redUnique k
  | some (m, c) =>
    let r := d.grec c.grid
    if d.holds c.grid ∧ r.fp = fp ∧ r.gsize = e.size ∧ 1 ≤ r.refs ∧ r.refs < permanentCount ∧ r.state = .placed ∧
        r.damaged = false then
      let d1 := { d with tph := { d.tph with mans := d.tph.mans.map (fun (x : Manifest) => if x.seg = m.seg then { x with last := d.beat } else x) } }
      let d2 := d1.refLocal c.grid 1
      if (d2.volRed e.vol).verify then d2.updRed k (fun x => { x with step := .verifying c.grid, loads := [] })
      else d2.keepMatch k c.grid
    else d.redUnique k

/-! ### The engines take work (R191, R193, R208, R210) -/

/-- The oldest grain of a slice at a step. -/
def Dev.oldestAt (d : Dev) (s : Nat) (p : RedStep → Bool) : Option Nat :=
  ((d.cal.dirs.filter (fun e => decide (e.1 / Config.dirEntries = s) && p (d.red e.1).step)).foldl
    (fun (best : Option (Nat × DirEntry)) e => match best with
      | none => some e
      | some b => if e.2.before b.2 then some e else some b) none).map (·.1)

/-- The grain that an engine works on. -/
def Dev.grainIn (d : Dev) (s : Nat) (p : RedStep → Bool) : Option Nat :=
  (d.cal.dirs.find? (fun e => decide (e.1 / Config.dirEntries = s) && p (d.red e.1).step)).map (·.1)

/-- Every grain that an engine works on. -/
def Dev.grainsWith (d : Dev) (s : Nat) (p : RedStep → Bool) : List Nat :=
  (d.cal.dirs.filter (fun e => decide (e.1 / Config.dirEntries = s) && p (d.red e.1).step)).map (·.1)

def isHashing (u : Nat) (x : RedStep) : Bool := decide (x = .hashing u)
def isCompressing (c : Nat) (x : RedStep) : Bool := match x with
  | .compressing c' _ => decide (c' = c)
  | _ => false

/-- R191, R193, R208, R213: an engine is in service, and has neither a job nor work whose end is still due. -/
def Dev.engineFree (d : Dev) (s : Nat) (e : Engine) : Bool :=
  !((d.slice s).jobs.any (fun j => decide (j.eng = e))) && !d.faulty s e && (match e with
    | .fpu u => (d.grainIn s (isHashing u)).isNone
    | .snc c => (d.grainIn s (isCompressing c)).isNone
    | .snd u => !d.rd.reads.any (fun x => decide (x.2.slice = s) && decide (x.2.step = .inflating) && decide (x.2.dec = u + 1))
    | _ => true)

/-- Post a job of `n` bytes to an engine. -/
def Dev.addJob (d : Dev) (s : Nat) (e : Engine) (cls n level : Nat) : Dev :=
  d.updSlice s (fun x => { x with jobs := x.jobs ++ [⟨e, cls, n, level, false, 0, .none⟩] })

/-- R191: a free fingerprint unit takes the oldest grain waiting; a grain of G bytes is G / 64 + 1 blocks. -/
def Dev.takeFpu (d : Dev) (s u : Nat) : Dev :=
  if d.engineFree s (.fpu u) then
    match d.oldestAt s (fun x => decide (x = .fpWait)) with
    | none => d
    | some k =>
      ((d.updRed k (fun x => { x with step := .hashing u })).setFld (Reg.SLI_FPU_WAIT_GRAINS s)
        (d.fld (Reg.SLI_FPU_WAIT_GRAINS s) - 1)).addJob s (.fpu u) 0 ((d.dirKeyed k).bytes + 64) 0
  else d

/-- R210: the pressure rule holds. -/
def Dev.pressured (d : Dev) (s : Nat) : Bool :=
  d.flag (Reg.SLI_SNC_CTL_PRESSURE_DOWN s) && decide (d.fld Reg.GLB_CAL_DST_MARK_PAGES < d.ownDirty)

/-- R208, R210: a free compressor takes the oldest grain waiting, at its volume's level. -/
def Dev.takeSnc (d : Dev) (s c : Nat) : Dev :=
  if d.engineFree s (.snc c) then
    match d.oldestAt s (fun x => decide (x = .compWait)) with
    | none => d
    | some k =>
      let e := d.dirKeyed k
      let l := (d.volRed e.vol).level
      let level := if d.pressured s then min l 2 else l
      let d1 := (d.count (1 + s) 0x005 e.bytes).updRed k (fun x => { x with step := .compressing c level })
      (((d1.setFld (Reg.SLI_SNC_STS_LEVEL s c) level).bump (Reg.SLI_SNC_IN_BYTES s c) e.bytes).refreshComp s).addJob s (.snc c) 0 e.bytes level
  else d

/-- What a slice's fingerprint units and compressors take at a beat edge. -/
def Dev.takeReduction (d : Dev) (s : Nat) : Dev :=
  let d1 := d.setFlag (Reg.SLI_SNC_SLICE_STS_PRESSURED s) (d.pressured s)
  let d2 := d1.each (List.range 16) (fun u d => d.takeFpu s u)
  let raw := (d2.tph.grains.filter (fun e => decide (e.1 / Config.dirEntries = s) && decide (e.2.step = .compWait))).map (·.1)
  (d2.each raw (fun k d => d.startRaw k)).each (List.range 4) (fun c d => d.takeSnc s c)

/-! ### Meanings -/

/-- FINGERPRINT_DONE, R190 to R192, R189: the grain's fingerprint is known; the Tephra check is next, unless the volume does
not deduplicate or the table is absent. -/
def Dev.fingerprintDone (d : Dev) (s u : Nat) : Dev :=
  match d.grainIn s (isHashing u) with
  | none => d
  | some k =>
    let e := d.dirKeyed k
    let d1 := ((d.updRed k (fun x => { x with fp := fingerprint (d.entryBytes e), step := .check })).bump
      (Reg.SLI_FPU_GRAINS_COUNT s u) 1).count (1 + s) 0x004 1
    let d2 := d1.updSlice s (fun x => { x with jobs := x.jobs.filter (fun j => decide (j.eng ≠ .fpu u)) })
    if (d2.volRed e.vol).dedup && d2.tphActive then d2 else d2.redUnique k

def execFingerprintDone (sl u : Nat) (s : State) : Ans := lift (fun d => d.fingerprintDone sl u) s

/-- FPU_FAULT, R193: the unit's partial result is discarded, it is out of service, and its grain starts again elsewhere. -/
def Dev.fpuFault (d : Dev) (s u : Nat) : Dev :=
  let d1 := (d.setFld (Reg.SLI_FPU_STS_FAULT s u) 1).updSlice s (fun x => { x with jobs := x.jobs.filter (fun j => decide (j.eng ≠ .fpu u)) })
  let left := ((List.range 16).filter (fun v => !d1.flag (Reg.SLI_FPU_STS_FAULT s v))).length
  let d2 := d1.each (d1.grainsWith s (isHashing u)) (fun k d =>
    (d.updRed k (fun x => { x with step := .fpWait })).bump (Reg.SLI_FPU_WAIT_GRAINS s) 1)
  d2.raise (sliceSrc s 8) u left 0

def execFpuFault (sl u : Nat) (s : State) : Ans := lift (fun d => d.fpuFault sl u) s

/-- R201: a grain waits for manifest loads. -/
def Dev.waitLoads (d : Dev) (k : Nat) (segs : List Nat) : Dev :=
  (d.updRed k (fun x => { x with step := .loadWait, loads := segs })).arm (tmLoadWait (k / Config.dirEntries) (k % Config.dirEntries))

/-- TEPHRA_CHECK, R196, R197, R201, R216: the cache first; then, for a hook, the table, whose segments are loaded. A check waits while a load started for
another grain of the volume is in progress, while the grain's own map insert is pending, and for its bucket's turn. -/
def Dev.tephraCheck (d : Dev) (s idx : Nat) : Dev :=
  let k := dirKey s idx
  let e := d.dir s idx
  let x := d.red k
  if x.step ≠ .check ∨ d.insertPending e.grid then d
  else
    let busy := (d.tph.loads.filter (fun l => decide (l.vol = e.vol) && decide (l.starter ≠ k))).map (·.seg)
    let hook := isHook x.fp
    let b := bucketOf d.tphBits x.fp
    if !(d.tphActive && (x.checking || (d.volRed e.vol).dedup)) then d.redUnique k
    else if !busy.isEmpty then (d.updRed k (fun x => { x with checking := true })).waitLoads k busy
    else if hook ∧ d.bucketBusy b then d.updRed k (fun x => { x with checking := true })
    else
      let d1 := ((d.updRed k (fun x => { x with checking := true, looked := true })).bump Reg.MDE_TPH_LOOKUPS_COUNT 1).cond hook (fun d =>
        d.bump Reg.MDE_TPH_HOOKS_COUNT 1)
      if (d1.candidate x.fp e.size (d1.volSlot e.vol) (d1.kslot (d1.volSlot e.vol)).gen).isSome then d1.tryMatch k
      else if !hook then d1.redUnique k
      else
        let segs := d1.tphLookup x.fp e.size
        let d2 := ((d1.touch b).cacheAccess (d1.bucketLine b) none none false).cond (!segs.isEmpty) (fun d => d.bump Reg.MDE_TPH_HOOK_HITS_COUNT 1)
        let need := segs.filter (fun g => !(d2.tph.mans.any (fun m => decide (m.seg = g))))
        if need.isEmpty then d2.redUnique k
        else
          let new := need.filter (fun g => !(d2.tph.loads.any (fun l => decide (l.seg = g))))
          let d3 := { d2 with tph := { d2.tph with loads := d2.tph.loads ++ new.map (fun g => ManLoad.mk g e.vol k) } }
          (d3.setFld Reg.MDE_TPH_STS_LOADING 1).waitLoads k need

def execTephraCheck (sl idx : Nat) (s : State) : Ans := lift (fun d => d.tephraCheck sl idx) s

/-- MANIFEST_LOAD_DONE, R199, R201: a manifest that passed its checks is cached. A hook that was looked up is checked against the cache again as each of
its loads ends; a grain that only waited for another's load is due for its check. -/
def Dev.manifestLoadDone (d : Dev) (seg : Nat) (parts : Option (List (List Byte))) : Dev :=
  match d.tph.loads.find? (fun l => decide (l.seg = seg)) with
  | none => d
  | some _ =>
    let rest := d.tph.loads.filter (fun l => decide (l.seg ≠ seg))
    let d1 := { d with tph := { d.tph with loads := rest } }.setFlag Reg.MDE_TPH_STS_LOADING (!rest.isEmpty)
    let d2 := match parts with
      | none => d1
      | some ps => (d1.cacheManifest ⟨seg, (d1.segEnt seg).written, d1.beat, ps.flatMap manOf⟩).bump Reg.MDE_TPH_LOADS_COUNT 1
    let waiting := (d2.tph.grains.filter (fun g => decide (g.2.step = .loadWait) && g.2.loads.contains seg)).map (·.1)
    d2.each waiting (fun k d =>
      let x := d.red k
      let e := d.dirKeyed k
      let left := x.loads.filter (fun g => decide (g ≠ seg))
      let d := d.updRed k (fun x => { x with loads := left })
      let found := x.looked && (d.candidate x.fp e.size (d.volSlot e.vol) (d.kslot (d.volSlot e.vol)).gen).isSome
      if !left.isEmpty && !found then d
      else
        let d := d.disarm (tmLoadWait (k / Config.dirEntries) (k % Config.dirEntries))
        if x.looked then d.tryMatch k else d.updRed k (fun x => { x with step := .check }))

def execManifestLoadDone (seg : Nat) (parts : Option (List (List Byte))) (s : State) : Ans :=
  lift (fun d => d.manifestLoadDone seg parts) s

/-- LOAD_WAIT_TIMEOUT, R201: the grain is treated as unique. -/
def Dev.loadWaitTimeout (d : Dev) (s idx : Nat) : Dev :=
  let k := dirKey s idx
  let x := d.red k
  if x.step = .loadWait ∧ d.expired (tmLoadWait s idx) (d.fld Reg.MDE_TPH_CFG_LOAD_WAIT) then
    let d1 := (d.disarm (tmLoadWait s idx)).bump Reg.MDE_TPH_LOAD_TIMEOUT_COUNT 1
    (d1.raiseOnce 1024 1024 (x.loads.headD 0) (d.dir s idx).vol 0).redUnique k
  else d

def execLoadWaitTimeout (sl idx : Nat) (s : State) : Ans := lift (fun d => d.loadWaitTimeout sl idx) s

/-- VERIFY_COMPARE_DONE, R205: the matched grain, from the newest Caldera entry that holds it or from flash, is compared with the
grain's bytes. -/
def Dev.verifyCompareDone (d : Dev) (s idx : Nat) (flash : Option (List Byte)) : Dev :=
  let k := dirKey s idx
  let e := d.dir s idx
  match (d.red k).step with
  | .verifying grid =>
    let old := match newest (d.cal.dirs.filter (fun x => x.2.seen && decide (x.2.grid = grid))) with
      | some (_, x) => some (d.entryBytes x)
      | none => flash
    if old = some (d.entryBytes e) then d.keepMatch k grid
    else
      let d1 := (d.refLocal grid (-1)).bump Reg.MDE_TPH_VERIFY_FAIL_COUNT 1
      (d1.raise (sliceSrc s (if old = none then 13 else 12)) e.vol grid (grid / 2 ^ 32)).redUnique k
  | _ => d

def execVerifyCompareDone (sl idx : Nat) (flash : Option (List Byte)) (s : State) : Ans :=
  lift (fun d => d.verifyCompareDone sl idx flash) s

/-! ### Batches (R206, R207, R459) -/

/-- R29, R206: the beat's offset in its epoch. -/
def Dev.offset (d : Dev) : Nat := d.beat % Config.epochBeats

/-- Cut a list into parts of at most 253 entries (R459). -/
def batchParts : Nat → List TphEnt → List (List TphEnt)
  | 0, _ => []
  | fuel + 1, l => if l.isEmpty then [] else l.take 253 :: batchParts fuel (l.drop 253)

/-- TEPHRA_BATCH_SEND, R206, R207: once an epoch, from offset 2^20, the entries inserted since the last cut go out in parts.
While the link is down they are dropped. -/
def Dev.tephraBatchSend (d : Dev) : Dev :=
  if d.tph.sentEpoch = d.epoch + 1 ∨ d.offset < 2 ^ 20 then d
  else
    let parts := batchParts (d.tph.outQ.length + 1) d.tph.outQ
    let d1 := { d with tph := { d.tph with outQ := [], overflow := 0, sentEpoch := d.epoch + 1 } }
    if parts.isEmpty ∨ d.linkSends = false ∨ d.flag Reg.MDE_TPH_CFG_BATCH_EN = false then d1
    else
      let seq := d1.tph.seqOut
      let d2 := d1.each parts.zipIdx (fun (p : List TphEnt × Nat) d =>
        d.emit (.link (.tephraBatch seq p.2 (decide (p.2 + 1 = parts.length)) (p.1.map TphEnt.bytes))))
      ({ d2 with tph := { d2.tph with seqOut := seq + 1 } }).bump Reg.MDE_TPH_BATCH_SENT_COUNT 1

def execTephraBatchSend (s : State) : Ans := lift Dev.tephraBatchSend s

/-- R207: batches lost. -/
def Dev.batchLost (d : Dev) (n : Nat) (expected received : Word) : Dev :=
  (d.bump Reg.MDE_TPH_BATCH_LOST_COUNT n).raise 1025 expected.toNat received.toNat 0

/-- R207: apply a received entry. The bucket bits of its fingerprint do not travel with it, so its bucket is a free value. -/
def Dev.tphReceived (d : Dev) (bs : List Byte) : Dev :=
  let (n, d1) := d.draw
  if d1.tphActive then { d1 with tph := { d1.tph with insQ := d1.tph.insQ ++ [(false, Config.freeNat n % 2 ^ d1.tphBits, tphOf bs)] } } else d1

/-- TEPHRA_BATCH, R207, R459: a part arrives. A batch is applied once every part up to the last is held; a gap in the sequence
numbers, or a new batch before the old one is whole, loses batches. -/
def Dev.tephraBatch (d : Dev) (seq : Word) (part : Nat) (last : Bool) (ents : List (List Byte)) : Dev :=
  if d.flag Reg.MDE_TPH_CFG_BATCH_ACCEPT = false then d
  else
    let d1 := match d.tph.batch with
      | some b => if b.seq = seq then d
        else { d.batchLost 1 b.seq seq with tph := { (d.batchLost 1 b.seq seq).tph with batch := none, expect := some (b.seq + 1) } }
      | none => d
    let d2 := match d1.tph.batch, d1.tph.expect with
      | none, some x => d1.cond (decide (x ≠ seq)) (fun d => d.batchLost (seq - x).toNat x seq)
      | _, _ => d1
    let b := d2.tph.batch.getD ⟨seq, [], none, d2.epoch⟩
    let b1 : BatchIn := { b with
        parts := tins (tdel b.parts part) part ents, last := if last then some part else b.last }
    let whole := match b1.last with
      | some n => decide (b1.parts.length = n + 1)
      | none => false
    if whole then
      let d3 := { d2 with tph := { d2.tph with batch := none, expect := some (seq + 1) } }
      ((d3.each (b1.parts.flatMap (·.2)) (fun bs d => d.tphReceived bs)).bump Reg.MDE_TPH_BATCH_RECV_COUNT 1).setFld
        Reg.MDE_TPH_BATCH_SEQ_SEQ seq.toNat
    else { d2 with tph := { d2.tph with batch := some b1 } }

def execTephraBatch (seq : Word) (part : Nat) (last : Bool) (ents : List (List Byte)) (s : State) : Ans :=
  lift (fun d => d.tephraBatch seq part last ents) s

/-- TEPHRA_BATCH_DEADLINE, R207: a batch not whole by offset 2^20 of the epoch after the one it began in is lost. -/
def Dev.tephraBatchDeadline (d : Dev) : Dev :=
  match d.tph.batch with
  | none => d
  | some b =>
    if (b.epoch + 1) * Config.epochBeats + 2 ^ 20 ≤ d.beat then
      { d.batchLost 1 b.seq b.seq with
          tph := { (d.batchLost 1 b.seq b.seq).tph with batch := none, expect := some (b.seq + 1) } }
    else d

def execTephraBatchDeadline (s : State) : Ans := lift Dev.tephraBatchDeadline s

/-! ### Compressors (R208 to R212) -/

/-- COMPRESS_DONE, R208, R211, R212, R234: a compressor ends with a frame. One that its shadow decode turns back into the grain is
released if it is short enough; a longer one stores the grain raw; any other is a fault, and the grain is stored raw. A compressor that still has quanta
to run (R34) has no end yet. -/
def Dev.compressDone (d : Dev) (s c : Nat) (frame : List Byte) : Dev :=
  match (if (d.slice s).jobs.any (fun j => decide (j.eng = .snc c)) then none else d.grainIn s (isCompressing c)) with
  | none => d
  | some k =>
    let e := d.dirKeyed k
    let g := d.entryBytes e
    let level := match (d.red k).step with
      | .compressing _ l => l
      | _ => 0
    let raw (d : Dev) : Dev := d.updRed k (fun x => { x with step := .packWait, raw := true, stored := g })
    if e.bytes - 64 < frame.length then raw ((d.bump (Reg.SLI_SNC_RAW_COUNT s c) 1).count (1 + s) 0x006 1)
    else if sinterDecode frame e.bytes = .ok g ∧ frameAllowed frame level e.bytes then
      (d.updRed k (fun x => { x with step := .packWait, raw := false, stored := frame })).bump (Reg.SLI_SNC_OUT_BYTES s c) frame.length
    else raw ((d.setFld (Reg.SLI_SNC_STS_FAULT s c) 1).raise (sliceSrc s 9) c e.vol 0)

end Sys2Proof.Machine
end

