-- ==== Sys2Proof/Machine/Cipher.lean ====
section
/-! DEFINITION. The key store's slots, their counters and high-water marks, and the jobs of the GCM engines (R236 to R261). -/
namespace Sys2Proof.Machine

/-! ### Slots (R240, R241) -/

def KState.code : KState → Nat
  | .empty => 0 | .unsealed => 1 | .ready => 2 | .exhausted => 3

/-- R241: the limit of a counter; R241: where the warning comes; R249, R250: 2^18 and 2^20. -/
def ctrLimit : Nat := 2 ^ 48
def ctrWarn : Nat := 2 ^ 48 - 2 ^ 20
def hwmStep : Nat := 2 ^ 18
def hwmRoom : Nat := 2 ^ 20

def Dev.updKslot (d : Dev) (s : Nat) (f : KeySlot → KeySlot) : Dev :=
  { d with key := { d.key with slots := tupd {} d.key.slots s f } }

/-- R262: READY_SLOTS. -/
def Dev.readySlots (d : Dev) : Nat := (d.key.slots.filter (fun e => decide (e.2.state = .ready))).length
def Dev.refreshReady (d : Dev) : Dev := d.setFld Reg.KEY_STS_READY_SLOTS d.readySlots

/-- R256: the generation and key under which a slot decrypts. -/
def Dev.slotKey (d : Dev) (s : Nat) : Option (Nat × List Byte) :=
  if (d.kslot s).state = .empty then none else some ((d.kslot s).gen, (d.kslot s).key)

/-- Add an act for the next edge, unless it waits there already. -/
def Dev.atEdge (d : Dev) (a : EdgeAct) : Dev := if d.edge.contains a then d else { d with edge := d.edge ++ [a] }

/-- R249, R327: post a high-water record: journaled, entered in the mark table, and mirrored; in vault-through mode the vault log
holds it. -/
def Dev.postHwm (d : Dev) (slot value : Nat) : Dev :=
  let gen := (d.kslot slot).gen
  let (r, d1) := d.journalRec 0 0 0 (.nonceHwm slot d.slotId gen value)
  let (w, d2) := (d1.takeMark slot d.slotId gen value).mirrorRecs hwmContext [r]
  let p : HwmPost := match w with
    | some (m, n) => ⟨slot, gen, value, m, n, d2.vaultThrough⟩
    | none => ⟨slot, gen, value, hwmContext, 0, true⟩
  { d2 with key := { d2.key with posts := d2.key.posts ++ [p] } }

/-- R241: a slot takes its counter from a mark: READY with a high-water record, or EXHAUSTED. -/
def Dev.slotCounter (d : Dev) (slot hwm : Nat) : Dev :=
  if hwm + hwmRoom < ctrLimit then
    let d1 := (d.updKslot slot (fun k => { k with
      state := .ready, counter := hwm + hwmRoom, durable := 0, durableValid := false, hwmWait := false })).postHwm slot (hwm + hwmRoom)
    d1.cond (decide (ctrWarn ≤ hwm + hwmRoom)) (fun d => d.atEdge (.keyWarn slot (d.kslot slot).gen))
  else d.updKslot slot (fun k => { k with state := .exhausted, counter := ctrLimit, durable := 0, durableValid := false })

/-- R241, R247: what an edge does with a slot whose counter reached the warning, the limit, or a multiple of 2^18. -/
def Dev.keyWarn (d : Dev) (slot gen : Nat) : Dev :=
  let k := d.kslot slot
  if k.state = .ready ∧ k.gen = gen ∧ k.warned = false then
    (d.updKslot slot (fun k => { k with warned := true })).raise 8 slot gen (k.counter % 2 ^ 48)
  else d
def Dev.keyExhaust (d : Dev) (slot gen : Nat) : Dev :=
  let k := d.kslot slot
  if k.state = .ready ∧ k.gen = gen then
    ((d.updKslot slot (fun k => { k with state := .exhausted })).refreshReady).raise 9 slot gen 0
  else d
def Dev.keyPostAt (d : Dev) (slot gen value : Nat) : Dev :=
  let k := d.kslot slot
  if k.state = .ready ∧ k.gen = gen then d.postHwm slot value else d

/-- HWM_RECORD_COMMIT, R249, R250: the record's value becomes DURABLE, and held jobs may draw. -/
def Dev.hwmCommit (d : Dev) (slot gen value : Nat) : Dev :=
  let d1 := { d with
    key := { d.key with
    posts := d.key.posts.filter (fun p => !(decide (p.slot = slot) && decide (p.gen = gen) && decide (p.value = value))) } }
  let k := d1.kslot slot
  if d.key.posts.any (fun p => decide (p.slot = slot) && decide (p.gen = gen) && decide (p.value = value)) ∧
      k.state ≠ .empty ∧ k.gen = gen ∧ (k.durableValid = false ∨ k.durable ≤ value) then
    d1.updKslot slot (fun k => { k with durable := value, durableValid := true, hwmWait := false })
  else d1

def execHwmRecordCommit (slot gen value : Nat) (s : State) : Ans := lift (fun d => d.hwmCommit slot gen value) s

/-! ### Jobs (R255, R260, R261) -/

/-- R261: the engine that serves a side of a slice: engine 0 writes and engine 1 reads, unless its FAULT is set. -/
def Dev.gcmFor (d : Dev) (s side : Nat) : Nat :=
  if d.flag (Reg.SLI_GCM_STS_FAULT s side) ∧ d.flag (Reg.SLI_GCM_STS_FAULT s (1 - side)) = false then 1 - side else side

/-- R260, R261: the place of a job in an engine's order: while one engine serves both sides, its read-side jobs go first. -/
def GcmJob.rank (j : GcmJob) : Nat := if j.side = 1 then j.cls else 8 + j.cls

def Dev.postGcm (d : Dev) (s side cls : Nat) (w : GcmWork) (slot len : Nat) : Dev :=
  let j : GcmJob := { slice := s, eng := d.gcmFor s side, cls := cls, side := side, work := w, slot := slot, len := len }
  { d with key := { d.key with jobs := d.key.jobs ++ [j] } }

/-- R263: JOBS of a slot. -/
def Dev.slotJobs (d : Dev) (slot : Nat) : Nat := (d.key.jobs.filter (fun j => j.latched && decide (j.slot = slot))).length

/-- An engine's job that is running. -/
def Dev.gcmRunning (d : Dev) (s e : Nat) : Option (Nat × GcmJob) :=
  (d.key.jobs.zipIdx.find? (fun (x : GcmJob × Nat) => x.1.latched && decide (x.1.slice = s) && decide (x.1.eng = e))).map
    (fun x => (x.2, x.1))

/-- The jobs waiting at an engine, in the order of R260. -/
def Dev.gcmWaiting (d : Dev) (s e : Nat) : List (Nat × GcmJob) :=
  let l := (d.key.jobs.zipIdx.filter (fun (x : GcmJob × Nat) =>
    !x.1.latched && decide (x.1.slice = s) && decide (x.1.eng = e))).map (fun x => (x.2, x.1))
  (List.range 16).flatMap (fun c => l.filter (fun x => decide (x.2.rank = c)))

def Dev.dropJob (d : Dev) (i : Nat) : Dev := { d with key := { d.key with jobs := d.key.jobs.eraseIdx i } }
def Dev.setJob (d : Dev) (i : Nat) (j : GcmJob) : Dev := { d with key := { d.key with jobs := d.key.jobs.set i j } }

/-- R250: a slot may draw its next value. -/
def KeySlot.mayDraw (k : KeySlot) : Bool := k.durableValid && decide (k.counter < k.durable + hwmRoom)

/-- R247: a job is held; the event comes at most once per epoch and slot. -/
def Dev.holdJob (d : Dev) (slot : Nat) : Dev :=
  let k := d.kslot slot
  let d1 := d.cond (decide (k.state = .ready)) (fun d => d.updKslot slot (fun k => { k with hwmWait := true }))
  d1.raiseOnce (0x10000 + slot) 10 slot k.state.code (if k.state = .ready then 1 else 0)

/-- R247, R249: a slot's counter advances; the thresholds it reaches act at the next edge. -/
def Dev.drawValue (d : Dev) (slot : Nat) : Dev :=
  let k := d.kslot slot
  let n := k.counter + 1
  let d1 := d.updKslot slot (fun k => { k with counter := n })
  let d2 := d1.cond (decide (n = ctrWarn)) (fun d => d.atEdge (.keyWarn slot k.gen))
  let d3 := d2.cond (decide (n = ctrLimit)) (fun d => d.atEdge (.keyExhaust slot k.gen))
  d3.cond (decide (n % hwmStep = 0) && decide (n < ctrLimit)) (fun d => d.atEdge (.keyPost slot k.gen n))

/-- R247: a job draws the counter's value and latches its key. -/
def Dev.drawFor (d : Dev) (i : Nat) (j : GcmJob) : Dev :=
  let k := d.kslot j.slot
  (d.drawValue j.slot).setJob i { j with gen := k.gen, key := k.key, ctr := k.counter, latched := true }

/-- R257: a decryption job latches its slot's key at its first quantum. -/
def Dev.latchOpen (d : Dev) (s e : Nat) : Dev :=
  if (d.gcmRunning s e).isSome ∨ d.flag (Reg.SLI_GCM_STS_FAULT s e) then d
  else match (d.gcmWaiting s e).find? (fun x => match x.2.work with
      | .openRec r => d.serves s ((tget {} d.rd.reads r).tag / Config.tagsPerSlice)
      | .sealRec _ _ => true) with
    | some (i, j) =>
      (match j.work with
       | .openRec _ =>
         (d.setJob i { j with gen := (d.kslot j.slot).gen, key := (d.kslot j.slot).key, latched := true }).addJob s (.gcm e) j.cls (max 1 j.len) 0
       | .sealRec _ _ => d)
    | none => d

end Sys2Proof.Machine
end

