-- ==== Sys2Proof/Machine/Pages.lean ====
section
/-! DEFINITION. The bytes of metadata pages, the locator, and full checkpoints (R306 to R309, R313, R330 to R332, R340). -/
namespace Sys2Proof.Machine

/-- R467: the head bit of the domain whose checkpoint runs. -/
def Dev.cpHead (d : Dev) : Nat := if d.mde.cpOther then 1 - d.slotId else d.slotId

/-- R330: CP_NUM of the last complete full checkpoint of that domain. -/
def Dev.cpNum (d : Dev) : Nat := if d.mde.cpOther then d.mde.otherNum else d.fld Reg.MDE_CP_NUM_NUM

/-! ### Page bytes -/

/-- R308: a page: its header of 32 bytes, its entries, zeros. -/
def Dev.pageOf (d : Dev) (kind level entries tree id low : Nat) (body : List Byte) : List Byte :=
  let v := tget 0 d.mde.applied id
  padTo 4096 (leBytes 1 kind ++ leBytes 1 level ++ leBytes 2 entries ++ leBytes 4 tree ++ leBytes 6 id ++ leBytes 1 ((v - 1) % 2) ++
    leBytes 1 0 ++ leBytes 8 ((v - 1) / 2) ++ leBytes 5 low ++ leBytes 3 0 ++ body)

/-- R309: a leaf entry. -/
def LeafEnt.bytes (e : LeafEnt) : List Byte := leBytes 5 e.key ++ leBytes 1 e.shadow ++ leBytes 6 e.grid ++ leBytes 4 0

/-- R309: an interior entry. -/
def kidBytes (head : Nat) (k : Nat × Nat) : List Byte := leBytes 5 k.1 ++ leBytes 3 0 ++ leBytes 6 (mapPageId head k.2) ++ leBytes 2 0

def RecState.code : RecState → Nat
  | .free => 0 | .unplaced => 1 | .placed => 2 | .dead => 3

/-- R313: the 32 bytes of a grain record. -/
def GrainRec.bytes (g : GrainRec) : List Byte :=
  placeBytes g.seg g.off ++ leBytes 2 g.stored ++ leBytes 4 g.refs ++
    leBytes 1 (g.gsize + (if g.raw then 4 else 0) + 8 * g.state.code) ++ leBytes 1 0 ++ leBytes 2 g.kslot ++ padTo 16 g.fp

def TreeState.code : TreeState → Nat
  | .free => 0 | .pending => 1 | .ready => 2 | .deleting => 3 | .damaged => 4

/-- R340: the 32 bytes of a tree entry. -/
def Dev.treeBytes (d : Dev) (t : Nat) : List Byte :=
  let x := d.tree t
  leBytes 4 (x.state.code + 256 * x.depth) ++ leBytes 8 (if x.root = 0 then 0 else mapPageId d.slotId x.root) ++ leBytes 4 x.source ++
    leBytes 8 x.beat ++ leBytes 4 x.group ++ leBytes 4 (d.page x.root).share

/-- R307: a locator entry of a page. -/
def Dev.locEntry (d : Dev) (id : Nat) : List Byte :=
  match d.mde.at_.find? (fun e => decide (e.1 = id)) with
  | none => List.replicate 16 0
  | some (_, x) =>
    placeBytes (x.place / 2 ^ 16) (x.place % 2 ^ 16) ++ leBytes 2 1 ++
      leBytes 4 (if pageClass id = 0 then (d.page (mapPageKey d.slotId id)).share else 0) ++ leBytes 4 x.epoch

/-- R306, R307: a locator page: the class it serves, its level, and its index there. spec/ gives locator pages no NUMBER; class 8
stands for the one page on top, whose entries are the roots of the classes. -/
def Dev.locId (d : Dev) (cls level i : Nat) : Nat := pageIdOf d.cpHead 5 (cls * 2 ^ 40 + level * 2 ^ 36 + i)

/-- The locator levels of a class whose highest page number is `n`. -/
def locLevels : Nat → Nat → Nat
  | 0, _ => 0
  | fuel + 1, n => if n / 254 = 0 then 1 else 1 + locLevels fuel (n / 254)

/-- The highest NUMBER written or to be written of a class. -/
def highest (cls : Nat) (ids : List Nat) : Nat := (ids.filter (fun i => decide (pageClass i = cls))).foldl (fun n i => max n (pageNum i)) 0

/-- R307: the classes found through the locator. -/
def locClasses : List Nat := [0, 1, 2, 3, 7]

/-- The bytes of locator page number `n`. -/
def Dev.locBytes (d : Dev) (id n : Nat) : List Byte :=
  let cls := n / 2 ^ 40
  let level := n / 2 ^ 36 % 16
  let i := n % 2 ^ 36
  let kids := if cls = 8 then locClasses.map (fun c => d.locId c (locLevels 8 (highest c (d.mde.at_.map (·.1))) - 1) 0)
    else (List.range 254).map (fun e => if level = 0 then pageIdOf d.cpHead cls (i * 254 + e) else d.locId cls (level - 1) (i * 254 + e))
  d.pageOf 4 level kids.length 0 id 0 (kids.flatMap d.locEntry)

/-- R332: the checkpoint page. -/
def Dev.cpBytes (d : Dev) (id : Nat) : List Byte :=
  let place (p : Nat) : List Byte := placeBytes (p / 2 ^ 16) (p % 2 ^ 16)
  let top := d.locId 8 0 0
  d.pageOf 7 0 0 0 id 0 (leBytes 8 (d.cpNum + 1) ++ leBytes 8 d.mde.cpCut ++
    leBytes 1 (1 + (locClasses.map (fun c => locLevels 8 (highest c (d.mde.at_.map (·.1))))).foldl max 0) ++ leBytes 3 0 ++
    place ((tget {} d.mde.at_ top).place) ++ leBytes 2 0 ++ place (if d.mde.cpOther then d.mde.otherPrev else d.mde.prevCp) ++ leBytes 2 0 ++ leBytes 5 d.mde.grNext)

/-- The bytes of a page as it stands (classes 0 to 3 and 5 to 7). Entries whose form spec/ does not give are free values. -/
def Dev.pageImage (d : Dev) (id : Nat) : List Byte × Dev :=
  let n := pageNum id
  match pageClass id with
  | 0 =>
    let p := d.page (mapPageKey d.slotId id)
    (if p.level = 0 then d.pageOf 2 0 p.ents.length p.tree id p.low (p.ents.flatMap LeafEnt.bytes)
     else d.pageOf 1 p.level p.kids.length p.tree id p.low (p.kids.flatMap (kidBytes d.slotId)), d)
  | 1 =>
    let gs := (List.range 127).map (fun i => d.grec (id / 2 ^ 47 * 2 ^ 47 + n * 128 + i + 1))
    (d.pageOf 3 0 (gs.filter (fun g => decide (g.state ≠ .free))).length 0 id 0 (gs.flatMap GrainRec.bytes), d)
  | 2 =>
    let ts := (List.range 127).map (fun i => n * 127 + i)
    (d.pageOf 5 0 (ts.filter (fun t => decide ((d.tree t).state ≠ .free))).length 0 id 0 (ts.flatMap d.treeBytes), d)
  | 5 => (d.locBytes id n, d)
  | 6 => (d.cpBytes id, d)
  | c =>
    let (i, d1) := d.draw
    (d1.pageOf (if c = 3 then 6 else 8) 0 0 0 id 0 (padTo 4064 (Config.freeBytes i 4064)), d1)

/-! ### Full checkpoints (R330, R331) -/

/-- R330, steps 2 to 4: the pages of a full checkpoint, in the order in which they are written: those of classes 0 to 3 and 7, the
locator from level 0 upward, and the checkpoint page. -/
def Dev.cpPageIds (d : Dev) : List Nat :=
  let base := ((d.mde.pages.map (fun e => mapPageId d.slotId e.1)) ++ (d.mde.recs.map (fun e => grainPage e.1)) ++
    (d.mde.trees.map (fun e => d.treePage e.1)) ++ (d.mde.segs.map (fun e => segPage e.1)) ++
    (if d.mde.marks.isEmpty then [] else [pageIdOf d.cpHead 7 0])).eraseDups.filter (fun i => decide (i / 2 ^ 47 = d.cpHead))
  let all := (base ++ (d.mde.at_.map (·.1)).filter (fun i => decide (i / 2 ^ 47 = d.cpHead))).eraseDups
  let loc := (List.range 8).flatMap (fun l => locClasses.flatMap (fun c =>
    let ns := (all.filter (fun i => decide (pageClass i = c))).map pageNum
    if ns.isEmpty ∨ locLevels 8 (highest c all) ≤ l then [] else (ns.map (fun n => d.locId c l (n / 254 ^ (l + 1)))).eraseDups))
  base ++ loc ++ [d.locId 8 0 0, pageIdOf d.cpHead 6 0]

/-- R330: the checkpoint of one domain begins: the cut is taken, the changed pages are queued for the open metadata segment, and IDs that
died before it will return when it completes. -/
def Dev.checkpoint (d : Dev) (other : Bool) : Dev :=
  let next := d.fld Reg.MDE_JSEQ_NEXT_SEQ
  let cut := (d.mde.inserts.map (·.seq)).foldl min next
  let d1 := { d with mde := { d.mde with cpOther := other } }
  ({ d1 with
      mde := { d1.mde with
      cpRun := true, cpCut := cut, cpAnchors := 0, cpPlace := 0
      dying := d1.mde.dying.map (fun (e : Nat × Nat) => if e.1 / 2 ^ 47 = d1.cpHead then (e.1, 1) else e) }
      lay := { d1.lay with metaQ := d1.lay.metaQ ++ d1.cpPageIds.map (fun i => MetaPage.mk i [] false 0) } }.setFld
    Reg.MDE_STS_CP_RUN 1)

/-- FULL_CHECKPOINT_START, R330, R467: the checkpoints of the domains held, the own one first. What falls due while one runs starts at
its completion and is late. -/
def Dev.fullCheckpointStart (d : Dev) : Dev :=
  if d.mde.cpRun then
    { d with mde := { d.mde with cpDue := true } }.raise 962 (d.fld Reg.MDE_CP_NUM_NUM) 0 0
  else if d.mde.ownGone = false then
    { d with mde := { d.mde with cpNext := d.mde.peerHeld } }.checkpoint false
  else d.cond d.mde.peerHeld (fun d => d.checkpoint true)

def execFullCheckpointStart (s : State) : Ans := lift Dev.fullCheckpointStart s

/-- FULL_CHECKPOINT_DONE, R330, R331: two anchor writes have completed. -/
def Dev.fullCheckpointDone (d : Dev) : Dev :=
  if d.mde.cpRun ∧ 2 ≤ d.mde.cpAnchors then
    let back := (d.mde.dying.filter (fun e => decide (e.2 = 1))).map (·.1)
    let d0 := { d with
        mde := { d.mde with
        cpRun := false, cpAnchors := 0, dying := d.mde.dying.filter (fun e => decide (e.2 ≠ 1))
        freeIds := d.mde.freeIds ++ back, recs := back.foldl (fun l g => tput {} l g {}) d.mde.recs } }
    let num := d.cpNum + 1
    let d0 := if d.mde.cpOther then
        { d0 with mde := { d0.mde with otherNum := num, otherCut := d.mde.cpCut, otherPrev := d.mde.cpPlace } }
      else (({ d0 with mde := { d0.mde with prevCp := d.mde.cpPlace } }.setFld Reg.MDE_CP_NUM_NUM num).setFld
        Reg.MDE_CP_CUT_SEQ d.mde.cpCut).setFld Reg.MDE_CP_BEAT_BEAT d.beat
    let d1 := d0.setFld Reg.MDE_STS_CP_RUN 0
    -- R467: a record that any domain held still needs keeps its run
    let cut := min (if d1.mde.ownGone then d.mde.cpCut else d1.fld Reg.MDE_CP_CUT_SEQ) (if d1.mde.peerHeld then d1.mde.otherCut else d.mde.cpCut)
    let past := d1.mde.runPages.filter (fun e => decide (e.1 + recsPerPage ≤ cut))
    let d1 := ({ d1 with mde := { d1.mde with runPages := d1.mde.runPages.filter (fun e => decide (cut < e.1 + recsPerPage)) } }).each
      past (fun e d => d.dropUnits e.2 (unitsOf 4096))
    let d2 := (d1.raise 961 num d.mde.cpCut 0).markCpHeld
    if d2.mde.cpNext then ({ d2 with mde := { d2.mde with cpNext := false } }).checkpoint true
    else if d2.mde.cpDue then ({ d2 with mde := { d2.mde with cpDue := false } }).fullCheckpointStart else d2
  else d

def execFullCheckpointDone (s : State) : Ans := lift Dev.fullCheckpointDone s

/-- R332: the anchor of the running checkpoint. -/
def Dev.anchorBytes (d : Dev) : List Byte :=
  withCrc (leBytes 8 (d.cpNum + 1) ++ leBytes 8 d.beat ++
    placeBytes (d.mde.cpPlace / 2 ^ 16) (d.mde.cpPlace % 2 ^ 16) ++ leBytes 1 d.cpHead ++ leBytes 1 0 ++ leBytes 8 d.mde.cpCut ++
    List.replicate 28 0)

/-! ### Replay (R333) -/

def RecState.ofCode : Nat → RecState
  | 1 => .unplaced | 2 => .placed | 3 => .dead | _ => .free

def TreeState.ofCode : Nat → TreeState
  | 1 => .pending | 2 => .ready | 3 => .deleting | 4 => .damaged | _ => .free

/-- R308, R309, R313, R332, R340: a page as read from a drive, with its SHARE, becomes part of the metadata. -/
def Dev.loadPage (d : Dev) (share : Nat) (bs : List Byte) : Dev :=
  let f := leField bs
  let id := f 8 6
  let n := f 2 2
  let d1 := { d with mde := { d.mde with applied := tput 0 d.mde.applied id (2 * f 16 8 + f 14 1 % 2 + 1) } }
  let put (d : Dev) (p : MapPage) : Dev := { d with
    mde := { d.mde with
      pageNext := max d.mde.pageNext (pageNum id + 1), pages := tput {} d.mde.pages (mapPageKey d.slotId id) p } }
  match f 0 1 with
  | 1 => put d1 { level := f 1 1, tree := f 4 4, low := f 24 5, share := share
                  kids := (List.range n).map (fun i => (f (32 + 16 * i) 5, mapPageKey d.slotId (f (40 + 16 * i) 6))) }
  | 2 => put d1 { level := 0, tree := f 4 4, low := f 24 5, share := share
                  ents := (List.range n).map (fun i => ⟨f (32 + 16 * i) 5, f (37 + 16 * i) 1, f (38 + 16 * i) 6⟩) }
  | 3 => d1.each (List.range 127) (fun i d =>
      let g (o n : Nat) : Nat := f (32 * (i + 1) + o) n
      d.updGrec (id / 2 ^ 47 * 2 ^ 47 + pageNum id * 128 + i + 1) (fun _ => {
        seg := g 0 4, off := g 4 2, stored := g 6 2, refs := g 8 4, gsize := g 12 1 % 4, raw := decide (g 12 1 / 4 % 2 = 1)
        state := .ofCode (g 12 1 / 8 % 4), kslot := g 14 2, fp := if g 12 1 / 8 % 4 = 2 then (bs.drop (32 * (i + 1) + 16)).take 16 else [] }))
  | 5 => d1.each (List.range 127) (fun i d =>
      let g (o n : Nat) : Nat := f (32 * (i + 1) + o) n
      let root := if g 4 8 = 0 then 0 else mapPageKey d.slotId (g 4 8)
      d.updTree (pageNum id * 127 + i) (fun t => if g 0 1 % 8 = 0 then t else {
        state := .ofCode (g 0 1 % 8), depth := g 1 1, root := root, source := g 12 4, beat := g 16 8, group := g 24 4 }))
  | 7 =>
    if id / 2 ^ 47 = d.slotId then
      ({ d1 with mde := { d1.mde with grNext := max d1.mde.grNext (f 68 5) } }.setFld Reg.MDE_CP_NUM_NUM (f 32 8)).setFld
        Reg.MDE_CP_CUT_SEQ (f 40 8)
    else { d1 with mde := { d1.mde with otherNum := f 32 8, otherCut := f 40 8 } }
  | _ => d1

/-- R333: what the drives give of a domain is read in. -/
def Dev.loadDomain (d : Dev) (l : DomainLoad) : Dev :=
  let d1 := d.each l.pages (fun p d =>
    let d := d.loadPage p.1 p.2
    match l.locs.find? (fun x => decide (x.1 = leField p.2 8 6)) with
    | some (id, place, ep) => { d with mde := { d.mde with images := tput [] d.mde.images id p.2, at_ := tput {} d.mde.at_ id ⟨place, ep⟩ } }
    | none => d)
  let d2 := d1.each l.segs (fun s d => d.updSegEnt s.1 (fun _ => { state := .live, live := s.2.1, desc := s.2.2 }))
  let d3 := d2.each l.mans (fun m d => d.updSegEnt m.1 (fun s => { s with
    hooks := ((m.2.flatMap manOf).filter (fun e => isHook e.fp)).map (fun e => (e.fp, e.gsize)) }))
  d3.each l.marks (fun m d => d.takeMark m.1 m.2.1 m.2.2.1 m.2.2.2)

/-! ### Page faults (R334, R335, R495) -/

/-- R335: an unreadable grain-record page: its records are DAMAGED, those of a foreign page whether a copy of them was there or not. -/
def Dev.grainPageLost (d : Dev) (id : Nat) : Dev :=
  let known := d.mde.recs.map (fun (e : Nat × GrainRec) => if grainPage e.1 = id then (e.1, { e.2 with damaged := true }) else e)
  let all := (List.range 127).map (fun i => id / 2 ^ 47 * 2 ^ 47 + pageNum id * 128 + i + 1)
  let missing := if id / 2 ^ 47 = d.slotId then [] else all.filter (fun g => !(known.any (fun e => decide (e.1 = g))))
  { d with
    mde := { d.mde with
      away := d.mde.away.filter (fun x => decide (x ≠ id))
      recs := missing.foldl (fun l g => tput {} l g { damaged := true }) known } }.raise 963 id (id / 2 ^ 32) 0

/-- R495, R496: what the flash gives of a foreign grain-record page: copies of its records, and the descriptors of their segments from the peer's newest
checkpoint. -/
def Dev.loadForeign (d : Dev) (p : Nat) (l : DomainLoad) : Dev :=
  if p / 2 ^ 47 = d.slotId then d
  else d.loadDomain { pages := l.pages.filter (fun x => decide (leField x.2 8 6 = p) && decide (leField x.2 0 1 = 3))
                      segs := l.segs.filter (fun s => decide (s.1 / 2 ^ 31 ≠ d.slotId)) }

/-- PAGE_FAULT_DONE, R334, R335, R495: the page is resident, or its tree, or for a grain-record page its records, are DAMAGED. A map page goes by the number
under which it is kept, a grain-record page by its identifier. `load` is what the drives gave of a foreign page. -/
def Dev.pageFaultDone (d : Dev) (p : Nat) (ok : Bool) (load : DomainLoad) : Dev :=
  let d1 := d.bump Reg.MDE_FAULTS_COUNT 1
  if pageClass p = 1 then
    if ok then { d1 with mde := { d1.mde with away := d1.mde.away.filter (fun x => decide (x ≠ p)) } }.loadForeign p load else d1.grainPageLost p
  else if ok then d1.updPage p (fun x => { x with resident := true })
  else
    let t := (d1.page p).tree
    ((d1.updPage p (fun x => { x with damaged := true })).updTree t (fun x => { x with state := .damaged })).raise
      963 (mapPageId d.slotId p) (mapPageId d.slotId p / 2 ^ 32) t

def execPageFaultDone (p : Nat) (r : PageRead) (s : State) : Ans := lift (fun d => d.pageFaultDone p r.ok r.load) s

/-! ### The replay (R333) -/

/-- R333: replay of a domain's journal: from the cut upward, through the runs and then the ring. Answers how many records were
applied. -/
def Dev.replay (d : Dev) (peer : Bool) (l : DomainLoad) : Nat × Dev :=
  let d0 := d.loadDomain l
  let head := if peer then 1 - d0.slotId else d0.slotId
  let src := (l.recs.map decodeJRec).foldl (fun x r => recIns r x) (if peer then d0.mde.peerRing else d0.mde.ring)
  let (recs, cause) := replayRun l.cut src
  let d1 := d0.each recs (fun r d => d.replayRec head r)
  let last := (recs.getLast?.map (·.seq)).getD (l.cut - 1)
  let next := if recs.isEmpty then l.cut else last + 1
  let d2 := if peer then { d1 with mde := { d1.mde with peerRing := [], peerHeld := true } }
    else
      let d := { d1 with
        mde := { d1.mde with
          ownGone := false, ring := d1.mde.ring.filter (fun r => decide (r.seq < next))
          spillTo := max d1.mde.spillTo ((d1.mde.ring.head?.map (fun (r : JRec) => r.seq)).getD next / recsPerPage * recsPerPage) }
        fov := { d1.fov with replayDone := true, replayEpoch := d1.epoch } }
      d.setFld Reg.MDE_JSEQ_NEXT_SEQ (max next (d.fld Reg.MDE_JSEQ_NEXT_SEQ))
  (recs.length, ((d2.setFld Reg.MDE_STS_REPLAY 0).raise 968 head last cause).repReplayed peer d0.rep.sess)

/-- R133: a restart of the whole array keeps a reservation only with Persistence Through Power Loss. -/
def Dev.clearResvs (d : Dev) : Dev :=
  { d with nvt := { d.nvt with ns := d.nvt.ns.map (fun (e : Nat × Namespace) => if e.2.resv.ptpl then e else (e.1, { e.2 with resv := {}, resvIn := none })) } }

/-- JOURNAL_REPLAY, R333: of the own journal after a restart, or of the peer's at step 4 of a takeover. -/
def Dev.journalReplay (d : Dev) (peer : Bool) (l : DomainLoad) : Dev :=
  if peer then
    if d.fov.step = 4 ∧ d.mde.peerHeld = false then
      let (n, d1) := d.replay true l
      { d1 with fov := { d1.fov with replayed := n } }
    else d
  else if d.fld Reg.FOV_STS_STATE = 0 ∧ d.fov.replayDone = false then
    let alone := match d.fov.witness with
      | some w => decide (w.mode = 2) && decide (w.owner = (if d.slotId = 1 then 0 else 2 ^ 64 - 1))
      | none => false
    (d.replay false l).2.cond (!alone) Dev.clearResvs
  else d

def execJournalReplay (peer : Bool) (load : DomainLoad) (s : State) : Ans := lift (fun d => d.journalReplay peer load) s

end Sys2Proof.Machine
end

