-- ==== Sys2Proof/Machine/Layout.lean ====
section
/-! DEFINITION. Segments from their opening to their verification: packing, sealing, parity, the strip writes, and the verify
results (R266 to R305, R293 as its state machine). -/
namespace Sys2Proof.Machine

/-! ### The in-flight table (R293, R303) -/

/-- The in-flight entry of a segment. -/
def Dev.layOf (d : Dev) (seg : Nat) : Option LaySeg := (d.lay.segs.find? (fun e => decide (e.2.seg = seg))).map (·.2)

/-- GLB_LAY_STS follows the table (R302). -/
def Dev.refreshLay (d : Dev) : Dev :=
  let n := d.lay.segs.length
  ((d.setFld Reg.GLB_LAY_STS_INFLIGHT n).setFlag Reg.GLB_LAY_STS_FULL (decide (4096 ≤ n))).setFld Reg.GLB_LAY_STS_VERIFY_WAIT
    (min 65535 (d.lay.segs.filter (fun e => decide (e.2.state = .written))).length)

def Dev.updLay (d : Dev) (seg : Nat) (f : LaySeg → LaySeg) : Dev :=
  { d with lay := { d.lay with segs := d.lay.segs.map (fun e => if e.2.seg = seg then (e.1, f e.2) else e) } }

/-- A segment changes state (R303: STATE_BEAT). -/
def Dev.layTo (d : Dev) (seg : Nat) (st : LState) : Dev :=
  (d.updLay seg (fun x => { x with state := st, stateBeat := d.beat })).refreshLay

/-- A segment leaves the table. -/
def Dev.layDrop (d : Dev) (seg : Nat) : Dev :=
  { d with lay := { d.lay with segs := d.lay.segs.filter (fun e => decide (e.2.seg ≠ seg)) } }.refreshLay

/-! ### Drives and strip units (R270, R401, R402, R407) -/

/-- R407: a drive index is in service. -/
def Dev.inService (d : Dev) (a : Nat) : Bool := d.isOn (.att a) && !d.flag (Reg.DRV_ATT_STS_RETIRED a)

/-- R270: the drives in service and enabled for a kind, ascending. -/
def Dev.drivesFor (d : Dev) (isMeta : Bool) : List Nat :=
  (List.range 128).filter (fun a => d.inService a &&
    d.flag (if isMeta then Reg.DRV_ATT_CTL_META_EN a else Reg.DRV_ATT_CTL_DATA_EN a))

/-- The key of a drive's strip unit. -/
def unitKey (a loc : Nat) : Nat := a * 2 ^ 32 + loc

/-- R405: a strip unit lies in the witness region of its drive. -/
def Dev.isWitness (d : Dev) (a loc : Nat) : Bool :=
  d.flag Reg.DRV_WIT_CFG_VALID && (List.range 3).any (fun i => decide (d.fld (Reg.DRV_WIT_CFG_WIT i) = a)) &&
    decide (d.fld Reg.DRV_WIT_BASE_LOC ≤ loc) && decide (loc < d.fld Reg.DRV_WIT_BASE_LOC + 4)

/-- R402: the LOC of a drive's n-th strip unit. -/
def AttRec.loc (x : AttRec) (n : Nat) : Nat := if x.zs = 0 ∨ x.zcap = 0 then n else n / x.zcap * x.zs + n % x.zcap

/-- R401: the lowest unused LOC of a drive. -/
def Dev.freeLoc (d : Dev) (a : Nat) : Option Nat :=
  if d.fld (Reg.DRV_ATT_FREE_FREE a) = 0 then none
  else
    let n := (d.drv.used.filter (fun e => decide (e.1 / 2 ^ 32 = a))).length
    ((List.range (n + 5)).map (d.att a).loc).find? (fun l => !(tget false d.drv.used (unitKey a l)) && !d.isWitness a l)

/-- R401: allocate a strip unit on a drive; 0 where none is free. -/
def Dev.takeLoc (d : Dev) (a : Nat) : Nat × Dev :=
  match d.freeLoc a with
  | none => (0, d)
  | some l =>
    (l, { d with drv := { d.drv with used := tput false d.drv.used (unitKey a l) true } }.setFld
      (Reg.DRV_ATT_FREE_FREE a) (d.fld (Reg.DRV_ATT_FREE_FREE a) - 1))

/-- Allocate a strip on each drive of a list. -/
def Dev.takeLocs (d : Dev) : List Nat → List (Nat × Nat) × Dev
  | [] => ([], d)
  | a :: t =>
    let (l, d1) := d.takeLoc a
    let (ls, d2) := d1.takeLocs t
    ((a, l) :: ls, d2)

/-- R401: LBAs of a byte offset and length on a drive. -/
def Dev.lbaOf (d : Dev) (a bytes : Nat) : Nat := bytes / (d.att a).lba

/-- R398: a drive command waits for issue. -/
def Dev.askDrive (d : Dev) (a : Nat) (c : DrvCmd) : Dev :=
  { d with drv := { d.drv with queue := d.drv.queue ++ [(a, { c with asked := d.beat })] } }

/-- R402: the commands of one strip write: pieces of at most MDTS bytes. Answers how many. -/
def Dev.askStrip (d : Dev) (a loc cls handle slice : Nat) (req : DrvReq) (bs : List Byte) : Nat × Dev :=
  let step := max 4096 (min stripBytes (d.att a).mdts)
  let n := (stripBytes + step - 1) / step
  (n, d.each (List.range n) (fun i d =>
    let part := (bs.drop (i * step)).take step
    d.askDrive a { req := req, cls := cls, op := 0x01, slice := slice, lba := d.lbaOf a (loc * stripBytes + i * step)
                   nlb := d.lbaOf a part.length, data := part, arg := handle }))

/-! ### Opening (R268, R270) -/

/-- R268: the lowest segment number that names no live and no in-flight segment. -/
def Dev.freeSegNo (d : Dev) : Option Nat :=
  let mine := (d.mde.segs.filter (fun e => decide (e.1 / 2 ^ 31 = d.slotId))).map (fun e => e.1 % 2 ^ 31) ++
    (d.lay.segs.map (fun e => e.2.seg % 2 ^ 31))
  ((List.range (mine.length + 2)).find? (fun n => decide (n ≠ 0) && !(mine.contains n))).bind
    (fun n => if n < 2 ^ 31 then some n else none)

/-- R270: strip s goes to list position (r + s) mod n, r being the segment number mod n. -/
def stripDrives (l : List Nat) (seg n : Nat) : List Nat :=
  (List.range n).map (fun s => l.getD ((seg % 2 ^ 31 % l.length + s) % l.length) 0)

/-- SEGMENT_OPEN, R267, R268, R270, R293, R301: a segment of the kind opens, or waits for an ID, for drives or for room in the
table. Slice s's erasure unit must be in service. -/
def Dev.segmentOpen (d : Dev) (s : Nat) (isMeta : Bool) : Dev :=
  let k := d.fld (if isMeta then Reg.GLB_LAY_META_GEOM_K else Reg.GLB_LAY_DATA_GEOM_K)
  let m := d.fld (if isMeta then Reg.GLB_LAY_META_GEOM_M else Reg.GLB_LAY_DATA_GEOM_M)
  let kind := if isMeta then 1 else 0
  let open_ := if isMeta then d.lay.openMeta else d.fld (Reg.SLI_ECU_OPEN_SEG_SEGMENT s)
  if open_ ≠ 0 ∨ (isMeta = false ∧ (d.flag (Reg.SLI_ECU_STS_FAULT s) ∨ d.isOn (.slice s) = false)) then d
  else if 4096 ≤ d.lay.segs.length then (d.setFld Reg.GLB_LAY_STS_FULL 1).raise 16 0 0 0
  else match d.freeSegNo with
    | none =>
      (d.setFld Reg.GLB_LAY_STS_ID_WAIT 1).raise 14 kind 0 0
    | some n =>
      let ds := (d.drivesFor isMeta).filter (fun a => (d.freeLoc a).isSome)
      let l := d.drivesFor isMeta
      if l.length < k + m ∨ ds.length < l.length then
        (d.setFld Reg.GLB_LAY_STS_DRIVE_WAIT 1).raise 15 kind ds.length (k + m)
      else
        let seg := d.slotId * 2 ^ 31 + n
        let (strips, d1) := d.takeLocs (stripDrives l seg (k + m))
        let slice := if isMeta then seg % 8 else s
        let e : LaySeg := { seg := seg, k := k, m := m, isMeta := isMeta, slice := slice, openBeat := d.beat, stateBeat := d.beat
                            strips := strips }
        let idx := ((List.range (d.lay.segs.length + 1)).find? (fun i => decide ((tget ({} : LaySeg) d.lay.segs i).seg = 0))).getD 0
        let d2 := { d1 with lay := { d1.lay with segs := tput {} d1.lay.segs idx e } }
        let d3 := ((d2.setFld Reg.GLB_LAY_STS_ID_WAIT 0).setFld Reg.GLB_LAY_STS_DRIVE_WAIT 0).refreshLay
        if isMeta then { d3 with lay := { d3.lay with openMeta := seg } } else d3.setFld (Reg.SLI_ECU_OPEN_SEG_SEGMENT s) seg

/-! ### Packing (R254, R273, R277) -/

/-- R277: units that the manifest part and, in strip k − 1, the summary still need in a strip, counting one more record there. -/
def LaySeg.reserve (x : LaySeg) (strip : Nat) : Nat :=
  let here := (x.recs.filter (fun r => decide (r.strip = strip) && decide (r.typ = tyData))).length
  (if x.isMeta then 0 else unitsOf (16 + 32 * (here + 1))) +
    (if strip + 1 = x.k then unitsOf (256 + 4 * (x.recs.length + x.k + 2)) else 0)

/-- R273, R293: where the next record of `n` units goes, if it fits. -/
def LaySeg.room (x : LaySeg) (n : Nat) : Option (Nat × Nat) :=
  ((List.range x.k).find? (fun s => decide (x.strip ≤ s) &&
    decide ((if s = x.strip then x.unit else 0) + n + x.reserve s ≤ stripUnits))).map
    (fun s => (s, if s = x.strip then x.unit else 0))

/-- R254, R260: the GCM class of a record. -/
def RecSrc.cls : RecSrc → Nat
  | .grain _ => 2 | .reloc _ => 3 | _ => 1

/-- Add a record at a place and post its cipher job. -/
def Dev.addRec (d : Dev) (seg : Nat) (r : LayRec) : Dev :=
  match d.layOf seg with
  | none => d
  | some x =>
    (d.updLay seg (fun x => { x with
      recs := x.recs ++ [r], strip := r.strip, unit := r.unit + unitsOf r.stored.length })).postGcm x.slice 0 r.src.cls
        (.sealRec seg (offsetOf r.strip r.unit)) r.kslot r.stored.length

/-- R254: the metadata slot. -/
def metaSlot : Nat := 4094

/-- Pack a destaging grain into its slice's open data segment, if it fits there. -/
def Dev.packGrain (d : Dev) (k : Nat) : Dev :=
  let e := d.dirKeyed k
  let x := d.red k
  let seg := d.fld (Reg.SLI_ECU_OPEN_SEG_SEGMENT (k / Config.dirEntries))
  if x.step ≠ .packWait ∨ e.state ≠ .destaging then d
  else match d.layOf seg with
    | none => d
    | some l =>
      match l.room (unitsOf x.stored.length) with
      | none => d
      | some (s, u) =>
        (d.addRec seg ⟨.grain k, tyData, s, u, e.grid, e.bytes, x.raw, x.fp, d.volSlot e.vol, 0, x.stored, []⟩).updRed k
          (fun r => { r with step := .sealing, seg := seg })

/-- Pack the grains of a slice that wait, oldest first. -/
def Dev.packGrains (d : Dev) (s : Nat) : Nat → Dev
  | 0 => d
  | fuel + 1 =>
    match d.oldestAt s (fun x => decide (x = .packWait)) with
    | none => d
    | some k =>
      let d1 := d.packGrain k
      if (d1.red k).step = .packWait then d1 else d1.packGrains s fuel

/-- R330: a page that a full checkpoint need not write: its last version is the same. -/
def Dev.unchanged (d : Dev) (p : MetaPage) (bs : List Byte) : Bool :=
  p.bytes.isEmpty && decide (pageClass p.id ≠ 6) && decide (d.mde.images.find? (fun e => decide (e.1 = p.id)) = some (p.id, bs))

/-- R307, R328: what packing a page leaves behind: its image and place, and for a journal run its first place and its segment. -/
def Dev.pagePlaced (d : Dev) (p : MetaPage) (bs : List Byte) (seg off : Nat) : Dev :=
  let place := seg * 2 ^ 16 + off
  { d with
      mde := { d.mde with
      images := if p.bytes.isEmpty then tput [] d.mde.images p.id bs else d.mde.images
      at_ := if p.bytes.isEmpty then tput {} d.mde.at_ p.id ⟨place, d.epoch % 2 ^ 32⟩ else d.mde.at_
      prevRun := if p.first then place else d.mde.prevRun
      runs := d.mde.runs.map (fun (r : Nat × Nat) => if p.last ≠ 0 ∧ r.1 = p.last then (r.1, seg) else r) } }.bump
    Reg.MDE_PAGE_WRITES_COUNT 1

/-- R328, R330: pack metadata pages that wait into the open metadata segment. -/
def Dev.packPages (d : Dev) : List MetaPage → Dev
  | [] => { d with lay := { d.lay with metaQ := [] } }
  | p :: t =>
    match d.layOf d.lay.openMeta with
    | none => { d with lay := { d.lay with metaQ := p :: t } }
    | some l =>
      let (bs, d0) := if p.bytes.isEmpty then d.pageImage p.id else (p.bytes, d)
      if d.unchanged p bs then d.packPages t
      else match l.room (unitsOf 4096) with
        | none => { d with lay := { d.lay with metaQ := p :: t } }
        | some (s, u) =>
          let d1 := d0.addRec l.seg ⟨.page p.id, tyMeta, s, u, p.id, 4096, false, [], metaSlot, 0, bs, []⟩
          (d1.pagePlaced p bs l.seg (offsetOf s u)).packPages t

def Dev.packMeta (d : Dev) : Dev := d.packPages d.lay.metaQ

/-! ### Relocated records (R336, R337) -/

/-- The relocated record of a slice that waits for a place. -/
def Dev.relocHead (d : Dev) (s : Nat) : Option LayRec := d.lay.relocQ.find? (fun r => match r.src with
  | .reloc old => decide (relocSlice old = s)
  | _ => false)

/-- R336: pack a slice's relocated records into its open data segment. -/
def Dev.packReloc (d : Dev) (s : Nat) : Nat → Dev
  | 0 => d
  | fuel + 1 =>
    match d.relocHead s, d.layOf (d.fld (Reg.SLI_ECU_OPEN_SEG_SEGMENT s)) with
    | some r, some l =>
      match l.room (unitsOf r.stored.length) with
      | some (st, u) =>
        ({ d with lay := { d.lay with relocQ := d.lay.relocQ.erase r } }.addRec l.seg { r with strip := st, unit := u }).packReloc s fuel
      | none => d
    | _, _ => d

def execSegmentOpen (sl : Nat) (meta_ : Bool) (s : State) : Ans :=
  lift (fun d => if meta_ then (d.segmentOpen sl true).packMeta else (d.segmentOpen sl false).packGrains sl 16384) s

/-- COMPRESS_DONE, R208: then the grain is packed for the cipher. -/
def execCompressDone (sl c : Nat) (frame : List Byte) (s : State) : Ans :=
  lift (fun d => (d.compressDone sl c frame).packGrains sl 16384) s

/-! ### Closing (R277 to R279, R293) -/

/-- R278: the manifest entry of a data record. -/
def LayRec.entry (r : LayRec) : ManEntry :=
  ⟨r.fp, r.id, offsetOf r.strip r.unit, sizeCode r.lsize, r.kslot, r.gen, r.raw, r.stored.length⟩

/-- The descriptor of a segment with `n` records (R272). -/
def LaySeg.desc (x : LaySeg) (n : Nat) : SegDesc :=
  ⟨x.seg, x.k, x.m, if x.isMeta then 2 else 1, x.openBeat, n, x.strips⟩

/-- A record that holds data of grains or pages, not the segment's own lists. -/
def LayRec.payload (r : LayRec) : Bool := decide (r.typ = tyData) || decide (r.typ = tyMeta)

/-- R277: the manifest parts of a segment, each behind the last record of its strip. -/
def LaySeg.manifests (x : LaySeg) : List LayRec :=
  if x.isMeta then []
  else (List.range x.k).filterMap (fun s =>
    let rs := x.recs.filter (fun r => decide (r.strip = s) && decide (r.typ = tyData))
    if rs.isEmpty then none
    else
      let bs := manBytes x.seg s (rs.map LayRec.entry)
      let u := rs.foldl (fun n r => max n (r.unit + unitsOf r.stored.length)) 0
      some ⟨.manifest, tyManifest, s, u, 0, bs.length, false, [], metaSlot, 0, bs, []⟩)

/-- R277, R279: the summary, at the end of strip k − 1. -/
def LaySeg.summary (x : LaySeg) (recs : List LayRec) : LayRec :=
  let n := recs.length + 1
  let u := stripUnits - unitsOf (256 + 4 * n)
  let own := offsetOf (x.k - 1) u
  let list := (recs.map (fun r => (offsetOf r.strip r.unit, r.typ, unitsOf r.stored.length))) ++ [(own, tySummary, stripUnits - u)]
  let sorted := list.mergeSort (fun a b => decide (a.1 ≤ b.1))
  let bs := sumBytes (x.desc n) sorted
  ⟨.summary, tySummary, x.k - 1, u, 0, bs.length, false, [], metaSlot, 0, bs, []⟩

/-- R293: once the cipher has released every record of a CLOSED segment, its manifest parts and its summary are written. -/
def Dev.finishClose (d : Dev) (seg : Nat) : Dev :=
  match d.layOf seg with
  | none => d
  | some x =>
    if x.state ≠ .closed ∨ x.recs.any (fun r => decide (r.src = .summary)) ∨ x.recs.any (fun r => r.out.isEmpty) then d
    else
      let mans := x.manifests
      let d1 := d.each mans (fun r d => d.addRec seg r)
      d1.addRec seg (x.summary (x.recs ++ mans))

/-- R293: why an OPEN segment closes: what waits does not fit, its age, or its slice has left ON. -/
def Dev.closeDue (d : Dev) (x : LaySeg) : Bool :=
  decide (d.fld Reg.GLB_LAY_SEG_AGE_BEATS ≤ d.since x.openBeat) || (!x.isMeta && !d.isOn (.slice x.slice)) ||
    (if x.isMeta then !d.lay.metaQ.isEmpty && (x.room (unitsOf 4096)).isNone
     else match d.oldestAt x.slice (fun y => decide (y = .packWait)) with
       | none => ((d.relocHead x.slice).map (fun r => (x.room (unitsOf r.stored.length)).isNone)).getD false
       | some k => (x.room (unitsOf (d.red k).stored.length)).isNone)

/-- SEGMENT_CLOSE, R293. -/
def Dev.segmentClose (d : Dev) (seg : Nat) : Dev :=
  match d.layOf seg with
  | none => d
  | some x =>
    if x.state ≠ .opened ∨ d.closeDue x = false then d
    else
      let d1 := d.layTo seg .closed
      let d2 := if x.isMeta then { d1 with lay := { d1.lay with openMeta := 0 } } else d1.setFld (Reg.SLI_ECU_OPEN_SEG_SEGMENT x.slice) 0
      d2.finishClose seg

def execSegmentClose (seg : Nat) (s : State) : Ans := lift (fun d => d.segmentClose seg) s

/-! ### Parity and strip writes (R284, R287, R293) -/

/-- R273: the bytes of data strip s: its records in place, zeros elsewhere. -/
def LaySeg.stripData (x : LaySeg) (s : Nat) : List Byte :=
  let rs := (x.recs.filter (fun r => decide (r.strip = s))).mergeSort (fun a b => decide (a.unit ≤ b.unit))
  padTo stripBytes (rs.foldl (fun bs r => padTo (512 * r.unit) bs ++ r.out) [])

/-- The placement handle of a segment's strip writes (R402). -/
def LaySeg.handle (x : LaySeg) : Nat := if x.isMeta then 1 else 0

/-- R293: the cipher has released every record of a CLOSED segment, its manifest parts and its summary among them. -/
def LaySeg.whole (x : LaySeg) : Bool :=
  decide (x.state = .closed) && x.recs.any (fun r => decide (r.src = .summary)) && x.recs.all (fun r => !r.out.isEmpty)

/-- R287, R293, R300: what a segment asks of its slice's erasure unit: its parity, as class 2, at one quantum per 16 KiB of its data strips; and the check
of its own verify pass, as class 4. -/
def Dev.askEcu (d : Dev) (x : LaySeg) : Dev :=
  if x.whole ∧ x.ecu = .idle then (d.updLay x.seg (fun x => { x with ecu := .parity })).addJobFor x.slice .ecu 2 (x.k * stripBytes) (.parity x.seg)
  else if x.state = .written ∧ x.ownPass ∧ x.ecu = .parityDone then
    (d.updLay x.seg (fun x => { x with ecu := .check })).addJobFor x.slice .ecu 4 ((x.k + x.m) * stripBytes) (.check x.seg)
  else d

/-- R294, R300: the requests of the peer whose segments a slice's erasure unit checks. -/
def Dev.askVerify (d : Dev) (s : Nat) (desc : List Byte) : Dev :=
  match descOf desc with
  | none => d
  | some x =>
    if x.seg % 8 ≠ s ∨ d.lay.checks.any (fun c => decide (c.1 = x.seg)) then d
    else { d with lay := { d.lay with checks := d.lay.checks ++ [(x.seg, false)] } }.addJobFor s .ecu 4 ((x.k + x.m) * stripBytes) (.verify x.seg)

/-- R300: what a slice's erasure unit is asked at a beat edge. One that is out of service takes nothing (R301). -/
def Dev.takeEcu (d : Dev) (s : Nat) : Dev :=
  if d.flag (Reg.SLI_ECU_STS_FAULT s) then d
  else
    (d.each ((d.lay.segs.map (·.2)).filter (fun x => decide (x.slice = s))) (fun x d => d.askEcu x)).each d.cdx.held (fun m d => match m with
      | .verifyReq desc => d.askVerify s desc
      | _ => d)

/-- PARITY_DONE, R284, R287, R293: the erasure unit has had the quanta of a CLOSED segment's parity: all k + m strip writes are issued at once. -/
def Dev.parityDone (d : Dev) (seg : Nat) : Dev :=
  match d.layOf seg with
  | none => d
  | some x =>
    if x.state ≠ .closed ∨ x.ecu ≠ .parityDone then d
    else
      let data := (List.range x.k).map x.stripData
      let all := data ++ (List.range x.m).map (fun i => parityStrip i stripBytes data)
      let r := (all.zip x.strips.zipIdx).foldl (fun (acc : Nat × Dev) y =>
        let (n, d1) := acc.2.askStrip y.2.1.1 y.2.1.2 3 x.handle x.slice (.strip seg y.2.2) y.1
        (acc.1 + n, d1)) (0, d)
      ((r.2.updLay seg (fun x => { x with writes := r.1 })).layTo seg .writing).bump (Reg.SLI_ECU_PARITY_BYTES x.slice) (x.m * stripBytes)

def execParityDone (seg : Nat) (s : State) : Ans := lift (fun d => d.parityDone seg) s

/-- R293, R400: one of a segment's writes has ended; a failure is kept with its strip and drive. -/
def Dev.stripWriteEnd (d : Dev) (seg strip drive : Nat) (ok : Bool) : Dev :=
  d.updLay seg (fun x => { x with
    writes := x.writes - 1, bad := if ok then x.bad else x.bad <|> some (strip, drive) })

/-! ### WRITTEN and ABANDONED (R153, R196, R293) -/

/-- R199, R293: the manifest of a written segment. -/
def LaySeg.manifest (x : LaySeg) (beat : Nat) : Manifest :=
  ⟨x.seg, beat, beat, (x.recs.filter (fun r => decide (r.typ = tyData))).map LayRec.entry⟩

/-- R178, R293: the PLACE record of a grain's record is journaled, applied and mirrored. -/
def Dev.placeRec (d : Dev) (seg : Nat) (r : LayRec) : Dev :=
  match r.src with
  | .grain k =>
    let e := d.dirKeyed k
    let body : JBody := .place r.id seg (offsetOf r.strip r.unit) r.stored.length (sizeCode r.lsize) r.raw r.kslot r.fp
    let (j, d1) := d.journalRec 0 0 0 body
    let (w, d2) := (d1.applyRec j).mirrorRecs e.mirrorQp [j]
    d2.updRed k (fun x => { x with step := .journaled, stored := [], wait := w })
  | _ => d

/-- R196, R216: a record of a manifest whose hook is inserted: of a volume that deduplicates, or of a record moved whose hook its old segment listed. -/
def Dev.listsHook (d : Dev) (r : LayRec) : Bool :=
  decide (r.typ = tyData) && isHook r.fp && (match r.src with
    | .grain k => (d.volRed (d.dirKeyed k).vol).dedup
    | .reloc old => (d.segEnt old).hooks.contains (r.fp, sizeCode r.lsize)
    | _ => false)

/-- R330, R406: the checkpoint page is WRITTEN: its anchor goes to slot CP_NUM mod 8 of this head on the three witness drives. -/
def Dev.askAnchors (d : Dev) (place : Nat) : Dev :=
  if d.mde.cpRun = false ∨ d.flag Reg.DRV_WIT_CFG_VALID = false then d
  else
    let d1 := { d with mde := { d.mde with cpPlace := place, cpAnchors := 0 } }
    let off := d1.fld Reg.DRV_WIT_BASE_LOC * stripBytes + (if d1.cpHead = 0 then 65536 else 131072) +
      4096 * ((d1.cpNum + 1) % 8)
    d1.each (List.range 3) (fun i d =>
      let a := d.fld (Reg.DRV_WIT_CFG_WIT i)
      d.askDrive a { req := .anchor, cls := 3, op := 0x01, slice := 0, lba := d.lbaOf a off, nlb := d.lbaOf a 4096
                     data := padTo 4096 d.anchorBytes, fua := true })

/-- R315, R338: a page's version is on flash: the version before it is live no more. A journal page lives until a checkpoint's cut passes
it. -/
def Dev.pageWritten (d : Dev) (seg : Nat) (r : LayRec) : Dev :=
  match r.src with
  | .page id =>
    if pageClass id = 4 then { d with mde := { d.mde with runPages := d.mde.runPages ++ [(leField r.stored 8 8, seg)] } }
    else
      let d1 := { d with mde := { d.mde with pageLive := tput 0 d.mde.pageLive id seg } }
      d1.dropUnits (tget 0 d.mde.pageLive id) (unitsOf 4096)
  | _ => d

/-- SEGMENT_WRITTEN, R153, R196, R199, R293, R328: every strip write of the segment has completed. Its records are journaled, its
manifest is cached and its hooks inserted, journal runs in it are complete, and the verify request goes to the peer. -/
def Dev.segmentWritten (d : Dev) (seg : Nat) : Dev :=
  match d.layOf seg with
  | none => d
  | some x =>
    if x.state ≠ .writing ∨ x.writes ≠ 0 ∨ x.bad.isSome then d
    else
      -- the units of its grain records become live with their PLACE and RELOCATE records
      let units := (x.recs.filter (fun r => decide (r.typ = tyMeta))).foldl (fun n r => n + unitsOf r.stored.length) 0
      let desc := (x.desc x.recs.length).bytes
      let d1 := ((d.layTo seg .written).journal (.segment seg 1)).updSegEnt seg (fun s => { s with
        state := .live, live := units, desc := desc, written := d.beat, verified := false, emptyEpoch := if units = 0 then d.epoch + 1 else 0 })
      let d2 := d1.each x.recs (fun r d => (d.placeRec seg r).pageWritten seg r)
      let hooks := x.recs.filter d.listsHook
      let d3 := (d2.updSegEnt seg (fun s => { s with hooks := hooks.map (fun r => (r.fp, sizeCode r.lsize)) })).each hooks (fun r d =>
        d.tphOwn r.fp (sizeCode r.lsize) seg)
      let d3 := d3.cond (!x.isMeta) (fun d => d.cacheManifest (x.manifest d.beat))
      let d4 := (List.range (d3.mde.runs.length)).foldl (fun d _ => match d.mde.runs with
        | (_, sg) :: _ => if sg = seg then d.runWritten else d
        | [] => d) d3
      let d5 := (x.recs.filter (fun r => decide (r.src = .page (pageIdOf d.cpHead 6 0)))).foldl (fun d r =>
        d.askAnchors (seg * 2 ^ 16 + offsetOf r.strip r.unit)) d4
      d5.cond d5.linkSends (fun d => d.emit (.link (.verifyReq desc)))

def execSegmentWritten (seg : Nat) (s : State) : Ans := lift (fun d => d.segmentWritten seg) s

/-- A page to be packed again: a journal page from its bytes, any other as it then stands. -/
def repackPage (id : Nat) (bs : List Byte) : MetaPage := MetaPage.mk id (if pageClass id = 4 then bs else []) false 0

/-- R330: pages of a running checkpoint were lost: its locator and checkpoint pages are written again behind them. -/
def Dev.cpAgain (d : Dev) : Dev :=
  if d.mde.cpRun then
    let ids := d.cpPageIds.filter (fun i => decide (5 ≤ pageClass i) && decide (pageClass i ≤ 6))
    { d with
        mde := { d.mde with cpPlace := 0 }
        lay := { d.lay with metaQ := d.lay.metaQ.filter (fun p => !(ids.contains p.id)) ++ ids.map (fun i => MetaPage.mk i [] false 0) } }
  else d

/-- Its records' sources of a segment that failed are to be placed again: grains from their stored bytes or their Caldera copies,
pages from their bytes. -/
def Dev.packAgain (d : Dev) (r : LayRec) : Dev :=
  match r.src with
  | .grain k => d.updRed k (fun x => { x with step := .packWait, raw := r.raw, stored := r.stored, seg := 0 })
  | .page id =>
    { d with
        mde := { d.mde with images := tput [] d.mde.images id [] }
        lay := { d.lay with metaQ := d.lay.metaQ ++ [repackPage id r.stored] } }
  | .reloc _ => { d with lay := { d.lay with relocQ := d.lay.relocQ ++ [{ r with out := [] }] } }
  | _ => d

/-- R293: the strips of a segment that was ABANDONED or FAILED hold no live grain; garbage collection reclaims them. -/
def Dev.segmentLost (d : Dev) (x : LaySeg) : Dev :=
  ((d.layDrop x.seg).journal (.segment x.seg 3)).updSegEnt x.seg (fun s => { s with
    state := .live, live := 0, desc := (x.desc x.recs.length).bytes, emptyEpoch := d.epoch + 1 })

/-- SEGMENT_ABANDON, R153, R293: a strip write failed and every write of the segment has ended: its grains are packed again. -/
def Dev.segmentAbandon (d : Dev) (seg : Nat) : Dev :=
  match d.layOf seg with
  | none => d
  | some x =>
    match x.bad with
    | none => d
    | some (strip, drive) =>
      if x.state ≠ .writing ∨ x.writes ≠ 0 then d
      else
        let d0 := (d.segmentLost x).each x.recs (fun r d => d.packAgain r)
        let d1 := d0.bumpSat (Reg.SLI_WPE_REWRITE_COUNT x.slice) (x.recs.filter (fun r => match r.src with
          | .grain _ => true
          | _ => false)).length
        let d2 := (d1.bumpSat Reg.GLB_LAY_ABANDONED_COUNT 1).raise (sliceSrc x.slice 21) seg strip drive
        if x.isMeta then d2.cpAgain.packMeta else d2.packGrains x.slice 16384

def execSegmentAbandon (seg : Nat) (s : State) : Ans := lift (fun d => d.segmentAbandon seg) s

/-! ### Verification (R153, R182, R293 to R297) -/

/-- R153: a grain whose key is erased is discarded: it leaves destage, and a release put is due. -/
def Dev.discardGrain (d : Dev) (k : Nat) : Dev :=
  let e := d.dirKeyed k
  let d1 := d.updDirKey k (fun e => { e with state := .destaging, discarded := true })
  (d1.updRed k (fun _ => {})).raise (sliceSrc (k / Config.dirEntries) 2) e.vol e.grid 0

/-- The directory entries of a segment's grains that are PLACED. -/
def Dev.grainsOf (d : Dev) (seg : Nat) : List Nat :=
  (d.cal.dirs.filter (fun e => decide (e.2.state = .placed) && decide (e.2.segment = seg))).map (·.1)

/-- R153, R184: the grains that must be placed again when a segment FAILED: its own, those among them whose destage records are not yet mirrored. -/
def Dev.grainsBack (d : Dev) (seg : Nat) : List Nat :=
  (d.cal.dirs.filter (fun e => e.2.dupOf.isNone && decide ((d.grec e.2.grid).seg = seg) &&
    ((decide (e.2.state = .placed) && decide (e.2.segment = seg)) || (decide (e.2.state = .destaging) && decide ((d.red e.1).step = .journaled))))).map (·.1)

/-- The duplicates that wait for a record of the segment. -/
def Dev.dupsOf (d : Dev) (seg : Nat) : List Nat :=
  (d.cal.dirs.filter (fun e => decide (e.2.state = .placed) && e.2.dupOf.isSome && decide (e.2.segment = seg))).map (·.1)

/-- R293, R297: how the first result of a segment is kept: the code plus 1, and 16 more for the own pass. -/
def Dev.firstResult (d : Dev) (seg : Nat) : Nat := tget 0 d.lay.results seg

/-- R297: a segment is VERIFIED or FAILED by its first result. `own` tells whether the own pass gave it. -/
def Dev.decideSeg (d : Dev) (x : LaySeg) (result strip : Nat) (own : Bool) (erased : List Nat) : Dev :=
  let d0 := { d with lay := { d.lay with results := tput 0 d.lay.results x.seg (result + 1 + (if own then 16 else 0)) } }
  if result = vrVerified then
    let d1 := (((d0.layDrop x.seg).journal (.segment x.seg 2)).updSegEnt x.seg (fun s => { s with verified := true })).bumpSat
      Reg.GLB_LAY_VERIFIED_COUNT 1
    let moves := x.recs.filterMap (fun r => match r.src with
      | .reloc old => some (Move.mk r.id old x.seg (offsetOf r.strip r.unit) r.stored.length)
      | _ => none)
    let d1 := { d1 with mde := { d1.mde with relocReady := d1.mde.relocReady ++ moves } }
    let d2 := d1.each (d1.grainsOf x.seg) (fun k d =>
      d.updDirKey k (fun e => { e with state := .verified }))
    let d3 := d2.each ((d2.cal.dirs.filter (fun e => erased.contains e.2.grid && decide (e.2.state = .verified))).map (·.1))
      (fun k d => d.discardGrain k)
    if own then d3 else d3.atEdge (.release x.seg)
  else
    let gs := d0.grainsBack x.seg
    let ds := d0.dupsOf x.seg
    let d1 := ((d0.segmentLost x).bumpSat Reg.GLB_LAY_FAILED_COUNT 1).raise 17 x.seg result strip
    let d2 := d1.each gs (fun k d =>
      let e := d.dirKeyed k
      let d := (d.updDirKey k (fun e => { e with state := .destaging })).updGrec e.grid (fun g => { g with state := .unplaced })
      ((d.updRed k (fun _ => { fp := (d.grec e.grid).fp })).redUnique k).bumpSat (Reg.SLI_WPE_REWRITE_COUNT (k / Config.dirEntries)) 1)
    -- a duplicate goes back with its record, and follows it to its new place
    let d3 := (d2.each ds (fun k d => (d.updDirKey k (fun e => { e with state := .destaging })).updRed k (fun _ => { step := .journaled }))).cond (!gs.isEmpty) (fun d => d.raise (sliceSrc x.slice 3) x.seg gs.length 0)
    -- R337: relocated records are relocated again
    let d4 := d3.each x.recs (fun r d => match r.src with
      | .reloc old => d.updSegEnt old (fun s => { s with relocNext := s.relocNext ++ [r.id] })
      | _ => d)
    if x.isMeta then (d4.each x.recs (fun r d => d.packAgain r)).cpAgain.packMeta else d4.packGrains x.slice 16384

/-- R293, R305: the own verify pass starts; `cause` as event 19 gives it. -/
def Dev.startOwnPass (d : Dev) (seg cause : Nat) : Dev :=
  (d.updLay seg (fun x => { x with ownPass := true, retryOwn := false })).raise 19 seg cause 0

/-- VERIFY_REPORT, R297: the first result decides the segment, UNREACHABLE starts the own pass, and later results are counted. -/
def Dev.verifyReport (d : Dev) (seg result strip : Nat) : Dev :=
  match d.layOf seg with
  | some x =>
    if x.state ≠ .written then d
    else if result = vrUnreachable then (if x.ownPass then d else d.startOwnPass seg 1)
    else d.decideSeg x result strip false []
  | none =>
    let first := d.firstResult seg
    if first = 0 then d
    else
      let d1 := d.bumpSat Reg.GLB_LAY_LATE_COUNT 1
      let was := (first - 1) % 16
      let d2 := d1.cond (decide (was ≠ result)) (fun d => d.raise 18 seg was result)
      if was ≠ result ∧ result ≠ vrVerified ∧ result ≠ vrUnreachable then
        { d2 with lay := { d2.lay with repair := d2.lay.repair ++ [seg] } }
      else d2

def execVerifyReport (seg result strip drive : Nat) (s : State) : Ans :=
  lift (fun d => let _ := drive; d.verifyReport seg result strip) s

/-- VERIFY_TIMEOUT, R293: a WRITTEN segment without a report starts its own pass: after VERIFY_TIMEOUT, with the link down, or in
vault-through mode. -/
def Dev.verifyTimeout (d : Dev) (seg : Nat) : Dev :=
  match d.layOf seg with
  | none => d
  | some x =>
    if x.state ≠ .written ∨ x.ownPass ∨ x.retryOwn then d
    else if d.fld Reg.GLB_LAY_VERIFY_TIMEOUT ≤ d.since x.stateBeat then d.startOwnPass seg 0
    else if d.linkSends = false then d.startOwnPass seg 2
    else if d.vaultThrough then d.startOwnPass seg 3
    else d

def execVerifyTimeout (seg : Nat) (s : State) : Ans := lift (fun d => d.verifyTimeout seg) s

/-- OWN_VERIFY_DONE, R294, R296: the own pass, whose checks the erasure unit has worked on, decides; UNREACHABLE leaves the segment WRITTEN until the next epoch edge. -/
def Dev.ownVerifyDone (d : Dev) (seg : Nat) (strips : List StripRead) : Dev :=
  match d.layOf seg with
  | none => d
  | some x =>
    if x.ownPass = false ∨ x.state ≠ .written ∨ x.ecu ≠ .checkDone then d
    else
      let v := verifyStrips d.slotKey (x.desc x.recs.length) strips
      if v.result = vrUnreachable then d.updLay seg (fun x => { x with ownPass := false, retryOwn := true, ecu := .parityDone })
      else d.decideSeg x v.result v.strip true v.erased

def execOwnVerifyDone (seg : Nat) (strips : List StripRead) (s : State) : Ans := lift (fun d => d.ownVerifyDone seg strips) s

/-- VERIFY_REQ, R182, R294, R295: the checks of the peer's segment, on which an erasure unit has worked, are over: this head sends its report; with VERIFIED
it frees the mirror entries of the segment's grains. -/
def Dev.verifyReq (d : Dev) (desc : List Byte) (strips : List StripRead) : Dev :=
  let hold := d.cdx.held.filter (fun m => decide (m ≠ .verifyReq desc))
  match descOf desc with
  | none => { d with cdx := { d.cdx with held := hold } }
  | some x =>
    if d.lay.checks.contains (x.seg, true) = false then d
    else
      let v := verifyStrips d.slotKey x strips
      let d0 := { d with
        cdx := { d.cdx with held := hold }
        lay := { d.lay with checks := d.lay.checks.filter (fun c => decide (c.1 ≠ x.seg)) } }
      let d1 := if v.result = vrVerified then
          { d0 with cal := { d0.cal with mirDirs := d0.cal.mirDirs.filter (fun e => !(v.grids.contains e.2.grid)) } }
        else d0
      d1.emit (.link (.verifyReport x.seg v.result v.strip ((x.strips.map (·.1)).getD v.strip 0)))

def execVerifyReq (desc : List Byte) (strips : List StripRead) (s : State) : Ans := lift (fun d => d.verifyReq desc strips) s

/-! ### The cipher's side of a segment (R153, R247, R248, R256 to R261) -/

/-- A record of a segment is taken out before the cipher released it. -/
def Dev.dropRec (d : Dev) (seg off : Nat) : Option LayRec × Dev :=
  match d.layOf seg with
  | none => (none, d)
  | some x =>
    (x.recs.find? (fun r => decide (offsetOf r.strip r.unit = off)),
      d.updLay seg (fun x => { x with recs := x.recs.filter (fun r => decide (offsetOf r.strip r.unit ≠ off)) }))

/-- R153: the cipher refuses a grain: KEY_ERASED discards it, NONCE_EXHAUSTED returns it to MIRRORED until the next epoch edge. -/
def Dev.refuseRec (d : Dev) (seg off : Nat) (erased : Bool) : Dev :=
  let (r, d1) := d.dropRec seg off
  let d2 := match r with
    | some r =>
      (match r.src with
       | .grain k =>
         if erased then d1.discardGrain k
         else
           let e := d1.dirKeyed k
           let d2 := d1.updDirKey k (fun e => { e with state := .mirrored, retryEpoch := true, refused := true })
           (d2.updRed k (fun _ => {})).raise (sliceSrc (k / Config.dirEntries) 4) e.vol r.kslot 0
       | .page id => { d1 with lay := { d1.lay with metaQ := d1.lay.metaQ ++ [repackPage id r.stored] } }
       | .reloc old => d1.relocLess old r.id
       | _ => d1.updLay seg (fun x => { x with recs := x.recs ++ [r] }))
    | none => d1
  d2.finishClose seg

/-- R247: one engine's draw: the first waiting encryption job whose slot may draw starts; a job of an EMPTY or EXHAUSTED slot is
refused; a held one does not block those behind it. -/
def Dev.nonceDrawFrom (d : Dev) (s e : Nat) : List (Nat × GcmJob) → Dev
  | [] => d
  | (i, j) :: t =>
    match j.work with
    | .openRec _ => d.nonceDrawFrom s e t
    | .sealRec seg off =>
      let k := d.kslot j.slot
      match k.state with
      | .empty => (d.dropJob i).refuseRec seg off true
      | .exhausted => (d.dropJob i).refuseRec seg off false
      | .unsealed => (d.holdJob j.slot).nonceDrawFrom s e t
      | .ready =>
        if ctrLimit ≤ k.counter then (d.dropJob i).refuseRec seg off false
        else if k.mayDraw then (d.drawFor i j).addJob s (.gcm e) j.cls (max 1 j.len) 0
        else (d.holdJob j.slot).nonceDrawFrom s e t

/-- NONCE_DRAW, R247, R248, R250. -/
def Dev.nonceDraw (d : Dev) (s e : Nat) : Dev :=
  if (d.gcmRunning s e).isSome ∨ d.flag (Reg.SLI_GCM_STS_FAULT s e) then d else d.nonceDrawFrom s e (d.gcmWaiting s e)

def execNonceDraw (sl e : Nat) (s : State) : Ans := lift (fun d => d.nonceDraw sl e) s

/-- R254: a sealed record takes its place in the segment. -/
def Dev.sealDone (d : Dev) (j : GcmJob) (seg off : Nat) : Dev :=
  match d.layOf seg with
  | none => d
  | some x =>
    match x.recs.find? (fun r => decide (offsetOf r.strip r.unit = off)) with
    | none => d
    | some r =>
      let gmac := decide (r.typ ≠ tyData) && !d.flag Reg.KEY_CFG_META_ENC
      let nonce := nonceBytes j.slot d.slotId j.gen j.ctr
      let head := headBytes r.typ ((if r.raw then 1 else 0) + (if gmac then 2 else 0)) r.strip seg r.id off r.lsize r.stored.length nonce
      let out := sealBytes j.key gmac head nonce r.stored
      let d1 := d.updLay seg (fun x => { x with
        recs := x.recs.map (fun y => if offsetOf y.strip y.unit = off then { y with out := out, gen := j.gen } else y) })
      let d2 := match r.src with
        | .grain k => d1.updRed k (fun y => { y with step := .packed })
        | _ => d1
      d2.finishClose seg

end Sys2Proof.Machine
end

