-- ==== Sys2Proof/Machine/Crediox.lean ====
section
/-! DEFINITION. The peer link: lanes, flits, retry, its states, packets and link messages (R437 to R465, R685). -/
namespace Sys2Proof.Machine

/-! ### The flit's code (R440 to R443) -/

/-- R442: one step of multiplication by α in GF(2^10), polynomial 0x409. -/
def gf10Mul2 (a : Nat) : Nat := if a < 512 then 2 * a else Nat.xor (2 * a) 0x409

/-- R442: a product in GF(2^10); `n` bits of `b` are left. -/
def gf10Mul : Nat → Nat → Nat → Nat
  | 0, _, _ => 0
  | n + 1, a, b => Nat.xor (if b % 2 = 1 then a else 0) (gf10Mul n (gf10Mul2 a) (b / 2))

/-- R442: α^n. -/
def gf10Pow : Nat → Nat
  | 0 => 1
  | n + 1 => gf10Mul2 (gf10Pow n)

/-- R442: multiply a polynomial, highest power first, by (x − r). -/
def polyRoot (p : List Nat) (r : Nat) : List Nat :=
  ((p ++ [0]).zip (0 :: p)).map (fun (x : Nat × Nat) => Nat.xor x.1 (gf10Mul 10 r x.2))

/-- R442: g(x), highest power first, without its leading 1. -/
def rsGen : List Nat := ((List.range 14).foldl (fun p i => polyRoot p (gf10Pow i)) [1]).tail

/-- R442: one symbol more of the division by g(x); `rem` holds 14 symbols, highest power first. -/
def rsStep (g rem : List Nat) (s : Nat) : List Nat :=
  let f := Nat.xor s (rem.headD 0)
  ((rem.tail ++ [0]).zip g).map (fun (x : Nat × Nat) => Nat.xor x.1 (gf10Mul 10 f x.2))

/-- R442: the 14 parity symbols of 258 symbols. -/
def rsParity (syms : List Nat) : List Nat := syms.foldl (rsStep rsGen) (List.replicate 14 0)

/-- R440, R441: symbols 0 to 257: the header and 320 payload bytes. -/
def flitData (typ fseq ackseq : Nat) (payload : List Byte) : List Nat :=
  let h := typ % 4 + 4 * (fseq % 512) + 2048 * (ackseq % 512)
  let n := leNat (padTo 320 payload)
  [h % 1024, h / 1024] ++ (List.range 256).map (fun i => n / 1024 ^ i % 1024)

/-- R440: the 272 symbols of a flit. -/
def flitSymbols (typ fseq ackseq : Nat) (payload : List Byte) : List Nat :=
  let s := flitData typ fseq ackseq payload
  s ++ rsParity s

/-- R443: the symbols of a flit that lane `l` carries in a group of width `w`, in the order sent. -/
def laneSymbols (w first l : Nat) (syms : List Nat) : List Nat :=
  (syms.zipIdx.filter (fun (x : Nat × Nat) => decide (first + x.2 % w = l))).map (·.1)

/-- R443: the bits of a lane's symbols, five pairs a symbol, the lowest first. -/
def symbolBits (syms : List Nat) : List Nat := syms.flatMap (fun s => (List.range 10).map (fun i => s / 2 ^ i % 2))

/-- R443: the scrambler's stream: x^31 + x^28 + 1 from a seed. -/
def scrBits : Nat → Nat → List Nat
  | 0, _ => []
  | n + 1, st =>
    let b := Nat.xor (st / 2 ^ 30 % 2) (st / 2 ^ 27 % 2)
    b :: scrBits n (2 * st % 2 ^ 31 + b)

/-- R443: Gray coding of bit pairs (b1, b0), the pair's low bit first in the stream. -/
def grayLevels : List Nat → List Nat
  | b0 :: b1 :: t => (if b1 = 0 then b0 else 3 - b0) :: grayLevels t
  | _ => []

/-- R443: the PAM4 levels of the flits that lane `l` carries from the first flit after alignment. -/
def laneLevels (w first l : Nat) (flits : List (List Nat)) : List Nat :=
  let bits := symbolBits (flits.flatMap (laneSymbols w first l))
  grayLevels ((bits.zip (scrBits bits.length (Nat.xor 0x7FFFFFFF l))).map (fun (x : Nat × Nat) => Nat.xor x.1 x.2))

/-! ### Packets (R444, R445, R451, R455) -/

/-- R444: a packet in slots of 32 bytes. -/
def toSlots : Nat → List Byte → List (List Byte)
  | 0, _ => []
  | n + 1, bs => if bs.isEmpty then [] else padTo 32 bs :: toSlots n (bs.drop 32)

/-- R445: a packet. -/
def cdxPacket (kind mtype slot : Nat) (body : List Byte) : List Byte :=
  withCrc (leBytes 2 (body.length + 12) ++ leBytes 1 kind ++ leBytes 1 mtype ++ leBytes 1 slot ++ leBytes 3 0 ++ body)

/-- R455: MTYPE and body of a link message. -/
def msgBody (m : LinkMsg) : Nat × List Byte :=
  match m with
  | .heartbeat seq beat st own => (0x01, leBytes 4 seq.toNat ++ leBytes 8 beat ++ leBytes 1 st ++ leBytes 3 0 ++ leBytes 8 own)
  | .syncReq id => (0x02, leBytes 4 id.toNat)
  | .syncResp id b c h => (0x03, leBytes 4 id.toNat ++ leBytes 8 b ++ leBytes 2 c ++ leBytes 2 h)
  | .qpPair q start => (0x04, leBytes 1 (q % 64) ++ leBytes 1 (if start then 1 else 2) ++ leBytes 2 0)
  | .tephraBatch seq part last es =>
    (0x10, leBytes 4 seq.toNat ++ leBytes 2 (part % 2 ^ 15 + (if last then 2 ^ 15 else 0)) ++ leBytes 2 es.length ++ es.flatten)
  | .refcount r es =>
    (0x11, leBytes 8 r ++ leBytes 2 es.length ++ leBytes 2 0 ++ es.flatMap (fun (e : Nat × Int) => leBytes 6 e.1 ++ leBytes 2 0 ++ leInt 4 e.2))
  | .refcountAck r => (0x12, leBytes 8 r)
  | .verifyReq desc => (0x20, desc)
  | .verifyReport seg res strip drive => (0x21, leBytes 4 seg ++ leBytes 1 res ++ leBytes 1 strip ++ leBytes 1 drive ++ leBytes 1 0)
  | .ownership op gen mask arg => (0x30, leBytes 1 op ++ leBytes 7 0 ++ leBytes 8 gen ++ leBytes 8 mask ++ leBytes 8 arg)
  | .update op epoch digest => (0x40, leBytes 1 op ++ leBytes 7 0 ++ leBytes 8 epoch ++ padTo 48 digest)
  | .unknown t => (t, [])

/-- R457: the class of what waits to be sent. -/
def sendClass (o : Out) : Nat :=
  match o with
  | .link (.heartbeat _ _ _ _) => 1
  | .link (.syncReq _) => 1
  | .link (.syncResp _ _ _ _) => 1
  | .link (.qpPair _ _) => 1
  | .link (.tephraBatch _ _ _ _) => 4
  | .link _ => 3
  | .ctrl _ _ _ _ => 0
  | _ => 2

/-- R457: sync messages begin at slot 0 of a DATA flit. -/
def isSync (o : Out) : Bool :=
  match o with
  | .link (.syncReq _) => true
  | .link (.syncResp _ _ _ _) => true
  | _ => false

/-- R451: the transport packets, with their context, of something that waits to be sent. -/
def Dev.cdxPackets (d : Dev) (o : Out) : List (Nat × List Byte) :=
  (d.wire o).map (fun b => (outCtx o, cdxPacket 1 0 d.slotId b))

/-! ### Sending (R440, R446, R448, R457) -/

/-- R448: a CTRL record's 16 bytes. -/
def ctrlBytes (ctype : Nat) (r : CtrlRec) : List Byte :=
  leBytes 1 ctype ++ leBytes 1 r.slot ++ leBytes 2 r.lanesOk ++ leBytes 1 r.width ++ leBytes 1 r.first ++ leBytes 2 r.expect ++
    leBytes 4 r.epochLo ++ leBytes 4 0

/-- Put a flit on the lanes; every flit carries the current ACKSEQ (R446). -/
def Dev.putFlit (d : Dev) (typ fseq : Nat) (payload : List Byte) : Dev :=
  { d with out := d.out ++ [.flit (flitSymbols typ fseq d.cdx.rxAck payload)] }

/-- R448: a CTRL flit, outside the retry buffer; its FSEQ is the next to be sent. -/
def Dev.sendCtrl (d : Dev) (ctype w first expect : Nat) : Dev :=
  d.putFlit 2 d.cdx.txNext (ctrlBytes ctype ⟨d.slotId, d.lanesOk, w, first, expect, d.epoch % 2 ^ 32⟩)

/-- What the transmitter may take: in SYNC only sync messages (R449). -/
def Dev.mayTake (d : Dev) (o : Out) : Bool := isSync o || decide (3 ≤ d.fld Reg.CDX_STS_LINK)

/-- The first link message of a class, and the queue without it. -/
def takeClass (ok : Out → Bool) (c : Nat) : List Out → Option (Out × List Out)
  | [] => none
  | o :: t => if sendClass o = c ∧ ok o then some (o, t) else (takeClass ok c t).map (fun x => (x.1, o :: x.2))

/-- R457: one packet per context in turn: the next context after the last served that has a packet. -/
def Dev.nextCtx (d : Dev) : Option Nat :=
  let qs := d.cdx.txPkts.map (·.1)
  match (List.range 64).find? (fun i => qs.contains ((d.cdx.lastCtx + 1 + i) % 64)) with
  | some i => some ((d.cdx.lastCtx + 1 + i) % 64)
  | none => none

/-- Remove the first packet of a context. -/
def dropPkt (q : Nat) : List (Nat × List Byte) → List (Nat × List Byte)
  | [] => []
  | p :: t => if p.1 = q then t else p :: dropPkt q t

/-- R457: the next packet, whether it must begin at slot 0, and the transmitter without it. -/
def Dev.nextPacket (d : Dev) : Option (List Byte × Bool × Dev) :=
  let msg (c : Nat) : Option (List Byte × Bool × Dev) :=
    match takeClass d.mayTake c d.cdx.txq with
    | some (.link m, rest) =>
      let b := msgBody m
      some (cdxPacket 2 b.1 d.slotId b.2, isSync (.link m), { d with cdx := { d.cdx with txq := rest } })
    | _ => none
  match msg 1 with
  | some x => some x
  | none =>
    match (if 3 ≤ d.fld Reg.CDX_STS_LINK then d.nextCtx else none) with
    | some q =>
      let p := ((d.cdx.txPkts.find? (fun (e : Nat × List Byte) => decide (e.1 = q))).map (·.2)).getD []
      some (p, false, { d with cdx := { d.cdx with txPkts := dropPkt q d.cdx.txPkts, lastCtx := q } })
    | none =>
      match msg 3 with
      | some x => some x
      | none => msg 4

/-- Fill the slots of the next flit with packets. -/
def Dev.fillSlots : Nat → Dev → Dev
  | 0, d => d
  | n + 1, d =>
    if 10 ≤ d.cdx.txSlots.length then d
    else
      match d.nextPacket with
      | none => d
      | some (p, sync, d1) =>
        let have_ := d1.cdx.txSlots
        let have' := if sync ∧ have_.length % 10 ≠ 0 then have_ ++ List.replicate (10 - have_.length % 10) (List.replicate 32 0) else have_
        Dev.fillSlots n { d1 with cdx := { d1.cdx with txSlots := have' ++ toSlots 130 p } }

/-- R446: send one DATA flit, if there is something to send and at most 255 wait for acknowledgement. -/
def Dev.sendData (d : Dev) : Dev :=
  let d1 := d.fillSlots 10
  if d1.cdx.txSlots.isEmpty ∨ 256 ≤ d1.cdx.unacked.length then d1
  else
    let pay := padTo 320 ((d1.cdx.txSlots.take 10).flatten)
    let f := d1.cdx.txNext
    let d2 := d1.putFlit 1 f pay
    let d3 := { d2 with
      cdx := { d2.cdx with
      txSlots := d2.cdx.txSlots.drop 10, txNext := (f + 1) % 512, unacked := d2.cdx.unacked ++ [TxFlit.mk f pay 1] } }
    ((d3.setFld Reg.CDX_RETRY_STS_UNACKED d3.cdx.unacked.length).bump Reg.CDX_FLITS_TX_COUNT 1).cond (!d3.armed tmFlitAck)
      (fun d => d.arm tmFlitAck)

/-- R439: flits that begin in the beat after edge `e`: a beat is 125 ns, a flit 1.6 ns at width 16. -/
def flitsPerBeat (w e : Nat) : Nat := 625 * w * (e + 1) / 128 - 625 * w * e / 128

/-- R449: INITs in beat `n` of a negotiation on `w` lanes: one every 64 flit times. -/
def initsPerBeat (w n : Nat) : Nat := 625 * w * (n + 1) / 8192 - 625 * w * n / 8192

/-- One beat of the transmitter: CTRL flits, then packets in the order of R457, and an IDLE flit where no DATA flit goes, which
carries the ACKSEQ. In NEGOTIATE it sends INIT with the widest group of its own lanes. -/
def Dev.cdxTransmit (d : Dev) : Dev :=
  let st := d.fld Reg.CDX_STS_LINK
  if st = 0 then d
  else
    let d0 := if st = 1 then
        match lanesChoice d.lanesOk with
        | some (w, f) => loop (fun _ d => d.sendCtrl 1 w f 0) (initsPerBeat w (d.age tmNegotiate)) d
        | none => d
      else d
    let d1 := d0.each (d0.cdx.txq.filter Out.isCtrl) (fun o d => match o with
      | .ctrl t w f e => d.sendCtrl t w f e
      | _ => d)
    let d2 := { d1 with
      cdx := { d1.cdx with
      txPkts := d1.cdx.txPkts ++ (d1.cdx.txq.filter (fun o => decide (sendClass o = 2))).flatMap d1.cdxPackets
      txq := d1.cdx.txq.filter (fun o => decide (sendClass o ≠ 0 ∧ sendClass o ≠ 2)) } }
    if st = 1 ∨ st = 4 then d2
    else
      let n := flitsPerBeat (d2.fld Reg.CDX_STS_WIDTH) d2.edges
      let before := d2.cdx.txNext
      let d3 := loop (fun _ d => d.sendData) n d2
      if d3.cdx.txNext = before then d3.putFlit 0 before [] else d3

/-! ### Retry (R446, R447) -/

/-- R465: replays and uncorrectable flits of the epoch. -/
def Dev.cdxEpoch (d : Dev) : Dev :=
  if d.cdx.ep = d.epoch then d else { d with cdx := { d.cdx with ep := d.epoch, replays := 0, bad := 0 } }

/-- R446, R447: send again, in order, from the FSEQ named; a flit already sent REPLAY_MAX times takes the link DOWN. -/
def Dev.replayFrom (d : Dev) (fseq : Nat) : Dev :=
  let l := d.cdx.unacked.dropWhile (fun (f : TxFlit) => decide (f.fseq ≠ fseq))
  match l with
  | [] => d
  | f :: _ =>
    if d.fld Reg.CDX_TIMERS_REPLAY_MAX ≤ f.sent then d.linkDown (some 1)
    else
      let keep := d.cdx.unacked.takeWhile (fun (f : TxFlit) => decide (f.fseq ≠ fseq))
      let d1 := d.cdxEpoch
      let d2 := { d1 with
        cdx := { d1.cdx with
        unacked := keep ++ l.map (fun (f : TxFlit) => { f with sent := f.sent + 1 }), replays := d1.cdx.replays + 1 } }
      let d3 := (d2.count 0 0x005 1).each l (fun (f : TxFlit) d => d.putFlit 1 f.fseq f.payload)
      ((((d3.bump Reg.CDX_FLITS_TX_COUNT l.length).bumpSat Reg.CDX_REPLAYS_COUNT 1).raiseOnce 1620 1620 d3.cdx.replays d3.cdx.bad 0)).arm tmFlitAck

/-- R446: an ACKSEQ is cumulative: it covers its flit and those before it. -/
def Dev.takeAck (d : Dev) (ack : Nat) : Dev :=
  if d.cdx.unacked.any (fun (f : TxFlit) => decide (f.fseq = ack)) then
    let rest := (d.cdx.unacked.dropWhile (fun (f : TxFlit) => decide (f.fseq ≠ ack))).drop 1
    let d1 := { d with cdx := { d.cdx with unacked := rest } }.setFld Reg.CDX_RETRY_STS_UNACKED rest.length
    if rest.isEmpty then d1.disarm tmFlitAck else d1.arm tmFlitAck
  else d

/-- R446: the receiver asks for the expected FSEQ, once until it arrives. -/
def Dev.askAgain (d : Dev) : Dev :=
  if d.cdx.nakWait then d
  else ({ d with cdx := { d.cdx with nakWait := true } }.sendCtrl 2 0 0 d.cdx.rxNext).arm tmFlitNak

/-- LANE_ERR_LIMIT, R438, R442: a corrected symbol counts against its lane; a lane whose count reaches the limit within 2^13 beats
stops. -/
def Dev.laneError (d : Dev) (s : Nat) : Dev :=
  let l := d.fld Reg.CDX_STS_FIRST + s % max 1 (d.fld Reg.CDX_STS_WIDTH)
  let old := if d.armed (tmLaneErr l) ∧ d.expired (tmLaneErr l) (2 ^ 13) = false then tget 0 d.cdx.laneErr l else 0
  let d1 := if old = 0 then d.arm (tmLaneErr l) else d
  let d2 := { d1 with cdx := { d1.cdx with laneErr := tput 0 d1.cdx.laneErr l (old + 1) } }.bumpSat (Reg.CDX_LANE_CORR_COUNT l) 1
  d2.cond (decide (d2.fld Reg.CDX_LANE_CFG_LANE_ERR_LIMIT ≤ old + 1)) (fun d => d.stopUnit (.lane l) 0x03)

/-- R448: the record of a CTRL flit. -/
def ctrlOf (bs : List Byte) : CtrlRec :=
  ⟨leField bs 1 1, leField bs 2 2, leField bs 4 1, leField bs 5 1, leField bs 6 2, leField bs 8 4⟩

/-- R448: the command that a CTRL flit gives. -/
def ctrlInstr (bs : List Byte) : List Instr :=
  match leField bs 0 1 with
  | 1 => [.initRecord (ctrlOf bs)]
  | 2 => [.nak (ctrlOf bs)]
  | 3 => [.width (ctrlOf bs)]
  | 4 => [.widthAck (ctrlOf bs)]
  | _ => []

/-- The slots of a payload. -/
def payloadSlots (pay : List Byte) : List (List Byte) := (List.range 10).map (fun i => padTo 32 (pay.drop (32 * i)))

/-- FLIT_RECEIVE, R440, R442, R446. -/
def Dev.flitReceive (d : Dev) (f : FlitRx) : Dev :=
  let st := d.fld Reg.CDX_STS_LINK
  let lost (d : Dev) : Dev :=
    let d1 := d.cdxEpoch
    ({ d1 with cdx := { d1.cdx with bad := d1.cdx.bad + 1 } }.bumpSat Reg.CDX_RS_UNCORR_COUNT 1).cond (decide (2 ≤ st)) Dev.askAgain
  if st = 0 then d
  else
    match f with
    | .bad => lost d
    | .good typ fseq ack pay corr =>
      -- R442: at most 7 symbols of a flit are corrected
      let d1 := if 7 < corr.length then d else (d.bump Reg.CDX_RS_CORR_COUNT corr.length).each corr (fun s d => d.laneError s)
      if 3 ≤ typ ∨ 7 < corr.length then lost d1
      else
        let d2 := if st = 1 then d1 else (d1.arm tmFlitLoss).takeAck (ack % 512)
        if typ = 2 then { d2 with cdx := { d2.cdx with inbox := d2.cdx.inbox ++ ctrlInstr pay } }
        else if typ = 0 ∨ st = 1 then d2
        else if fseq % 512 = d2.cdx.rxNext then
          ({ d2 with
              cdx := { d2.cdx with
              rxNext := (d2.cdx.rxNext + 1) % 512, rxAck := d2.cdx.rxNext, nakWait := false
              rxSlots := d2.cdx.rxSlots ++ payloadSlots pay } }.bump Reg.CDX_FLITS_RX_COUNT 1).disarm tmFlitNak
        else d2.askAgain

def execFlitReceive (f : FlitRx) (s : State) : Ans := lift (fun d => d.flitReceive f) s

/-- NAK_RESEND_TIMEOUT, R446. -/
def Dev.nakResend (d : Dev) : Dev :=
  if d.cdx.nakWait ∧ d.expired tmFlitNak (d.fld Reg.CDX_TIMERS_NAK_RESEND) then (d.sendCtrl 2 0 0 d.cdx.rxNext).arm tmFlitNak else d

def execNakResendTimeout (s : State) : Ans := lift Dev.nakResend s

/-- FLIT_ACK_TIMEOUT, R446. While the link resizes nothing is sent again (R449). -/
def Dev.flitAckTimeout (d : Dev) : Dev :=
  match d.cdx.unacked with
  | f :: _ => if d.fld Reg.CDX_STS_LINK ≠ 4 ∧ d.expired tmFlitAck (d.fld Reg.CDX_TIMERS_ACK_TIMEOUT) then d.replayFrom f.fseq else d
  | [] => d

def execFlitAckTimeout (s : State) : Ans := lift Dev.flitAckTimeout s

/-- R463: CDX_PEER shows the last CTRL record. -/
def Dev.notePeer (d : Dev) (r : CtrlRec) : Dev := (d.setFld Reg.CDX_PEER_LANES_OK r.lanesOk).setFld Reg.CDX_PEER_SLOT r.slot

/-- NAK, R446. While the link resizes nothing is sent again (R449). -/
def Dev.nakRecord (d : Dev) (r : CtrlRec) : Dev :=
  if d.fld Reg.CDX_STS_LINK < 2 ∨ d.fld Reg.CDX_STS_LINK = 4 then d
  else ((d.notePeer r).setFld Reg.CDX_RETRY_STS_LAST_NAK r.expect).replayFrom (r.expect % 512)

def execNak (r : CtrlRec) (s : State) : Ans := lift (fun d => d.nakRecord r) s

/-! ### Link states (R449, R450) -/

/-- LANE_START, R438: a lane's start sequence completes, or fails with NO_SIGNAL, MISWIRED or, after LANE_TIMEOUT beats, TRAIN_FAIL. -/
def Dev.laneStart (d : Dev) (l : Nat) (fail : Option Nat) (inv : Bool) : Dev :=
  if l < 16 ∧ d.ustate (.lane l) = .starting then
    match fail with
    | some c =>
      if d.canFail (.lane l) c = false then d
      else (d.setFlag (Reg.CDX_LANE_STS_SIGNAL l) (decide (c ≠ 1))).seqNote (.lane l) (.fail c)
    | none => ((d.setFld (Reg.CDX_LANE_STS_SIGNAL l) 1).setFlag (Reg.CDX_LANE_STS_INVERTED l) inv).seqNote (.lane l) .done
  else d

def execLaneStart (l : Nat) (fail : Option Nat) (inverted : Bool) (s : State) : Ans := lift (fun d => d.laneStart l fail inverted) s

/-- R449: from DOWN the link negotiates when a width exists and AUTO is 1. -/
def Dev.linkTry (d : Dev) : Dev :=
  if d.fld Reg.CDX_STS_LINK = 0 ∧ d.flag Reg.CDX_CTL_AUTO ∧ (lanesChoice d.lanesOk).isSome then
    ({ d with cdx := { d.cdx with inits := 0 } }.setFld Reg.CDX_STS_LINK 1).arm tmNegotiate
  else d

/-- R43: this head has the larger beat number, or they are equal and it is slot 0. INIT carries the epoch number of the peer alone (R448);
`low` is the peer's beat within its epoch, which spec/ does not say how a head learns. -/
def Dev.isReference (d : Dev) (peerEpoch : Nat) (low : Nat) : Bool :=
  let e := d.epoch % 2 ^ 32
  let own := e * Config.epochBeats + d.beat % Config.epochBeats
  let peer := peerEpoch * Config.epochBeats + low % Config.epochBeats
  decide (peer < own) || (decide (peer = own) && decide (d.slotId = 0))

/-- R449: the link enters SYNC on a group; FSEQ and ACKSEQ are 0. -/
def Dev.enterSync (d : Dev) (w first peerEpoch : Nat) : Dev :=
  let d1 := { ((d.setFld Reg.CDX_STS_LINK 2).useGroup w first) with
    cdx := { d.cdx with
    txNext := 0, rxNext := 0, rxAck := 0, unacked := [], txSlots := [], rxSlots := [], txPkts := [], nakWait := false, inits := 0 }
    sync := { d.sync with awaiting := false, measured := false, slew := 0 } }
  let (n, d1) := d1.draw
  (((d1.setFld Reg.GLB_SYNC_STS_ROLE (if d1.isReference peerEpoch (Config.freeNat n) then 1 else 2)).setFld Reg.GLB_SYNC_OFFSET_OFFSET 0).disarm tmNegotiate).arm tmFlitLoss

/-- INIT, R449, R621: 8 records that agree with this head's choice. Two heads in one slot stay in NEGOTIATE. -/
def Dev.initRecord (d : Dev) (r : CtrlRec) : Dev :=
  if d.fld Reg.CDX_STS_LINK ≠ 1 then d
  else
    let d1 := d.notePeer r
    if r.slot = d1.slotId ∨ d1.flag Reg.FIS_STS_SLOT_CONFLICT then
      if d1.flag Reg.FIS_STS_SLOT_CONFLICT then d1
      else (d1.setFld Reg.FIS_STS_SLOT_CONFLICT 1).raise 29 d1.slotId r.lanesOk 0
    else if d1.linkChoice = some (r.width, r.first) then
      if d1.cdx.inits + 1 < 8 then { d1 with cdx := { d1.cdx with inits := d1.cdx.inits + 1 } }
      else d1.enterSync r.width r.first r.epochLo
    else d1

def execInitRecord (r : CtrlRec) (s : State) : Ans := lift (fun d => d.initRecord r) s

/-- WIDTH, R449: the link enters RESIZE; a width that this head accepts is answered with WIDTH_ACK. -/
def Dev.widthRecord (d : Dev) (r : CtrlRec) : Dev :=
  if d.linkSends = false then d
  else
    let d1 := d.notePeer r
    let d2 := if d1.linkUp then d1.resize else d1
    if d2.linkChoice = some (r.width, r.first) then d2.emit (.ctrl 4 r.width r.first 0) else d2

def execWidth (r : CtrlRec) (s : State) : Ans := lift (fun d => d.widthRecord r) s

/-- WIDTH_ACK, R449, R450: back to UP on the new group; flits are sent again from the oldest unacknowledged. -/
def Dev.widthAck (d : Dev) (r : CtrlRec) : Dev :=
  if d.fld Reg.CDX_STS_LINK ≠ 4 then d
  else
    let d1 := d.notePeer r
    if d1.linkChoice = some (r.width, r.first) then
      let old := d1.fld Reg.CDX_STS_WIDTH
      let d2 := (((d1.setFld Reg.CDX_STS_LINK 3).useGroup r.width r.first).disarm tmResize).arm tmFlitLoss
      let d3 := d2.cond (decide (old ≠ r.width ∨ d1.fld Reg.CDX_STS_FIRST ≠ r.first)) (fun d => d.raise 1618 old r.width r.first)
      match d3.cdx.unacked with
      | f :: _ => d3.replayFrom f.fseq
      | [] => d3
    else d1

def execWidthAck (r : CtrlRec) (s : State) : Ans := lift (fun d => d.widthAck r) s

/-- NEGOTIATE_TIMEOUT, R449. With both heads in one slot the link does not leave NEGOTIATE (R621). -/
def Dev.negotiateTimeout (d : Dev) : Dev :=
  if d.fld Reg.CDX_STS_LINK = 1 ∧ d.expired tmNegotiate (2 ^ 14) ∧ d.flag Reg.FIS_STS_SLOT_CONFLICT = false then
    (d.linkDown none).raise 1619 d.lanesOk (d.fld Reg.CDX_PEER_LANES_OK) 0
  else d

def execNegotiateTimeout (s : State) : Ans := lift Dev.negotiateTimeout s

/-- RESIZE_TIMEOUT, R449. -/
def Dev.resizeTimeout (d : Dev) : Dev :=
  if d.fld Reg.CDX_STS_LINK = 4 ∧ d.expired tmResize 512 then d.linkDown (some 3) else d

def execResizeTimeout (s : State) : Ans := lift Dev.resizeTimeout s

/-- LOSS_TIMEOUT, R447, R449: in SYNC and UP. -/
def Dev.lossTimeout (d : Dev) : Dev :=
  if (d.fld Reg.CDX_STS_LINK = 2 ∨ d.fld Reg.CDX_STS_LINK = 3) ∧ d.expired tmFlitLoss (d.fld Reg.CDX_TIMERS_LOSS_TIMEOUT) then d.linkDown (some 2) else d

def execLossTimeout (s : State) : Ans := lift Dev.lossTimeout s

/-- LINK_WIDEN, R449: at an epoch edge, when both masks allow a wider group. -/
def Dev.linkWiden (d : Dev) : Dev :=
  match d.linkChoice with
  | some (w, _) =>
    if d.linkUp ∧ d.flag Reg.CDX_CTL_WIDEN_EN ∧ d.newEpoch ∧ d.fld Reg.CDX_STS_WIDTH < w then d.resize else d
  | none => d

def execLinkWiden (s : State) : Ans := lift Dev.linkWiden s

/-- LINK_UP, R449, R458: the first offset is measured and its step taken, or the first reply sent. REFCOUNT records not yet
acknowledged are sent again. -/
def Dev.linkIsUp (d : Dev) : Dev :=
  if d.fld Reg.CDX_STS_LINK = 2 ∧ d.sync.measured ∧ d.stepPend = 0 then
    let d1 := (d.setFld Reg.CDX_STS_LINK 3).raise 1616 (d.fld Reg.CDX_STS_WIDTH) (d.fld Reg.CDX_STS_FIRST) 0
    let l := d1.mde.remote
    let d2 := d1.each l (fun (r : RemoteRef) d => d.emit (.link (.refcount r.rseq [(r.grid, r.delta)])))
    let d3 := { d2 with
      mde := { d2.mde with remote := l.map (fun (r : RemoteRef) => { r with sent := true }) }, edge := d2.edge ++ [.linkUp] }
    if l.isEmpty then d3 else (d3.setFld Reg.MDE_STS_REMOTE_HELD 0).raise 1622 l.length 0 0
  else d

def execLinkUp (s : State) : Ans := lift Dev.linkIsUp s

/-! ### Receiving packets (R444, R445, R451 to R455) -/

/-- R463, R465: a packet is dropped. -/
def Dev.badPacket (d : Dev) (kind mtype : Nat) : Dev :=
  let d1 := d.bumpSat Reg.CDX_PKT_BAD_COUNT 1
  d1.raiseOnce 1621 1621 kind mtype (d1.fld Reg.CDX_PKT_BAD_COUNT)

/-- R497: the command that an OWNERSHIP message gives. HANDOVER takes data from the drives: it is held until they have read it. -/
def ownershipInstr (op gen mask arg : Nat) : Option Instr :=
  match op with
  | 0x01 => some (.joinReq gen arg)
  | 0x02 => some (.joinAck gen arg)
  | 0x03 => some (.resyncCommit gen arg)
  | 0x04 => some (.resyncAck gen arg)
  | 0x05 => some (.resyncDone gen arg)
  | 0x06 => some (.handoverReq gen mask)
  | 0x07 => none
  | 0x08 => some (.handoverAck gen mask)
  | 0x09 => some (.handoverAbort gen mask arg)
  | 0x0A => some (.leave gen)
  | _ => none

/-- R644: the command that an UPDATE message gives. -/
def updateInstr (op epoch : Nat) (digest : List Byte) : Option Instr :=
  match op with
  | 0x01 => some (.updateStaged digest)
  | 0x02 => some (.updateArm epoch digest)
  | 0x03 => some (.updateArmAck digest)
  | 0x04 => some (.updateArmNak digest)
  | 0x05 => some .updateCancel
  | 0x06 => some (.updatePhaseDone (epoch % 256) digest)
  | 0x07 => some (.updateRevert (epoch % 256) digest)
  | 0x08 => some (.updateCommit digest)
  | _ => none

/-- R455: a link message from its MTYPE and body; one of another length than its type's is none. -/
def msgOf (mtype : Nat) (b : List Byte) : Option LinkMsg :=
  let f := leField b
  let n := b.length
  match mtype with
  | 0x01 => if n ≠ 24 then none else some (.heartbeat (BitVec.ofNat 32 (f 0 4)) (f 4 8) (f 12 1) (f 16 8))
  | 0x02 => if n ≠ 4 then none else some (.syncReq (BitVec.ofNat 32 (f 0 4)))
  | 0x03 => if n ≠ 16 then none else some (.syncResp (BitVec.ofNat 32 (f 0 4)) (f 4 8) (f 12 2) (f 14 2))
  | 0x04 => if n ≠ 4 ∨ (f 1 1 ≠ 1 ∧ f 1 1 ≠ 2) then none else some (.qpPair (f 0 1 % 64) (decide (f 1 1 = 1)))
  | 0x10 =>
    let c := f 6 2
    if n ≠ 8 + 16 * c ∨ c = 0 ∨ 253 < c then none
    else some (.tephraBatch (BitVec.ofNat 32 (f 0 4)) (f 4 2 % 2 ^ 15) (decide (2 ^ 15 ≤ f 4 2))
      ((List.range c).map (fun i => (b.drop (8 + 16 * i)).take 16)))
  | 0x11 =>
    let c := f 8 2
    if n ≠ 12 + 12 * c then none
    else some (.refcount (f 0 8) ((List.range c).map (fun i => (f (12 + 12 * i) 6, intOf 4 (f (20 + 12 * i) 4)))))
  | 0x12 => if n ≠ 8 then none else some (.refcountAck (f 0 8))
  | 0x20 => if n ≠ 256 then none else some (.verifyReq (b.take 256))
  | 0x21 => if n ≠ 8 then none else some (.verifyReport (f 0 4) (f 4 1) (f 5 1) (f 6 1))
  | 0x30 => if n ≠ 32 then none else some (.ownership (f 0 1) (f 8 8) (f 16 8) (f 24 8))
  | 0x40 => if n ≠ 64 then none else some (.update (f 0 1) (f 8 8) ((b.drop 16).take 48))
  | _ => none

/-- The command that a link message gives, or the message itself, where its work takes data from the drives. HOLD of a sync reply is a
free value: the core cycle of the request's arrival is not modelled. -/
def Dev.takeMsg (d : Dev) (m : LinkMsg) : Dev :=
  let put (d : Dev) (l : List Instr) : Dev := { d with cdx := { d.cdx with inbox := d.cdx.inbox ++ l } }
  match m with
  | .heartbeat seq beat st own => put d [.heartbeat seq beat st own]
  | .syncReq id =>
    let (n, d1) := d.draw
    put d1 [.syncReq id (Config.freeNat n % 2 ^ 16)]
  | .syncResp id b c h => put d [.syncResp id b c h]
  | .qpPair q start => put d [.qpPair q start]
  | .tephraBatch seq part last es => put d [.tephraBatch seq part last es]
  | .refcount r es => put d [.refcount r es]
  | .refcountAck r => put d [.refcountAck r]
  | .verifyReq _ => { d with cdx := { d.cdx with held := d.cdx.held ++ [m] } }
  | .verifyReport seg res strip drive => put d [.verifyReport seg res strip drive]
  | .ownership op gen mask arg =>
    if op = 0x07 then { d with cdx := { d.cdx with held := d.cdx.held ++ [m] } } else put d (ownershipInstr op gen mask arg).toList
  | .update op epoch digest => put d (updateInstr op epoch digest).toList
  | .unknown _ => d

/-- A base transport header's opcode as operation, place and extension headers: RETH, immediate. -/
def opOfBth (op : Nat) : Option (RcOp × PktPos × Bool × Bool) :=
  match op with
  | 0x00 => some (.send, .first, false, false) | 0x01 => some (.send, .middle, false, false)
  | 0x02 => some (.send, .last, false, false) | 0x03 => some (.send, .last, false, true)
  | 0x04 => some (.send, .only, false, false) | 0x05 => some (.send, .only, false, true)
  | 0x06 => some (.write, .first, true, false) | 0x07 => some (.write, .middle, false, false)
  | 0x08 => some (.write, .last, false, false) | 0x09 => some (.write, .last, false, true)
  | 0x0A => some (.write, .only, true, false) | 0x0B => some (.write, .only, true, true)
  | 0x0C => some (.readReq, .only, true, false) | 0x13 => some (.atomic, .only, false, false)
  | 0x14 => some (.atomic, .only, false, false)
  | 0x16 => some (.sendInv, .last, false, true) | 0x17 => some (.sendInv, .only, false, true)
  | _ => none

/-- R451, R452: a transport packet on contexts 0 to 63; `b` begins at its base transport header. -/
def Dev.cdxTransport (d : Dev) (b : List Byte) : Dev :=
  let op := leField b 0 1
  let pad := leField b 1 1 / 16 % 4
  let q := beField b 5 3
  let psn : Psn := BitVec.ofNat 24 (beField b 9 3)
  let dq : Psn := BitVec.ofNat 24 q
  if op = 0x11 then
    let syn := leField b 12 1
    let put (i : Instr) : Dev := { d with cdx := { d.cdx with inbox := d.cdx.inbox ++ [i] } }
    if syn / 32 % 4 = 0 then put (.ackReceive ⟨none, dq⟩ 0 psn (if syn % 32 = 31 then creditUnlimited else aethCredits.getD (syn % 32) 0) 0)
    else if syn / 32 % 4 = 1 then put (.rnrNakReceive ⟨none, dq⟩ 0 ⟨psn, syn % 32⟩)
    else put (.nakReceive ⟨none, dq⟩ 0 psn (match syn % 32 with
      | 0 => .seqErr
      | 1 => .invalidReq
      | 2 => .remoteAccess
      | _ => .remoteOp))
  else
    match opOfBth op with
    | none => d.bumpSat Reg.XPT_DROP_COUNT 1
    | some (rc, pos, hasReth, hasImm) =>
      let h := 12 + (if hasReth then 16 else 0)
      let off := h + (if hasImm then 4 else 0)
      let pkt : Packet := {
        dqpn := dq, sqpn := 0, op := rc, pos := pos, psn := psn, icrcOk := true, ecnCe := false, frameLen := 0, tags := [], dscp := 0
        imm := if hasImm then some (BitVec.ofNat 32 (beField b h 4)) else none
        reth := if hasReth then some ⟨beField b 12 8, BitVec.ofNat 32 (beField b 20 4), beField b 24 4⟩ else none
        mp := none, payload := (b.drop off).take (b.length - off - pad) }
      d.arrive none dq (fun q d => d.qpPacket q pkt)

/-- The slots received from the next packet on: idle slots are skipped (R444). -/
def skipIdle : List (List Byte) → List (List Byte)
  | [] => []
  | s :: t => if leField s 0 2 = 0 then skipIdle t else s :: t

/-- CREDIOX_PACKET, R444, R445, R455: the next packet of the slot stream, once all its slots are here. -/
def Dev.credioxPacket (d : Dev) : Dev :=
  let l := skipIdle d.cdx.rxSlots
  match l with
  | [] => { d with cdx := { d.cdx with rxSlots := [] } }
  | s :: _ =>
    let len := leField s 0 2
    let n := (len + 31) / 32
    if l.length < n then { d with cdx := { d.cdx with rxSlots := l } }
    else
      let p := (l.take n).flatten.take len
      let d1 := { d with cdx := { d.cdx with rxSlots := l.drop n } }
      let kind := leField p 2 1
      let mtype := leField p 3 1
      let body := (p.drop 8).take (len - 12)
      if len < 16 ∨ 4160 < len ∨ crcGood p = false then d1.badPacket kind mtype
      else if kind = 1 then d1.cdxTransport body
      else if kind = 2 ∧ len ≤ 4096 then
        match msgOf mtype body with
        | none => d1.badPacket kind mtype
        | some m => d1.takeMsg m
      else d1.badPacket kind mtype

def execCredioxPacket (s : State) : Ans := lift Dev.credioxPacket s

/-! ### Pairs of contexts (R685) -/

/-- QP_PAIR, R685. -/
def Dev.qpPair (d : Dev) (q : Nat) (start : Bool) : Dev :=
  if 64 ≤ q then d
  else
    let st := d.ustate (.qp q)
    if start then
      match st with
      | .off => d.updWork q (fun w => { w with partnerStart := true })
      | .starting => d.updWork q (fun w => { w with peerReady := true })
      | _ => (d.updWork q (fun w => { w with partnerStart := true })).stopUnit (.qp q) qpPeerRestart
    else if st = .starting ∨ st = .on ∨ st = .pendOn then d.stopUnit (.qp q) qpPeerRestart
    else d

def execQpPair (q : Nat) (start : Bool) (s : State) : Ans := lift (fun d => d.qpPair q start) s

/-- QP_PAIR_TIMEOUT, R685: no START of the peer within 2^14 beats. -/
def Dev.qpPairTimeout (d : Dev) (q : Nat) : Dev :=
  if q < 64 ∧ d.ustate (.qp q) = .starting ∧ (d.work q).peerReady = false ∧ d.expired (tmStart (.qp q)) (2 ^ 14) then
    (d.seqNote (.qp q) (.fail qpPeerRestart)).emit (.link (.qpPair q false))
  else d

def execQpPairTimeout (q : Nat) (s : State) : Ans := lift (fun d => d.qpPairTimeout q) s

/-! ### Heartbeats (R460, R487) -/

/-- R487: FOV_STATE. -/
def Dev.fovStateByte (d : Dev) : Nat :=
  d.fld Reg.FOV_STS_STATE + (if d.vaultThrough then 8 else 0) + (if d.flag Reg.GLB_CAL_STS_HOLDUP_LOW then 0 else 16) +
    (if d.flag Reg.FOV_STS_WRITE_HOLD then 32 else 0)

/-- The groups that this head owns: bit g for group g + 1. -/
def Dev.ownMask (d : Dev) : Nat := (List.range 64).foldl (fun n g => n + d.fld (Reg.NVT_ANA_OWN g) * 2 ^ g) 0

/-- HEARTBEAT_SEND, R460, R470: in UP, at beat edges whose number is a multiple of 64, not in START or FENCED. -/
def Dev.heartbeatSend (d : Dev) : Dev :=
  if d.linkUp ∧ d.beat % 64 = 0 ∧ d.cdx.hbSent ≠ d.beat + 1 ∧ d.fld Reg.FOV_STS_STATE ≠ 0 ∧ d.fld Reg.FOV_STS_STATE ≠ 7 ∧ d.geyOver = false then
    let n := d.cdx.hbSeq + 1
    { d with cdx := { d.cdx with hbSeq := n, hbSent := d.beat + 1 } }.emit (.link (.heartbeat n d.beat d.fovStateByte d.ownMask))
  else d

def execHeartbeatSend (s : State) : Ans := lift Dev.heartbeatSend s

end Sys2Proof.Machine
end

