-- ==== Sys2Proof/Machine/ReadPath.lean ====
section
/-! DEFINITION. The read path: how a read is resolved, the way of a record from a drive to the host, reconstruction, and the
commands READ, COMPARE and VERIFY (R362 to R380, R213, R214, R256, R290 to R292, R684). -/
namespace Sys2Proof.Machine

/-! ### The grains of a read -/

def Dev.rdOf (d : Dev) (r : Nat) : RdGrain := tget {} d.rd.reads r
def Dev.updRd (d : Dev) (r : Nat) (f : RdGrain → RdGrain) : Dev :=
  { d with rd := { d.rd with reads := tupd {} d.rd.reads r f } }
def Dev.dropRd (d : Dev) (r : Nat) : Dev := { d with rd := { d.rd with reads := tput {} d.rd.reads r {} } }

/-- The grains of a tag's read. -/
def Dev.readsOf (d : Dev) (t : Nat) : List (Nat × RdGrain) := d.rd.reads.filter (fun e => decide (e.2.tag = t))

/-- A grain of a read that is in the path: neither sent nor failed. -/
def RdGrain.active (r : RdGrain) : Bool := match r.step with
  | .sent | .gone | .failed _ => false
  | _ => true

/-- R383: INFLIGHT of a slice follows its grains in the read path. -/
def Dev.refreshRd (d : Dev) (s : Nat) : Dev :=
  let l := d.rd.reads.filter (fun e => decide (e.2.slice = s) && e.2.active && (decide (e.2.grid ≠ 0) || decide (e.2.step = .calWait)) && !e.2.reloc)
  (d.setFld (Reg.SLI_RD_STS_INFLIGHT s) (min 16383 l.length)).setFlag (Reg.SLI_RD_STS_RBUF_WAIT s)
    (l.any (fun e => decide (e.2.step = .bufWait)))

/-- R365: references that reads hold on a segment. -/
def Dev.segRefs (d : Dev) (seg : Nat) : Nat := tget 0 d.rd.segRefs seg

/-- R365: the drive read and any reconstruction of a grain have ended: its segment reference drops. -/
def Dev.dropSegRef (d : Dev) (r : Nat) : Dev :=
  let x := d.rdOf r
  if x.segRef then
    (d.updRd r (fun x => { x with segRef := false })).updRd r id |> fun d =>
      { d with rd := { d.rd with segRefs := tupd 0 d.rd.segRefs x.seg (fun n => n - 1) } }
  else d

/-- R272: the descriptor that the segment table holds of a segment. -/
def Dev.segDesc (d : Dev) (seg : Nat) : Option SegDesc := descOf (d.segEnt seg).desc

/-- The strip and the unit of a place. -/
def RdGrain.strip (r : RdGrain) : Nat := r.off / 512
def RdGrain.unit (r : RdGrain) : Nat := r.off % 512

/-- R305: a set of strips as a mask. -/
def stripMask (e : List Nat) : Nat := e.foldl (fun n s => n ||| 2 ^ s) 0

/-! ### Delivery (R368 to R370) -/

/-- R127, R368: read data of a command goes to its host, or at the owner of a forwarded command to the receiving head. -/
def Dev.deliverRead (d : Dev) (t off : Nat) (bs : List Byte) : Dev :=
  let x := d.tag t
  match x.cmd with
  | none => d
  | some c =>
    if c.fwdIn then
      d.each (fwdParts (cmdRange c (d.vol x.vol)).1 (bs.length / 32768 + 1) 0 bs.length) (fun p d =>
        d.post c.qp ⟨.send, fwdHeader 2 (t / Config.tagsPerSlice) c.fwdTag x.vol c.hostIdx (off + p.1) p.2 ++
          (bs.drop p.1).take p.2, .fwd t, none⟩)
    else d.toHost t off bs

/-- Add a grain of a read. -/
def Dev.addRd (d : Dev) (x : RdGrain) : Nat × Dev :=
  (d.rd.next, { d with rd := { d.rd with next := d.rd.next + 1, reads := tput {} d.rd.reads d.rd.next x } })

/-- R370: the failing block at the lowest address. -/
def worstAt (l : List (Nat × RdGrain)) : Option (Nat × Status) :=
  l.foldl (fun (best : Option (Nat × Status)) e => match e.2.step, best with
    | .failed st, none => some (e.2.lo, st)
    | .failed st, some b => if e.2.lo < b.1 then some (e.2.lo, st) else best
    | _, _ => best) none
def worstRead (l : List (Nat × RdGrain)) : Option Status := (worstAt l).map (·.2)

/-- R370: the failing block's LBA goes into the Error Information log of the controller, whose newest 64 entries are kept. A forwarded command's
controller is the peer's. -/
def Dev.logFailed (d : Dev) (t : Nat) (l : List (Nat × RdGrain)) : Dev :=
  match worstAt l, (d.tag t).cmd with
  | some (lo, st), some c =>
    if c.fwdIn then d
    else
      let v := d.vol (d.tag t).vol
      d.updCtrl (d.ctrlOf c.qp) (fun x => { x with
        errors := x.errors + 1
        errLog := (⟨x.errors + 1, (d.bind c.qp).qid, c.cid.toNat, statusCode st, lo / v.blk, v.nsid⟩ :: x.errLog).take 64 })
  | _, _ => d

/-- R684: the data of a Compare's range as the read path found it. -/
def readBack (l : List (Nat × RdGrain)) (lo n : Nat) : List Byte :=
  (List.range n).map (fun i =>
    match l.find? (fun e => decide (e.2.lo ≤ lo + i) && decide (lo + i < e.2.hi)) with
    | some e => e.2.data.getD (lo + i - e.2.lo) 0
    | none => 0)

/-- The grains of a command that has ended are forgotten, but for those whose references are still held. -/
def Dev.forgetReads (d : Dev) (t : Nat) : Dev :=
  d.each (((d.readsOf t).filter (fun (e : Nat × RdGrain) => !e.2.segRef && e.2.dirRef.isNone && decide (e.2.pages = 0) && !e.2.driveBusy)).map (·.1))
    (fun r d => d.dropRd r)

/-- R370, R372: the completion of a command that reads. -/
def Dev.readClose (d : Dev) (t : Nat) (l : List (Nat × RdGrain)) (st : Status) : Dev := ((d.logFailed t l).complete t st none).forgetReads t

/-- R684: one beat of the end of a Compare whose range has been read: the beat in which its data is whole too is marked, the comparison is made in
the beat after, and the completion is posted in the beat after that. -/
def Dev.compareEnd (d : Dev) (t : Nat) (c : HostCmd) (l : List (Nat × RdGrain)) (st : Option Status) : Dev :=
  let x := d.tag t
  if x.fetched < x.left then d
  else if x.ended = 0 then d.updTag t (fun x => { x with ended := d.edges + 1 })
  else if x.ended = d.edges + 1 then d
  else if x.judged = 0 then
    let r := cmdRange c (d.vol x.vol)
    let same := decide (readBack l r.1 (r.2 - r.1) = (c.data ++ x.data).take (r.2 - r.1))
    d.updTag t (fun x => { x with judged := d.edges + 1, status := some (st.getD (if same then stSuccess else stCompare)) })
  else if x.judged = d.edges + 1 then d
  else d.readClose t l (x.status.getD stSuccess)

/-- R127, R368: data of a command still waits to leave its queue pair. -/
def Dev.dataQueued (d : Dev) (t : Nat) (c : HostCmd) : Bool :=
  (d.work c.qp).sendQ.any (fun w => decide (w.prod = .hostData t) || decide (w.prod = .fwd t))

/-- R368, R372: a Read whose grains are all sent or failed: its completion is posted in the beat after the last of its data has left. -/
def Dev.readPosts (d : Dev) (t : Nat) (c : HostCmd) (l : List (Nat × RdGrain)) (st : Option Status) : Dev :=
  let x := d.tag t
  if l.any (fun e => decide (e.2.step = .sent)) && decide (x.ended = 0) then d.updTag t (fun x => { x with ended := d.edges + 1 })
  else if x.ended = d.edges + 1 ∨ d.dataQueued t c then d
  else d.readClose t l (st.getD stSuccess)

/-- R368, R370, R111, R684: once every grain of a command's read is sent or failed the command ends; a Compare also waits for its
own data. -/
def Dev.readEnd (d : Dev) (t : Nat) : Dev :=
  let x := d.tag t
  let l := d.readsOf t
  match x.cmd with
  | none => d
  | some c =>
    if x.state ≠ .running ∨ x.begun = false ∨ x.posted ∨ l.any (fun e => e.2.active) then d
    else
      let st := worstRead l
      if c.opcode = opCompare then d.compareEnd t c l st
      else if c.opcode = opRead then d.readPosts t c l st
      else d.readClose t l (st.getD stSuccess)

/-- R369, R370: a grain's wanted bytes have been found: a Read sends them, a Compare keeps them, a Verify drops them. -/
def Dev.rdSend (d : Dev) (r : Nat) (grain : List Byte) : Dev :=
  let x := d.rdOf r
  let t := d.tag x.tag
  match t.cmd with
  | none => d.dropRd r
  | some c =>
    let bs := (grain.drop (x.lo - x.goff)).take (x.hi - x.lo)
    let d1 := d.updRd r (fun x => { x with step := .sent, bytes := [], data := if c.opcode = opCompare then bs else [] })
    let d2 :=
      if c.opcode = opRead then
        (d1.bump (Reg.SLI_RD_BYTES_BYTES x.slice) bs.length).deliverRead x.tag (x.lo - (cmdRange c (d1.vol t.vol)).1) bs
      else d1
    (d2.refreshRd x.slice).readEnd x.tag

/-- R292, R377: the erasure unit does no more for a grain. -/
def Dev.dropSolve (d : Dev) (r : Nat) : Dev :=
  d.updSlice (d.rdOf r).slice (fun y => { y with jobs := y.jobs.filter (fun j => !(decide (j.eng = .ecu) && decide (j.who = .read r))) })

/-- R336: a record that cannot be read or opened is not relocated. -/
def Dev.relocGone (d : Dev) (r : Nat) : Dev :=
  let x := d.rdOf r
  (((d.dropSolve r).dropSegRef r).dropRd r).relocLess x.seg x.grid

/-- R336: a record has been decrypted for its relocation; it waits for a place, unless it is no more in its old one. -/
def Dev.relocOpened (d : Dev) (r : Nat) (bs : List Byte) : Dev :=
  let x := d.rdOf r
  let g := d.grec x.grid
  if g.state ≠ .placed ∨ g.seg ≠ x.seg ∨ g.off ≠ x.off then d.relocGone r
  else
    let d1 := (d.dropSegRef r).dropRd r
    { d1 with lay := { d1.lay with relocQ := d1.lay.relocQ ++ [⟨.reloc x.seg, tyData, 0, 0, x.grid, x.gsize, x.raw, g.fp, x.kslot, 0, bs, []⟩] } }

/-- R370: a grain failed; nothing of it is sent. -/
def Dev.rdFail (d : Dev) (r : Nat) (st : Status) : Dev :=
  let x := d.rdOf r
  if x.reloc then d.relocGone r else
  let d := d.dropSolve r
  let d1 := (d.updRd r (fun x => { x with step := .failed st, bytes := [] })).dropSegRef r
  let d2 := d1.bumpSat (Reg.SLI_RD_FAILED_COUNT x.slice) 1
  ((d2.raiseOnce (0x20000 + x.slice) (sliceSrc x.slice 22) (d2.tag x.tag).vol (statusCode st) x.grid).refreshRd x.slice).readEnd x.tag

/-! ### A record on its way (R365 to R367, R375 to R379) -/

/-- R290: a record found in a byte range of strip s passes its checks: header, tag, and decompression with its CRC. A record whose
key is erased is not checked further. -/
def recordPasses (keyOf : Nat → Option (Nat × List Byte)) (h : RecHdr) (bs : List Byte) : Bool :=
  match openBytes keyOf h bs with
  | .tagMismatch => false
  | .keyErased => true
  | .ok out => if h.typ = tyData ∧ h.flags % 2 = 0 then decide (sinterDecode out h.lsize ≠ .malformed ∧ sinterDecode out h.lsize ≠ .crcMismatch) else true

/-- The records found in a range of `bs` from unit `base` of strip s. -/
def rangeRecs (seg s base : Nat) (bs : List Byte) : List (Nat × RecHdr) := (scanStrip seg s base bs 513 0).1

/-- R290: every record of a strip that lies wholly in the range passes. -/
def stripPasses (keyOf : Nat → Option (Nat × List Byte)) (seg s base : Nat) (bs : List Byte) : Bool :=
  (rangeRecs seg s base bs).all (fun r => recordPasses keyOf r.2 (atUnit bs r.1))

/-- R290: a padding byte behind a record of a range is not zero. -/
def paddingBad (seg s base : Nat) (bs : List Byte) : Bool :=
  (rangeRecs seg s base bs).any (fun r =>
    !(((atUnit bs r.1).take (512 * unitsOf r.2.slen)).drop (64 + r.2.slen)).all (fun b => b = 0))

/-- R290: strips joined to E once. -/
def joinE (e new : List Nat) : List Nat := e ++ new.filter (fun s => !(e.contains s))

/-- R290: the surviving data strips of which a record that lies wholly in the range fails its checks. -/
def failing (keyOf : Nat → Option (Nat × List Byte)) (seg k base : Nat) (e : List Nat) (col : Nat → List Byte) : List Nat :=
  (List.range k).filter (fun s => !(e.contains s) && !stripPasses keyOf seg s base (col s))

/-- R286, R377: the strips that a round reads: the surviving data strips, and as many parity rows as E holds data strips. -/
def reconWants (k m : Nat) (e : List Nat) : List Nat :=
  (List.range k).filter (fun s => !(e.contains s)) ++ (solveRows k m e).map (fun i => k + i)

/-- The bytes of strip s that a reconstruction has. -/
def RdGrain.col (x : RdGrain) (s : Nat) : List Byte := ((x.cols.find? (fun c => decide (c.1 = s))).map (·.2)).getD []

/-- R381: the class of a grain's drive commands. -/
def RdGrain.drvClass (x : RdGrain) : Nat := if x.reloc then 3 else 1

/-- R377, R379: read one more strip over a record's units; a strip on a drive out of service is an erasure without a command. -/
def Dev.reconRead (d : Dev) (r s : Nat) : Dev :=
  let x := d.rdOf r
  match (d.segDesc x.seg).bind (fun y => y.strips[s]?) with
  | none => d.updRd r (fun x => { x with e := joinE x.e [s] })
  | some (a, loc) =>
    if !d.inService a then d.updRd r (fun x => { x with e := joinE x.e [s] })
    else
      let n := 512 * unitsOf x.slen
      (d.updRd r (fun x => { x with asked := x.asked ++ [s] })).askDrive a
        { req := .column r s, cls := x.drvClass, op := 0x02, slice := x.slice, lba := d.lbaOf a (loc * stripBytes + 512 * x.unit)
          nlb := d.lbaOf a n, arg := n }

/-- R287, R290, R292, R300, R377: what a record's reconstruction does next: read the strips that it has not read, join to E those whose records fail
before the first round, or give the round to the erasure unit. With more than m strips in E the round only ends it. -/
def Dev.reconNext (d : Dev) (r : Nat) (y : SegDesc) : Nat → Dev
  | 0 => d
  | fuel + 1 =>
    let x := d.rdOf r
    if y.m < x.e.length then d.updRd r (fun x => { x with solve := .solved })
    else
      let need := (reconWants y.k y.m x.e).filter (fun s => !(x.asked.contains s) && !(x.cols.any (fun c => decide (c.1 = s))))
      let bad := if x.rounds = 0 then failing d.slotKey x.seg y.k x.unit x.e x.col else []
      if !need.isEmpty then (d.each need (fun s d => d.reconRead r s)).reconNext r y fuel
      else if !x.asked.isEmpty then d
      else if !bad.isEmpty then (d.updRd r (fun x => { x with e := joinE x.e bad, portOnly := false })).reconNext r y fuel
      else
        (d.updRd r (fun x => { x with solve := .solving, e0 := if x.rounds = 0 then x.e else x.e0 })).addJobFor x.slice .ecu
          (if x.reloc then 3 else 1) (512 * unitsOf x.slen * (y.k + y.m - x.e.length)) (.read r)

/-- Steps that a reconstruction can take without a drive: every strip may join E once. -/
def reconFuel : Nat := 80

/-- R377: reconstruction of a record begins, with its strip as the initial erasure. `port` tells whether the detector was a port that is
not ON. While the erasure unit is out of service it ends at once (R301). -/
def Dev.startRecon (d : Dev) (r : Nat) (port : Bool) : Dev :=
  let x := d.rdOf r
  if d.flag (Reg.SLI_ECU_STS_FAULT x.slice) then
    if x.driveBusy then d.updRd r (fun x => { x with step := .drive }) else d.rdFail r stInternal
  else
    let d1 := d.updRd r (fun x => { x with
      step := .recon, e0 := [], e := joinE x.e [x.strip], portOnly := x.portOnly && port, bytes := [], dec := 0, rounds := 0, solve := .reading })
    let d2 := (d1.cond (!x.reloc) (fun d => d.bumpSat (Reg.SLI_RD_RECON_COUNT x.slice) 1)).bumpSat (Reg.SLI_ECU_RECON_COUNT x.slice) 1
    match d2.segDesc x.seg with
    | none => d2.rdFail r stUnrecovered
    | some y => d2.reconNext r y reconFuel

/-- R288, R292, R377: a strip that a reconstruction read has arrived, or is an erasure. -/
def Dev.columnEnd (d : Dev) (r s : Nat) (ok port : Bool) (bs : List Byte) : Dev :=
  let x := d.rdOf r
  if x.asked.contains s = false then d
  else
    let d1 := d.updRd r (fun x => { x with
      asked := x.asked.erase s, cols := if ok then x.cols ++ [(s, bs)] else x.cols
      e := if ok then x.e else joinE x.e [s], portOnly := x.portOnly && (ok || port) })
    if x.step ≠ .recon ∨ x.solve ≠ .reading then d1
    else match d1.segDesc x.seg with
      | none => d1.rdFail r stUnrecovered
      | some y => d1.reconNext r y reconFuel

/-- R366, R379: issue the drive command of a record; a drive out of service is an erasure at once. -/
def Dev.rdIssue (d : Dev) (r : Nat) : Dev :=
  let x := d.rdOf r
  match (d.segDesc x.seg).bind (fun s => s.strips[x.strip]?) with
  | none => d.startRecon r true
  | some (a, loc) =>
    if !d.inService a then d.startRecon r true
    else
      let n := 512 * unitsOf x.slen
      (d.updRd r (fun x => { x with step := .drive, issued := d.beat, driveBusy := true })).askDrive a
        { req := .record r, cls := x.drvClass, op := 0x02, slice := x.slice, lba := d.lbaOf a (loc * stripBytes + 512 * x.unit)
          nlb := d.lbaOf a n, arg := n }

/-- R367: pages of the read buffer for a whole record. -/
def RdGrain.need (x : RdGrain) : Nat := (512 * unitsOf x.slen + 4095) / 4096

/-- R367: grains take their pages in order; the first that does not fit stops those behind it. -/
def Dev.grantReads (d : Dev) (s : Nat) : List Nat → Dev
  | [] => d
  | r :: rest =>
    let free := d.fld (Reg.SLI_RD_RBUF_FREE s)
    let n := (d.rdOf r).need
    if free < n then d
    else (((d.setFld (Reg.SLI_RD_RBUF_FREE s) (free - n)).updRd r (fun x => { x with pages := n })).rdIssue r).grantReads s rest

/-- R317, R373: the lookups of a slice that are over: their grains wait for pages. -/
def Dev.lookupsEnd (d : Dev) (s : Nat) : Dev :=
  { d with rd := { d.rd with reads := d.rd.reads.map (fun e =>
      if e.2.slice = s ∧ e.2.step = .lookup ∧ e.2.ready ≤ d.edges then (e.1, { e.2 with step := .bufWait }) else e) } }

/-- READ_BUFFER_GRANT, R367, R681: the waiting grains of a slice that it works for, whose lookups are over, take their pages in age order, as far as the
pages go, and their drive commands are issued. -/
def Dev.readBufferGrant (d : Dev) (s : Nat) : Dev :=
  let d1 := d.lookupsEnd s
  (d1.grantReads s ((d1.rd.reads.filter (fun e => decide (e.2.slice = s) && decide (e.2.step = .bufWait) &&
    d1.serves s (e.2.tag / Config.tagsPerSlice))).map (·.1))).refreshRd s

def execReadBufferGrant (sl : Nat) (s : State) : Ans := lift (fun d => d.readBufferGrant sl) s

/-- The read side's keys for a job: what it latched. -/
def GcmJob.keys (j : GcmJob) (slot : Nat) : Option (Nat × List Byte) :=
  if slot = j.slot ∧ j.key ≠ [] then some (j.gen, j.key) else none

/-- R276, R281: the header of a grain's record, as it must be. -/
def RdGrain.header (x : RdGrain) (bs : List Byte) : Option RecHdr :=
  match headerAt x.seg x.strip x.unit bs with
  | some h => if h.typ = tyData ∧ h.id = x.grid ∧ h.slen = x.slen ∧ h.lsize = x.gsize ∧ decide (h.flags % 2 = 1) = x.raw then some h else none
  | none => none

/-- R260, R336, R377: a record in the read buffer goes to the cipher: to engine 1 in a class of the read side, or to be relocated to engine 0. -/
def Dev.openRecord (d : Dev) (r cls : Nat) (h : RecHdr) : Dev :=
  let x := d.rdOf r
  if x.reloc then d.postGcm x.slice 0 3 (.openRec r) (leField h.nonce 10 2) h.slen
  else d.postGcm x.slice 1 cls (.openRec r) (leField h.nonce 10 2) h.slen

/-- R365: the segment reference of a grain drops, unless its drive read still runs beside what gave the data. -/
def Dev.endSegRef (d : Dev) (r : Nat) : Dev := if (d.rdOf r).driveBusy then d else d.dropSegRef r

/-- R276, R375: a record's bytes are in the read buffer: a good header takes it to GCM engine 1, a bad one is an erasure. -/
def Dev.recordArrived (d : Dev) (r : Nat) (bs : List Byte) : Dev :=
  let x := d.rdOf r
  let d0 := (d.updRd r (fun x => { x with driveBusy := false })).count (1 + x.slice) 0x00B 1
  if x.step ≠ .drive ∧ ¬(x.step = .recon ∧ x.hedged) then d0.dropSegRef r
  else match x.header bs with
    | none => if x.step = .recon then d0 else d0.startRecon r false
    | some h =>
      ((d0.dropSolve r).updRd r (fun x => { x with step := .opening, bytes := bs, rebuilt := false })).openRecord r 1 h

/-- R288, R375, R399: the drive read of a record failed. -/
def Dev.recordFailed (d : Dev) (r : Nat) (port : Bool) : Dev :=
  let x := d.rdOf r
  let d0 := d.updRd r (fun x => { x with driveBusy := false })
  if x.step = .drive then (if x.hedged then d0.rdFail r stUnrecovered else d0.startRecon r port)
  else if x.step = .recon then d0
  else d0.dropSegRef r

/-- R232, R233: the bytes that a decompressor puts out before it ends. A frame whose header fails ends in the beat in which it starts; one that fails
later ends in the beat of the token that fails. -/
def RdGrain.inflateBytes (x : RdGrain) (bs : List Byte) : Nat := max 1 (min x.gsize (sinterReach bs x.gsize))

/-- R208, R213: a decrypted frame takes a free decompressor, or waits for one. -/
def Dev.takeSnd (d : Dev) (s u : Nat) : Dev :=
  if d.engineFree s (.snd u) then
    match d.rd.reads.find? (fun e => decide (e.2.slice = s) && decide (e.2.step = .inflating) && decide (e.2.dec = 0) &&
      d.serves s (e.2.tag / Config.tagsPerSlice)) with
    | none => d
    | some (r, x) => (d.updRd r (fun x => { x with dec := u + 1 })).addJob s (.snd u) 0 (x.inflateBytes x.bytes) 0
  else d

/-- R256, R373: a decrypted record: a raw grain is complete, a frame goes to a decompressor. One that is free has had its first quantum as the plaintext left
the cipher. -/
def Dev.recordOpened (d : Dev) (r : Nat) (bs : List Byte) : Dev :=
  let x := d.rdOf r
  if x.reloc then d.relocOpened r bs
  else if x.raw then (d.endSegRef r).rdSend r bs
  else
    let d1 := d.updRd r (fun x => { x with step := .inflating, bytes := bs, dec := 0 })
    match (List.range 4).find? (fun u => d1.engineFree x.slice (.snd u)) with
    | some u =>
      let left := x.inflateBytes bs - quantum (.snd u) 0
      (d1.updRd r (fun x => { x with dec := u + 1 })).cond (decide (0 < left)) (fun d => d.addJob x.slice (.snd u) 0 left 0)
    | none => d1

/-- R288, R375: a record fails its checks behind the drive: its strip is an erasure. For a rebuilt record there is no further way. -/
def Dev.badRecord (d : Dev) (r : Nat) : Dev := if (d.rdOf r).rebuilt then d.rdFail r stUnrecovered else d.startRecon r false

/-- R256: the outcome of a decryption job. -/
def Dev.openDone (d : Dev) (j : GcmJob) (r : Nat) : Dev :=
  let x := d.rdOf r
  if x.step ≠ .opening then d
  else match x.header x.bytes with
    | none => d.badRecord r
    | some h =>
      match openBytes j.keys h x.bytes with
      | .ok bs => d.recordOpened r bs
      | .keyErased => d.rdFail r stDenied
      | .tagMismatch =>
        let d1 := ((d.bumpSat Reg.KEY_TAG_FAIL_COUNT 1).bumpSat (Reg.SLI_GCM_TAG_FAIL_COUNT j.slice j.eng) 1).count (1 + j.slice) 0x00C 1
        (d1.raise (sliceSrc x.slice 15) (leField h.nonce 10 2) x.grid (x.grid / 2 ^ 32)).badRecord r

/-- GCM_JOB_DONE, R254 to R256: an engine's running job ends: a record is sealed into its segment, or opened for a read. -/
def Dev.gcmJobDone (d : Dev) (s e : Nat) : Dev :=
  match d.gcmRunning s e with
  | none => d
  | some (i, j) =>
    let d1 := (((d.dropJob i).bump (Reg.SLI_GCM_BYTES_BYTES s e) j.len).bump (Reg.SLI_GCM_JOBS_COUNT s e) 1).updSlice s
      (fun x => { x with jobs := x.jobs.filter (fun y => decide (y.eng ≠ .gcm e)) })
    match j.work with
    | .sealRec seg off => d1.sealDone j seg off
    | .openRec r => d1.openDone j r

def execGcmJobDone (sl e : Nat) (s : State) : Ans := lift (fun d => d.gcmJobDone sl e) s

/-- R261: both engines of a slice are out of service: its reads end with Internal Error. -/
def Dev.gcmDead (d : Dev) (s : Nat) : Dev :=
  if d.flag (Reg.SLI_GCM_STS_FAULT s 0) ∧ d.flag (Reg.SLI_GCM_STS_FAULT s 1) then
    let rs := (d.rd.reads.filter (fun e => decide (e.2.slice = s) && decide (e.2.step = .opening))).map (·.1)
    let d1 := { d with
      key := { d.key with
      jobs := d.key.jobs.filter (fun j => !(decide (j.slice = s) && (match j.work with
        | .openRec _ => true
        | .sealRec _ _ => false))) } }
    d1.each rs (fun r d => d.rdFail r stInternal)
  else d

/-- GCM_PARITY_FAULT, R261: the running job's output is discarded and it starts again; an encryption will draw a new value. After three
failures in a row the engine is out of service and the other serves both sides. -/
def Dev.gcmParityFault (d : Dev) (s e : Nat) : Dev :=
  match d.gcmRunning s e with
  | none => d
  | some (i, j) =>
    let d1 := (d.bumpSat (Reg.SLI_GCM_RETRY_COUNT s e) 1).updSlice s
      (fun x => { x with jobs := x.jobs.filter (fun y => decide (y.eng ≠ .gcm e)) })
    let again : GcmJob := match j.work with
      | .sealRec _ _ => { j with latched := false, fails := j.fails + 1 }
      | .openRec _ => { j with fails := j.fails + 1 }
    let d2 := d1.setJob i again
    if again.fails < 3 then
      match j.work with
      | .openRec _ => d2.addJob s (.gcm e) j.cls (max 1 j.len) 0
      | .sealRec _ _ => d2
    else
      let d3 := d2.setFld (Reg.SLI_GCM_STS_FAULT s e) 1
      let other := d3.flag (Reg.SLI_GCM_STS_FAULT s (1 - e)) = false
      let d4 := { d3 with
        key := { d3.key with
        jobs := d3.key.jobs.map (fun (y : GcmJob) => if y.slice = s ∧ y.eng = e then { y with eng := if other then 1 - e else e, latched := false, fails := 0 } else y) } }
      let d5 := ((d4.setFld (Reg.SLI_GCM_STS_SERVING_BOTH s e) 0).setFlag (Reg.SLI_GCM_STS_SERVING_BOTH s (1 - e)) (decide other)).raise
        (sliceSrc s 16) e (if other then 1 else 0) 0
      d5.gcmDead s

def execGcmParityFault (sl e : Nat) (s : State) : Ans := lift (fun d => d.gcmParityFault sl e) s

/-- DECOMPRESS_DONE, R213, R232: a decompressor ends: the grain is delivered, or its strip is an erasure. -/
def Dev.decompressDone (d : Dev) (s u : Nat) : Dev :=
  match d.rd.reads.find? (fun e => decide (e.2.slice = s) && decide (e.2.step = .inflating) && decide (e.2.dec = u + 1)) with
  | none => d
  | some (r, x) =>
    let d1 := d.updSlice s (fun y => { y with jobs := y.jobs.filter (fun j => decide (j.eng ≠ .snd u)) })
    let vol := (d1.tag x.tag).vol
    match sinterDecode x.bytes x.gsize with
      | .ok bs => ((d1.bump (Reg.SLI_SND_OUT_BYTES s u) bs.length).endSegRef r).rdSend r bs
      | .malformed => ((d1.bumpSat (Reg.SLI_SND_MALFORMED_COUNT s u) 1).raise (sliceSrc s 11) vol x.grid (x.grid / 2 ^ 32)).badRecord r
      | .crcMismatch => ((d1.bumpSat (Reg.SLI_SND_CRC_FAIL_COUNT s u) 1).raise (sliceSrc s 10) vol x.grid (x.grid / 2 ^ 32)).badRecord r

def execDecompressDone (sl u : Nat) (s : State) : Ans := lift (fun d => d.decompressDone sl u) s

/-- DECOMPRESSOR_FAULT, R214, R289: the unit is out of service and its record starts again on another; no erasure is marked. -/
def Dev.decompressorFault (d : Dev) (s u : Nat) : Dev :=
  let d1 := (d.setFld (Reg.SLI_SND_STS_FAULT s u) 1).updSlice s (fun y => { y with jobs := y.jobs.filter (fun j => decide (j.eng ≠ .snd u)) })
  let rs := (d1.rd.reads.filter (fun e => decide (e.2.slice = s) && decide (e.2.step = .inflating) && decide (e.2.dec = u + 1))).map (·.1)
  (d1.each rs (fun r d => d.updRd r (fun x => { x with dec := 0 }))).raise (sliceSrc s 14) u 0 0

def execDecompressorFault (sl u : Nat) (s : State) : Ans := lift (fun d => d.decompressorFault sl u) s

/-! ### Reconstruction (R290 to R292, R377, R378, R380) -/

/-- How one round of R290 ends. -/
inductive Round where
  | ok (strips : List (List Byte))
  | unrecoverable
  | again (e : List Nat)
deriving DecidableEq, Repr

/-- R290: one round over a range whose strips were read as `cols`. `must` is the record asked for: strip and unit in the range. -/
def reconRound (keyOf : Nat → Option (Nat × List Byte)) (seg k m base n : Nat) (must : Nat × (List Byte → Bool))
    (e : List Nat) (cols : List (List Byte)) : Round :=
  if m < e.length then .unrecoverable
  else
    let l := dataOf k e
    let strips := solve k m n e cols
    if l.isEmpty ∨ (l.all (fun s => stripPasses keyOf seg s base (strips.getD s [])) ∧ must.2 (strips.getD must.1 [])) then .ok strips
    else
      let new := (List.range k).filter (fun s => !(e.contains s) && paddingBad seg s base (cols.getD s []))
      let new := if new.isEmpty then [k + (((solveRows k m e).getLast?).getD 0)] else new
      .again (e ++ new)

/-- The strips of a range as reads gave them: bytes, and those that could not be read. -/
def colBytes (cols : List StripRead) : List (List Byte) := cols.map (fun c => match c with
  | .bytes b => b
  | _ => [])
def colErased (cols : List StripRead) : List Nat := (cols.zipIdx.filter (fun (c : StripRead × Nat) => match c.1 with
  | .bytes _ => false
  | _ => true)).map (·.2)

/-- R291, R377, R378, R380: a reconstruction ended OK: what it found is told, and the rebuilt record goes to the cipher as one read does. -/
def Dev.reconOk (d : Dev) (r : Nat) (e : List Nat) (strips : List (List Byte)) : Dev :=
  let x := d.rdOf r
  let rec_ := strips.getD x.strip []
  let more := decide (e.length ≠ x.e0.length)
  let d1 := d.cond more (fun d => d.raise (sliceSrc x.slice 20) x.seg (stripMask x.e0) (stripMask e))
  let repair := d1.flag (Reg.SLI_RD_CFG_REPAIR_EN x.slice) && !x.reloc && (!x.portOnly || more)
  let d2 := d1.cond (repair && !(d1.lay.repair.contains x.seg)) (fun d =>
    (({ d with lay := { d.lay with repair := d.lay.repair ++ [x.seg] } }).bumpSat (Reg.SLI_RD_REPAIR_COUNT x.slice) 1).raise
      (sliceSrc x.slice 24) x.seg (stripMask x.e0) (stripMask e))
  let d3 := d2.cond x.hedged (fun d => (d.bumpSat (Reg.SLI_RD_HEDGE_WON_COUNT x.slice) 1).raiseOnce (0x21000 + x.slice)
    (sliceSrc x.slice 23) x.seg x.strip ((((d.segDesc x.seg).bind (fun s => s.strips[x.strip]?)).map (·.1)).getD 0))
  match x.header rec_ with
  | none => d3.rdFail r stUnrecovered
  | some h => (d3.updRd r (fun x => { x with step := .opening, bytes := rec_, rebuilt := true })).openRecord r 2 h

/-- RECONSTRUCTION_ROUND, R290 to R292, R377: one round for a grain of a read over its record's units, once the erasure unit of its slice `sl` has had its quanta. It uses the
bytes that this and the earlier rounds read. -/
def Dev.reconstructionRound (d : Dev) (sl r : Nat) : Dev :=
  let x := d.rdOf r
  if x.slice ≠ sl ∨ x.step ≠ .recon ∨ x.solve ≠ .solved then d
  else match d.segDesc x.seg with
    | none => d.rdFail r stUnrecovered
    | some s =>
      let must (bs : List Byte) : Bool := match x.header bs with
        | some h => recordPasses d.slotKey h bs
        | none => false
      match reconRound d.slotKey x.seg s.k s.m x.unit (512 * unitsOf x.slen) (x.strip, must) x.e ((List.range (s.k + s.m)).map x.col) with
      | .ok strips => d.reconOk r x.e strips
      | .unrecoverable =>
        let d1 := (d.bumpSat (Reg.SLI_ECU_UNRECOV_COUNT x.slice) 1).raise (sliceSrc x.slice 19) x.seg (stripMask x.e) x.off
        if x.driveBusy then d1.updRd r (fun x => { x with step := .drive }) else d1.rdFail r stUnrecovered
      | .again e1 =>
        ((d.updRd r (fun x => { x with e := e1, rounds := x.rounds + 1, solve := .reading })).bumpSat (Reg.SLI_ECU_ROUNDS_COUNT x.slice) 1).reconNext r s reconFuel

def execReconstructionRound (sl rd : Nat) (s : State) : Ans := lift (fun d => d.reconstructionRound sl rd) s

/-- HEDGE_TIMEOUT, R380: a record's drive read is not done HEDGE beats after its issue: reconstruction starts beside it, unless m strips
are erased already. -/
def Dev.hedgeTimeout (d : Dev) (r : Nat) : Dev :=
  let x := d.rdOf r
  let h := d.fld (Reg.SLI_RD_CFG_HEDGE x.slice)
  let m := ((d.segDesc x.seg).map (·.m)).getD 0
  if x.step = .drive ∧ x.hedged = false ∧ x.reloc = false ∧ d.flag (Reg.SLI_ECU_STS_FAULT x.slice) = false ∧ h ≠ 0 ∧ h ≤ d.since x.issued ∧ x.e.length < m then
    ((d.updRd r (fun x => { x with hedged := true })).bumpSat (Reg.SLI_RD_HEDGED_COUNT x.slice) 1).startRecon r true
  else d

def execHedgeTimeout (rd : Nat) (s : State) : Ans := lift (fun d => d.hedgeTimeout rd) s

/-- R301: work that was with an erasure unit is asked again. -/
def EcuStep.restart : EcuStep → EcuStep
  | .parity => .idle
  | .check => .parityDone
  | x => x

/-- ERASURE_UNIT_FAULT, R301, R375: three failures in a row: the unit is out of service, and the slice's reconstructions end with Internal Error; a hedge leaves the
read to its drive. Two restarts came before. What else it worked on starts again when it is back. -/
def Dev.erasureUnitFault (d : Dev) (s : Nat) : Dev :=
  let d1 := (((d.setFld (Reg.SLI_ECU_STS_FAULT s) 1).bumpSat (Reg.SLI_ECU_RETRY_COUNT s) 2).updSlice s (fun x => { x with
    jobs := x.jobs.filter (fun j => decide (j.eng ≠ .ecu)) })).raise (sliceSrc s 18) 0 0 0
  let again := d1.drv.rebSolve.filter (fun e => decide (e.1 % 8 = s))
  let d2 := { d1 with
    lay := { d1.lay with
      segs := d1.lay.segs.map (fun (e : Nat × LaySeg) => if e.2.slice = s then (e.1, { e.2 with ecu := e.2.ecu.restart }) else e)
      checks := d1.lay.checks.filter (fun c => c.2 || decide (c.1 % 8 ≠ s)) }
    drv := { d1.drv with
      rebSolve := d1.drv.rebSolve.filter (fun e => decide (e.1 % 8 ≠ s))
      rebuilds := d1.drv.rebuilds ++ again.flatMap (fun (e : Nat × List (Nat × List Byte)) => e.2.map (fun (w : Nat × List Byte) => (e.1, w.1))) } }
  d2.each ((d2.rd.reads.filter (fun e => decide (e.2.slice = s) && decide (e.2.step = .recon))).map (·.1)) (fun r d =>
    let d := d.bumpSat (Reg.SLI_ECU_UNRECOV_COUNT s) 1
    if (d.rdOf r).driveBusy then d.updRd r (fun x => { x with step := .drive }) else d.rdFail r stInternal)

def execErasureUnitFault (sl : Nat) (s : State) : Ans := lift (fun d => d.erasureUnitFault sl) s

/-! ### The reads of a relocation (R336) -/

/-- The tag number of reads that no command asked for. -/
def relocTag : Nat := 8 * Config.tagsPerSlice

/-- R336: relocation of a segment begins: every grain record that is PLACED in it. -/
def Dev.relocBegin (d : Dev) (seg : Nat) : Dev :=
  let here (e : Nat × GrainRec) : Bool := decide ((d.segEnt seg).state = .live) && decide (e.2.state = .placed) && decide (e.2.seg = seg)
  let l := (d.mde.recs.filter here).map (·.1)
  (d.updSegEnt seg (fun s => { s with state := if s.state = .live then .relocating else s.state, relocNext := l, relocLeft := l, moved := 0 })).relocEnd seg

/-- R336, R381: the next record of a segment is read, unless it is no more there. -/
def Dev.relocRead (d : Dev) (seg grid : Nat) : Dev :=
  let g := d.grec grid
  let d1 := d.updSegEnt seg (fun s => { s with relocNext := s.relocNext.drop 1 })
  if g.state ≠ .placed ∨ g.seg ≠ seg then d1.relocLess seg grid
  else
    let (r, d2) := d1.addRd { tag := relocTag, slice := relocSlice seg, gsize := 4096 * 2 ^ g.gsize, grid := grid, seg := seg, off := g.off
                              slen := g.stored, raw := g.raw, kslot := g.kslot, reloc := true, segRef := true }
    ({ d2 with rd := { d2.rd with segRefs := tupd 0 d2.rd.segRefs seg (fun n => n + 1) } }).rdIssue r

/-- R336, R681: a slice that is ON works on the first segment queued for it, one record after another. -/
def Dev.relocStep (d : Dev) (s : Nat) : Dev :=
  match d.mde.reloc.find? (fun g => decide (relocSlice g = s)) with
  | none => d
  | some seg =>
    if d.flag Reg.MDE_CFG_RELOC_EN = false ∨ d.isOn (.slice s) = false ∨ d.cal.pwrfail then d
    else if (d.segEnt seg).state ≠ .relocating then d.relocBegin seg
    else if d.rd.reads.any (fun e => e.2.reloc && decide (e.2.slice = s)) ∨ (d.relocHead s).isSome then d
    else match (d.segEnt seg).relocNext with
      | [] => d
      | g :: _ => d.relocRead seg g

def Dev.relocBeat (d : Dev) : Dev := if d.mde.reloc.isEmpty then d else d.each (List.range 8) (fun s d => d.relocStep s)

/-! ### References (R364, R365, R367) -/

/-- READ_REFERENCE_DROP, R364, R365, R367: a grain's data has left the transport: its directory reference drops and its buffer pages are
free. Releases and reclaims that waited fall due at the next edge. -/
def Dev.readReferenceDrop (d : Dev) (r : Nat) : Dev :=
  let x := d.rdOf r
  if x.active ∨ (d.tag x.tag).out ≠ 0 ∨ x.driveBusy then d
  else
    let d1 := d.dropSegRef r
    let d2 := match x.dirRef with
      | some k => d1.updDirKey k (fun e => { e with refs := e.refs - 1 })
      | none => d1
    let d3 := (d2.setFld (Reg.SLI_RD_RBUF_FREE x.slice) (d2.fld (Reg.SLI_RD_RBUF_FREE x.slice) + x.pages)).updRd r (fun x => { x with
      dirRef := none, pages := 0 })
    if (d3.tag x.tag).posted ∨ (d3.tag x.tag).state ≠ .running then d3.dropRd r else d3

def execReadReferenceDrop (rd : Nat) (s : State) : Ans := lift (fun d => d.readReferenceDrop rd) s

/-! ### Resolving a read (R362, R363, R369) -/

/-- A run of 4 KiB units of one source. -/
structure Extent where
  src : Source
  first : Nat
  n : Nat
deriving DecidableEq, Repr

/-- R369: two neighbouring units read as one: the same grain, or zeros within one 32 KiB region. -/
def sameExtent (x : Extent) (s : Source) (blk : Nat) : Bool :=
  match x.src, s with
  | .caldera k e, .caldera k' e' => decide (k = k') && decide (e.off = e'.off)
  | .record a g, .record a' g' => decide (a = a') && decide (g = g')
  | .zeros, .zeros => decide (x.first / 8 = blk / 8)
  | .damaged, .damaged => true
  | _, _ => false

/-- The extents of `n` units from unit `blk`, in address order. -/
def Dev.extents (d : Dev) (v blk n : Nat) : List Extent :=
  ((List.range n).foldl (fun (acc : List Extent) i =>
    let s := d.source v (blk + i)
    match acc with
    | x :: t => if sameExtent x s (blk + i) then { x with n := x.n + 1 } :: t else ⟨s, blk + i, 1⟩ :: acc
    | [] => [⟨s, blk + i, 1⟩]) []).reverse

/-- R317, R358: the beats that the lookup of a record in volume v takes. Which of its lines the metadata cache holds the model does not follow; a free value
decides. While the cache is not ON each of them comes from memory. -/
def Dev.lookupTime (d : Dev) (v : Nat) : Nat × Dev :=
  let (k, d1) := d.draw
  let depth := (d.tree v).depth
  let ddr := Config.freeNat k % (depth + 2)
  let hbm := if d.isOn .mdc then Config.freeNat k / (depth + 2) % (depth + 2 - ddr) else depth + 1 - ddr
  (lookupBeats depth hbm ddr, d1)

/-- R362, R163, R372: read one extent of a command over bytes `a` to `b` of the volume. A Caldera hit waits for its quanta of the write-path engine,
one for each 4 KiB. -/
def Dev.readExtent (d : Dev) (t v a b : Nat) (x : Extent) : Dev :=
  let lo := max a (x.first * 4096)
  let hi := min b ((x.first + x.n) * 4096)
  let s := grainSlice v (x.first / 8)
  let base : RdGrain := { tag := t, slice := s, lo := lo, hi := hi }
  match x.src with
  | .caldera k e =>
    let (r, d1) := d.addRd { base with goff := e.off * 4096, gsize := e.bytes, dirRef := some k, step := .calWait }
    if e.lost then d1.rdFail r stUnrecovered
    else ((((d1.updDirKey k (fun e => { e with refs := e.refs + 1 })).bump (Reg.SLI_RD_CAL_HITS_COUNT s) 1).count (1 + s) 0x00A 1).addJobFor s .wpe
      wpeRead (x.n * 4096) (.read r)).refreshRd s
  | .zeros =>
    let (r, d1) := d.addRd { base with goff := x.first * 4096, gsize := x.n * 4096 }
    (d1.bump (Reg.SLI_RD_ZERO_COUNT s) x.n).rdSend r (List.replicate (x.n * 4096) 0)
  | .record key grid =>
    let g := d.grec grid
    let (beats, d) := d.lookupTime v
    let (r, d1) := d.addRd { base with
      step := .lookup, ready := d.edges + beats - 1, goff := keyStart key * 4096, gsize := 4096 * 2 ^ g.gsize, grid := grid, seg := g.seg, off := g.off, slen := g.stored
      raw := g.raw, kslot := g.kslot, segRef := decide (g.state = .placed) }
    if g.state ≠ .placed then d1.rdFail r stUnrecovered
    else
      let d2 := { d1 with rd := { d1.rd with segRefs := tupd 0 d1.rd.segRefs g.seg (fun n => n + 1) } }
      ((d2.bump (Reg.SLI_RD_FLASH_COUNT s) 1).bump Reg.MDE_LOOKUPS_COUNT 1).refreshRd s
  | _ =>
    let (r, d1) := d.addRd base
    d1.rdFail r stUnrecovered

/-- R362, R363: the read of a command begins: its units are resolved as they stand at this beat's edge. One that needs a metadata page
waits for it. -/
def Dev.readBegin (d : Dev) (t : Nat) (c : HostCmd) : Dev :=
  let v := (d.tag t).vol
  let r := cmdRange c (d.vol v)
  let w := widen r.1 r.2
  let xs := d.extents v (w.1 / 4096) ((w.2 - w.1) / 4096)
  if xs.any (fun x => x.src.needsPage) then d
  else
    let d1 := xs.foldl (fun d x => d.readExtent t v r.1 r.2 x) d
    (d1.updTag t (fun x => { x with begun := true })).readEnd t

/-- READ, R362 to R370: the read begins, or its completion falls due. -/
def Dev.read (d : Dev) (t : Nat) : Dev := match d.runs t opRead with
  | some c => d.readBegin t c
  | none => match (d.tag t).cmd with
    | some c => if c.opcode = opRead ∧ (d.tag t).fwdOut = false then d.readEnd t else d
    | none => d

def execRead (t : Nat) (s : State) : Ans := lift (fun d => d.read t) s

/-- COMPARE, R684: the read and the fetch of the host's data begin together; once both have ended the bytes are compared. -/
def Dev.compare (d : Dev) (t : Nat) : Dev := match d.runs t opCompare with
  | some c =>
    let d1 := if (sglBlocks c.sgl).isEmpty ∨ c.fwdIn then
        d.cond c.fwdIn (fun d => d.updTag t (fun x => { x with left := d.dataLen c, fetched := c.data.length }))
      else if (d.tag t).left ≠ 0 then d else d.startFetch t c
    d1.readBegin t c
  | none => match (d.tag t).cmd with
    | some c => if c.opcode = opCompare ∧ (d.tag t).fwdOut = false then d.readEnd t else d
    | none => d

def execCompare (t : Nat) (s : State) : Ans := lift (fun d => d.compare t) s

/-- VERIFY, R111: the range is read through every detector and nothing is transferred. -/
def Dev.verifyCmd (d : Dev) (t : Nat) : Dev := match d.runs t opVerify with
  | none => d
  | some c => d.readBegin t c

def execVerify (t : Nat) (s : State) : Ans := lift (fun d => d.verifyCmd t) s

end Sys2Proof.Machine
end

