-- ==== Sys2Proof/Machine/KeyStore.lean ====
section
/-! DEFINITION. The key commands and the erasing of keys (R241 to R245, R257 to R259). -/
namespace Sys2Proof.Machine

/-- Device-wide status codes that key commands end with (R244, R522). -/
def ksOk : Nat := 0x00
def ksBadArgument : Nat := 0x04
def ksLocked : Nat := 0x0C

/-- R243: the KEY_LOAD_K registers read as zeros inside the chip once a command finishes. -/
def Dev.clearLoadKey (d : Dev) : Dev := d.each (List.range 8) (fun i d => d.setFld (Reg.KEY_LOAD_K i) 0)

/-- The key bytes that wait in KEY_LOAD_K0 to K7 (R262). -/
def Dev.loadKey (d : Dev) : List Byte := (List.range 8).flatMap (fun i => leBytes 4 (d.fld (Reg.KEY_LOAD_K i)))

/-- R243, R244, R265: a command ends: BUSY until the next edge, when STATUS shows `st`; the load key is cleared. -/
def Dev.keyEnd (d : Dev) (op slot st : Nat) : Dev :=
  let d1 := ((((d.setFld Reg.KEY_CMD_OP op).setFld Reg.KEY_CMD_SLOT slot).setFld Reg.KEY_STS_BUSY 1).clearLoadKey).refreshReady
  let d2 := d1.cond (decide (st ≠ ksOk)) (fun d => d.raise 13 op slot st)
  { d2 with edge := d2.edge ++ [.keyDone st] }

/-- R243: KEY_CMD is written. A command takes effect at the next beat edge, and BUSY is 1 until it is over; OP 0 is no command. A write while BUSY is 1 is
ignored and sets CMD_LOST. -/
def Dev.keyCmd (d : Dev) (op slot : Nat) (hv : Bool) : Dev :=
  if d.flag Reg.KEY_STS_BUSY then d.setFld Reg.KEY_STS_CMD_LOST 1
  else
    let d1 := ((d.setFld Reg.KEY_CMD_OP op).setFld Reg.KEY_CMD_SLOT slot).setFlag Reg.KEY_CMD_HWM_VALID hv
    if op = 0 then d1 else (d1.setFld Reg.KEY_STS_BUSY 1).atEdge (.keyRun op slot hv)

/-- LOAD, R239, R241, R244: the slot takes the key and its generation, and goes by the mark that came with it. -/
def Dev.keyLoad (d : Dev) (slot : Nat) (hv : Bool) : Dev :=
  let d := d.setFlag Reg.KEY_CMD_HWM_VALID hv
  let gen := d.fld Reg.KEY_LOAD_GEN_GEN
  let k := d.kslot slot
  if d.flag Reg.KEY_STS_LOCKED then d.keyEnd 1 slot ksLocked
  else if k.state ≠ .empty ∧ k.gen = gen then d.keyEnd 1 slot ksBadArgument
  else
    let key := d.loadKey
    let d1 := d.updKslot slot (fun _ => { state := .unsealed, gen := gen, kcv := Machine.keyCheck key, key := key })
    let d2 := if hv then d1.slotCounter slot (d1.fld Reg.KEY_LOAD_HWM_HWM) else d1
    d2.keyEnd 1 slot ksOk

def execLoad (slot : Nat) (hv : Bool) (s : State) : Ans := lift (fun d => d.keyCmd 1 (slot % 4096) hv) s

/-- LOAD_COUNTER, R241, R242, R244: an UNSEALED_COUNTER slot takes its mark; any other refuses. -/
def Dev.keyCounter (d : Dev) (slot : Nat) : Dev :=
  if d.flag Reg.KEY_STS_LOCKED then d.keyEnd 2 slot ksLocked
  else if (d.kslot slot).state ≠ .unsealed then d.keyEnd 2 slot ksBadArgument
  else (d.slotCounter slot (d.fld Reg.KEY_LOAD_HWM_HWM)).keyEnd 2 slot ksOk

def execLoadCounter (slot : Nat) (s : State) : Ans := lift (fun d => d.keyCmd 2 (slot % 4096) (d.flag Reg.KEY_CMD_HWM_VALID)) s

/-- R258: one latched job of an erased slot ends with KEY_ERASED: its engine is free, a grain to be sealed is discarded, and a read
gets Access Denied. -/
def Dev.abortJob (d : Dev) (j : GcmJob) : Dev :=
  let d1 := ((d.bumpSat Reg.KEY_ABORTS_COUNT 1).bumpSat (Reg.SLI_GCM_ABORTED_COUNT j.slice j.eng) 1).updSlice j.slice
    (fun x => { x with jobs := x.jobs.filter (fun y => decide (y.eng ≠ .gcm j.eng)) })
  let d2 := d1.raise (sliceSrc j.slice 17) j.slot j.eng 0
  match j.work with
  | .sealRec seg off => d2.refuseRec seg off true
  | .openRec r => d2.rdFail r stDenied

/-- R258: a slot is emptied and the jobs latched to it are aborted. -/
def Dev.emptySlot (d : Dev) (slot : Nat) : Dev :=
  let js := d.key.jobs.filter (fun j => j.latched && decide (j.slot = slot))
  let d1 := { d with
    key := { d.key with
    jobs := d.key.jobs.filter (fun j => !(j.latched && decide (j.slot = slot)))
    posts := d.key.posts.filter (fun p => decide (p.slot ≠ slot)) } }
  (d1.updKslot slot (fun _ => {})).each js (fun j d => d.abortJob j)

/-- R258, R265: ZEROISE of one slot; an EMPTY slot stays as it is. -/
def Dev.zeroise (d : Dev) (slot : Nat) : Dev :=
  if (d.kslot slot).state = .empty then d
  else
    let n := d.slotJobs slot
    ((d.emptySlot slot).refreshReady).raise 11 slot n 0

def execZeroise (slot : Nat) (s : State) : Ans :=
  lift (fun d => d.keyCmd 3 (slot % 4096) (d.flag Reg.KEY_CMD_HWM_VALID)) s

/-- R258: every slot at once, and the KEY_LOAD registers. `cause`: 0 ZEROISE_ALL, 1 alarm, 2 debug opening. -/
def Dev.zeroiseAll (d : Dev) (cause : Nat) : Dev :=
  let d1 := (d.key.slots.map (·.1)).foldl (fun d s => d.emptySlot s) d
  ((((d1.clearLoadKey).setFld Reg.KEY_LOAD_GEN_GEN 0).setFld Reg.KEY_LOAD_HWM_HWM 0).refreshReady).raise 12 cause 0 0

/-- R245: at an alarm or a debug opening a LOAD or LOAD_COUNTER of the same edge ends with SECURITY_LOCKED. -/
def Dev.keyLockOut (d : Dev) : Dev :=
  if d.flag Reg.KEY_STS_BUSY ∧ (d.fld Reg.KEY_CMD_OP = 1 ∨ d.fld Reg.KEY_CMD_OP = 2) then
    { d with
        edge := d.edge.map (fun a => match a with
        | .keyDone _ => .keyDone ksLocked
        | a => a) }
  else d

/-- R259: an alarm or a debug opening erases every key and sets LOCKED. -/
def Dev.keyLock (d : Dev) (cause : Nat) : Dev := ((d.keyLockOut).zeroiseAll cause).setFld Reg.KEY_STS_LOCKED 1

def execZeroiseAll (s : State) : Ans := lift (fun d => d.keyCmd 4 (d.fld Reg.KEY_CMD_SLOT) (d.flag Reg.KEY_CMD_HWM_VALID)) s

/-- KEY_OP_NOT_USED, R244: OP 5 to 7, which end with BAD_ARGUMENT; OP 0 is no command (R243), and 1 to 4 have rows of their own. -/
def Dev.keyOpNotUsed (d : Dev) (op slot : Nat) (hv : Bool) : Dev := if 1 ≤ op % 8 ∧ op % 8 ≤ 4 then d else d.keyCmd (op % 8) slot hv

def execKeyOpNotUsed (op slot : Nat) (hv : Bool) (s : State) : Ans := lift (fun d => d.keyOpNotUsed op (slot % 4096) hv) s

/-- R243 to R245: the edge at which a command takes effect. One of OP 5 to 7 is refused. -/
def Dev.keyRun (d : Dev) (op slot : Nat) (hv : Bool) : Dev :=
  match op with
  | 1 => d.keyLoad slot hv
  | 2 => d.keyCounter slot
  | 3 => (d.zeroise slot).keyEnd 3 slot ksOk
  | 4 => (d.zeroiseAll 0).keyEnd 4 slot ksOk
  | _ => d.keyEnd op slot ksBadArgument

/-- R243: at the edge at which a command is over BUSY reads 0 and STATUS holds its result. -/
def Dev.keyDone (d : Dev) (st : Nat) : Dev := (d.setFld Reg.KEY_STS_BUSY 0).setFld Reg.KEY_STS_STATUS st

/-- R263: the words of a slot entry. -/
def Dev.slotWords (d : Dev) (slot : Nat) : List Nat :=
  let k := d.kslot slot
  [k.state.code + (if k.warned then 8 else 0) + (if k.hwmWait then 16 else 0) + (if k.durableValid then 32 else 0) + 2 ^ 16 * k.gen,
   k.kcv, k.counter % 2 ^ 32, k.counter / 2 ^ 32, k.durable % 2 ^ 32, k.durable / 2 ^ 32, d.slotJobs slot]

end Sys2Proof.Machine
end

