-- ==== Sys2Proof/Machine/Vault.lean ====
section
/-! DEFINITION. The vault SSDs: their records and labels, the vault log, and the writes of vault-through mode and of the catch-up pass
(R171 to R176, R381, R515 to R517). -/
namespace Sys2Proof.Machine

/-! ### Records and labels (R254, R275, R515, R516) -/

def vaultSlot : Nat := 4095
def tyVault : Nat := 5

/-- R516: VKIND. -/
def vkGrain : Nat := 1
def vkJournal : Nat := 2
def vkRelease : Nat := 3
def vkHead : Nat := 4
def vkGeyGrain : Nat := 5
def vkGeyJournal : Nat := 6
def vkGeyNonce : Nat := 7
def vkGeyFum : Nat := 8

/-- R381: the order of kinds on a vault attach point, as a class from 8 up. -/
def vcFlush : Nat := 8
def vcCommit : Nat := 9
def vcRewrite : Nat := 10
def vcCatchup : Nat := 11

/-- R515, R524: the areas of a vault SSD, as VLOG_GIB stood at its attach point's start. -/
def vlogBase : Nat := 2 ^ 20
def Dev.vlogBytes (d : Dev) (a : Nat) : Nat := 2 ^ 30 * (d.att a).vlog
def Dev.geyBase (d : Dev) (a : Nat) : Nat := vlogBase + d.vlogBytes a

/-- R250, R252: slot 4,095 may draw a value. -/
def Dev.vaultMay (d : Dev) : Bool :=
  let k := d.kslot vaultSlot
  decide (k.state = .ready) && k.mayDraw && decide (k.counter < ctrLimit)

/-- R254, R516: a vault record under the next VSEQ: its bytes, whole units of 512 bytes. -/
def Dev.vaultSeal (d : Dev) (kind lsize : Nat) (stored : List Byte) : List Byte × Dev :=
  let k := d.kslot vaultSlot
  let v := d.mem.vseq + 1
  let nonce := nonceBytes vaultSlot d.slotId k.gen k.counter
  let head := headBytes tyVault 0 0 0 (v * 256 + kind) 0 lsize stored.length nonce
  (sealBytes k.key false head nonce stored, { d.drawValue vaultSlot with mem := { d.mem with vseq := v } })

/-- A vault record as read back: its VKIND, VSEQ, stored bytes and LOGICAL_SIZE. -/
structure VaultRec where
  kind : Nat
  vseq : Nat
  stored : List Byte
  lsize : Nat
deriving DecidableEq, Repr

/-- R276, R516: the record at the start of `bs`, when its header is valid and it opens. -/
def Dev.vaultOpen (d : Dev) (bs : List Byte) : Option VaultRec :=
  let f := leField bs
  let h : RecHdr := ⟨f 8 1, f 9 1, f 11 1, f 12 4, f 16 6, f 22 2, f 24 4, f 28 4, (bs.drop 32).take 12, (bs.drop 44).take 16⟩
  if bs.take 8 = syncWord ∧ crcGood (bs.take 64) = true ∧ f 10 1 = 1 ∧ h.typ = tyVault ∧ h.flags = 0 ∧ h.seg = 0 ∧ h.strip = 0 ∧ h.off = 0 then
    match openBytes d.slotKey h bs with
    | .ok st => some ⟨h.id % 256, h.id / 256, st, h.lsize⟩
    | _ => none
  else none

/-- R515: the label of vault SSD n. -/
def Dev.labelBytes (d : Dev) (n : Nat) (valid : Bool) (records : Nat) : List Byte :=
  withCrc (padTo 4092 (leBytes 4 0x7A11_6E5E ++ leBytes 1 1 ++ leBytes 1 d.slotId ++ leBytes 1 n ++ leBytes 1 (if valid then 1 else 0) ++
    leBytes 4 (d.fld Reg.DRV_ARRAY_TAG_TAG) ++ leBytes 4 0 ++ leBytes 8 (d.fld Reg.MEM_GEY_BEAT_BEAT) ++ leBytes 8 records ++
    leBytes 8 (d.vlogBytes (d.vaultAtts.getD n 0)) ++ leBytes 8 d.mem.vseq))

/-- R515, R516: a label that is valid and names this array. -/
def Dev.labelGood (d : Dev) (bs : List Byte) : Bool :=
  decide (bs.length = 4096) && crcGood bs && decide (leField bs 0 4 = 0x7A11_6E5E) && decide (leField bs 4 1 = 1) &&
    decide (leField bs 8 4 = d.fld Reg.DRV_ARRAY_TAG_TAG)

/-! ### Writes (R381, R517) -/

/-- The commands of one write at a byte offset of a vault SSD, with FUA, in pieces of at most MDTS bytes, whole LBAs each. -/
def Dev.askVault (d : Dev) (a off cls w : Nat) (bs : List Byte) : Nat × Dev :=
  let blk := (d.att a).lba
  let bs := padTo ((bs.length + blk - 1) / blk * blk) bs
  let step := max 4096 (d.att a).mdts
  let n := (bs.length + step - 1) / step
  (n, d.each (List.range n) (fun i d =>
    let part := (bs.drop (i * step)).take step
    d.askDrive a { req := .vault w, cls := cls, op := 0x01, slice := 0, lba := d.lbaOf a (off + i * step), nlb := d.lbaOf a part.length
                   data := part, fua := true }))

/-- A vault write begins: to the vault SSDs `on`. -/
def Dev.newWrite (d : Dev) (why : VFor) (on : List Nat) : Nat × Dev :=
  let w := d.mem.next
  (w, { d with mem := { d.mem with next := w + 1, writes := tins d.mem.writes w { why := why, left := 0, on := on } } })

def Dev.updWrite (d : Dev) (w : Nat) (f : VWrite → VWrite) : Dev :=
  { d with mem := { d.mem with writes := d.mem.writes.map (fun e => if e.1 = w then (e.1, f e.2) else e) } }

/-- R517: a place for `n` bytes at the head position of a vault log. A record that would cross the ring's end goes at its start, and the rest of
the ring is zeroed. -/
def Dev.vaultSpace (d : Dev) (a n cls w : Nat) : Nat × Dev :=
  let h := tget 0 d.mem.heads a
  let len := d.vlogBytes a
  if h + n ≤ len then (h, { d with mem := { d.mem with heads := tput 0 d.mem.heads a (h + n) } })
  else
    let d1 := { d with mem := { d.mem with heads := tput 0 d.mem.heads a n } }
    (0, if h < len then
        (d1.askDrive a { req := .vault w, cls := cls, op := 0x08, slice := 0, lba := d1.lbaOf a (vlogBase + h)
                         nlb := d1.lbaOf a (len - h) }).updWrite w (fun x => { x with left := x.left + 1 })
      else d1)

/-- R172, R517: one record goes to the vault log on every vault SSD of write `w`. Answers its place on each. -/
def Dev.logRecord (d : Dev) (w kind cls lsize : Nat) (stored : List Byte) (on : List Nat) : List (Nat × Nat) × Dev :=
  let (bs, d1) := d.vaultSeal kind lsize stored
  on.foldl (fun (x : List (Nat × Nat) × Dev) a =>
    let blk := (x.2.att a).lba
    let (pos, d2) := x.2.vaultSpace a ((bs.length + blk - 1) / blk * blk) cls w
    let (n, d3) := d2.askVault a (vlogBase + pos) cls w bs
    (x.1 ++ [(a, pos)], d3.updWrite w (fun y => { y with left := y.left + n }))) ([], d1)

/-- R516: the stored bytes of LOG_GRAIN and GEY_GRAIN: the entry as a put carries it, then the grain. -/
def Dev.grainStored (d : Dev) (key : Nat) : List Byte :=
  let e := d.dirKeyed key
  entryCopy (key % Config.dirEntries) e ++ d.entryBytes e

/-- A LOG_GRAIN of the grain at a directory key. -/
def Dev.logGrain (d : Dev) (w cls key : Nat) (on : List Nat) : Dev :=
  let e := d.dirKeyed key
  let st := d.grainStored key
  let (at_, d1) := d.logRecord w vkGrain cls e.bytes st on
  { d1 with mem := { d1.mem with live := d1.mem.live ++ [⟨e.grid, st, e.bytes, at_, w⟩] } }

/-- The journal records not yet in the vault log, oldest first. -/
def Dev.logBacklog (d : Dev) : List JRec := d.mde.ring.filter (fun r => decide (d.mem.jseq ≤ r.seq))

/-- LOG_JOURNAL records, of 1 to 63 journal records each. -/
def Dev.logJournal (d : Dev) (w cls : Nat) (recs : List JRec) (on : List Nat) : Dev :=
  match recs.head?, recs.getLast? with
  | some a, some b =>
    let d1 := d.each (chunks 63 (recs.length + 1) recs) (fun l d =>
      let st := l.flatMap JRec.bytes
      (d.logRecord w vkJournal cls st.length st on).2)
    { d1.updWrite w (fun x => { x with jfrom := some a.seq }) with mem := { (d1.updWrite w (fun x => { x with jfrom := some a.seq })).mem with
        jseq := b.seq + 1 } }
  | _, _ => d

/-- R172: a region group's vault write: its grains, and the journal records not yet in the log. -/
def Dev.vaultGroup (d : Dev) (g : Nat) : Dev :=
  match d.group g with
  | none => d
  | some r =>
    let on := d.vaultsOn
    let (w, d1) := d.newWrite (.group g) on
    let d2 := d1.each r.entries (fun i d => d.logGrain w vcCommit (dirKey r.slice i) on)
    let d3 := d2.logJournal w vcCommit d2.logBacklog on
    let d4 := d3.updGroup g (fun x => { x with upto := d3.mem.jseq })
    if d4.mem.writes.any (fun e => decide (e.1 = w) && decide (e.2.left = 0)) then
      { d4 with mem := { d4.mem with writes := tdel d4.mem.writes w, done := d4.mem.done ++ [(.group g, true)] } }
    else d4

/-- R172: the write of a group has ended, but journal records that the group needs are still on their way to the vault log with another. -/
def Dev.vaultHeld (d : Dev) (x : VFor × Bool) : Bool :=
  match x.1 with
  | .group g =>
    let n := ((d.group g).map (·.upto)).getD 0
    x.2 && (d.mem.writes.any (fun e => match e.2.jfrom with
      | some j => decide (j < n)
      | none => false) || (d.vaultThrough && decide (d.mem.jseq < n)))
  | _ => false

/-- R173: the catch-up pass writes a grain. -/
def Dev.vaultCatchup (d : Dev) (key : Nat) : Dev :=
  let on := d.vaultsOn
  let (w, d1) := d.newWrite (.catchup key) on
  d1.logGrain w vcCatchup key on

/-- R517: released grains are named, at most 504 to a record. -/
def Dev.vaultRelease (d : Dev) : Dev :=
  let ids := d.mem.relQ.take 504
  let on := d.vaultsOn
  let (w, d1) := { d with mem := { d.mem with relQ := d.mem.relQ.drop 504, live := d.mem.live.filter (fun r => !(ids.contains r.grid)) } }.newWrite
    (.release ids) on
  let st := ids.flatMap (fun i => leBytes 6 i ++ leBytes 2 0)
  (d1.logRecord w vkRelease vcCommit st.length st on).2

/-- What a vault write is doing for a group or a grain already. -/
def Dev.vaultOut (d : Dev) (f : VFor) : Bool :=
  d.mem.writes.any (fun e => decide (e.2.why = f)) || d.mem.done.any (fun e => decide (e.1 = f))

/-- R482, R521: an adopted grain: the peer drew its record. Its pages lie in the mirror area, or, where it came from the peer's vault, in own pages. -/
def Dev.isAdopted (d : Dev) (e : DirEntry) : Bool := e.adopted || decide (e.grid / 2 ^ 47 ≠ d.slotId)

/-- R173, R521: the grain that the catch-up pass writes next: adopted grains first, then own grains, each oldest first. -/
def Dev.nextCatchup (d : Dev) : Option Nat :=
  let l := d.cal.dirs.filter (fun e => e.2.unvaulted && !e.2.vaultRetry && !d.vaultOut (.catchup e.1))
  let pick (l : List (Nat × DirEntry)) : Option (Nat × DirEntry) := l.foldl (fun best e => match best with
    | none => some e
    | some b => if e.2.before b.2 then some e else some b) none
  ((pick (l.filter (fun e => d.isAdopted e.2))).orElse (fun _ => pick (l.filter (fun e => !d.isAdopted e.2)))).map (·.1)

/-- R472: in service beside a peer, nothing is committed to the vault alone before the own VAULT_ONLY bit is set. -/
def Dev.vaultOnlySet (d : Dev) : Bool :=
  let st := d.fld Reg.FOV_STS_STATE
  Nat.testBit (d.fld Reg.FOV_WIT_STS_VAULT_ONLY) d.slotId || !(decide (st = 1 ∨ st = 2 ∨ st = 3 ∨ st = 6)) ||
    !(d.flag Reg.GLB_CAL_STS_MIRROR_BROKEN || d.flag Reg.GLB_CAL_STS_PEER_ABSENT)

/-- The vault log's work at a beat edge: commits, then one grain of the catch-up pass, a journal record and a release. A head that flushes
writes none of them (R518). -/
def Dev.vaultStep (d : Dev) : Dev :=
  let free (d : Dev) : Bool := d.vaultMay && !d.vaultsOn.isEmpty && !d.cal.pwrfail && d.vaultOnlySet
  if free d = false then d
  else
    let gs := (d.cal.groups.filter (fun e => e.2.vault && e.2.placed && !d.vaultOut (.group e.1))).map (·.1)
    let d1 := d.each gs (fun g d => if free d then d.vaultGroup g else d)
    let d2 := match (if (d1.vaultThrough || d1.mem.image) && free d1 then d1.nextCatchup else none) with
      | some k => d1.vaultCatchup k
      | none => d1
    let d3 := if d2.vaultThrough && free d2 && !d2.logBacklog.isEmpty then
        let (w, d) := d2.newWrite .journal d2.vaultsOn
        d.logJournal w vcCommit (d.logBacklog.take 63) d.vaultsOn
      else d2
    if free d3 && !d3.mem.relQ.isEmpty then d3.vaultRelease else d3

/-- R153: the LOG_RELEASE that names grains is written: an entry that waited for it alone is FREE. -/
def Dev.logReleased (d : Dev) (ids : List Nat) : Dev :=
  let l := (d.cal.dirs.filter (fun e => e.2.logRel && ids.contains e.2.grid)).map (·.1)
  d.each l (fun k d => (d.updDirKey k (fun e => { e with vaulted := false })).freeEntry k)

/-! ### The end of a write (R172, R173, R175) -/

/-- A command of vault write `w` on SSD `a` has ended. With the last one the write ends: it succeeded if some SSD holds all of it. -/
def Dev.vaultEnd (d : Dev) (w a : Nat) (ok : Bool) : Dev :=
  match d.mem.writes.find? (fun e => decide (e.1 = w)) with
  | none => d
  | some (_, x) =>
    let bad := if ok then x.bad else a :: x.bad
    if x.left ≠ 1 then d.updWrite w (fun x => { x with left := x.left - 1, bad := bad })
    else
      let good := x.on.any (fun a => !(bad.contains a))
      let m := d.mem
      let live := (m.live.map (fun r => if r.write = w then { r with at_ := r.at_.filter (fun p => !(bad.contains p.1)) } else r)).filter
        (fun r => !r.at_.isEmpty)
      let m1 := { m with
        writes := tdel m.writes w, live := live
        jseq := if good then m.jseq else (match x.jfrom with
          | some j => min m.jseq j
          | none => m.jseq) }
      match x.why with
      | .group _ | .catchup _ => { d with mem := { m1 with done := m1.done ++ [(x.why, good)] } }
      | .release ids =>
        let d1 := { d with mem := { m1 with relQ := if good then m1.relQ else ids ++ m1.relQ } }
        d1.cond good (fun d => d.logReleased ids)
      | .label => { d with mem := { m1 with image := if d.mem.stage = 0 then false else m1.image } }
      | _ => { d with mem := m1 }

/-! ### Rewriting (R517) -/

/-- How far ahead of a head position a live record is written again: 1 MiB. -/
def rewriteMargin : Nat := 2 ^ 20

/-- R517: a live grain that a head position is about to reach. -/
def Dev.rewriteDue (d : Dev) : Option VRec :=
  d.mem.live.find? (fun r => r.at_.any (fun p =>
    let h := tget 0 d.mem.heads p.1
    decide ((p.2 + d.vlogBytes p.1 - h) % d.vlogBytes p.1 < rewriteMargin) && decide (p.2 ≠ h ∨ d.mem.live.length ≠ 1)) &&
    !(d.mem.writes.any (fun e => decide (e.1 = r.write))))

/-- VAULT_LOG_REWRITE, R517: the record is written again at the head, under a new VSEQ. -/
def Dev.vaultRewrite (d : Dev) : Dev :=
  match d.rewriteDue with
  | none => d
  | some r =>
    if d.vaultMay = false ∨ d.vaultsOn.isEmpty then d
    else
      let on := d.vaultsOn
      let (w, d1) := d.newWrite .rewrite on
      let (at_, d2) := d1.logRecord w vkGrain vcRewrite r.lsize r.stored on
      { d2 with mem := { d2.mem with live := d2.mem.live.filter (fun x => decide (x ≠ r)) ++ [{ r with at_ := at_, write := w }] } }

def execVaultLogRewrite (s : State) : Ans := lift Dev.vaultRewrite s

end Sys2Proof.Machine
end

