-- ==== Sys2Proof/Machine/Drives.lean ====
section
/-! DEFINITION. The drive complex: ports, presence, the NVMe initiator, preempts and the witness drives, retirement and rebuild
(R381, R382, R386 to R415), and what a head does when it is FENCED (R480). -/
namespace Sys2Proof.Machine

/-! ### FENCED (R480) -/

/-- R388: the shared attach points. -/
def Dev.sharedAtts (d : Dev) : List Nat := (List.range 128).filter (fun a => !d.isVault a)

/-- R124: a group's ANA state, where it changes, changes at the next edge. -/
def Dev.anaTo (d : Dev) (g st : Nat) : Dev := { d with edge := d.edge ++ [.ana g st] }
def Dev.anaAll (d : Dev) (sel : Nat → Bool) (st : Nat) : Dev := d.each ((List.range 64).filter sel) (fun g d => d.anaTo g st)

/-- R480: the head is FENCED, or will be at the next edge. -/
def Dev.fencing (d : Dev) : Bool :=
  decide (d.fld Reg.FOV_STS_STATE = 7) || d.edge.any (fun a => match a with
    | .fence _ => true
    | _ => false)

/-- R480, R486: a cause of FENCED, which the head enters at the next edge. -/
def Dev.fence (d : Dev) (cause : Nat) : Dev := if d.fencing then d else { d with edge := d.edge ++ [.fence cause] }

/-- R480: at this edge the head enters FENCED: every group goes to Persistent Loss, every shared attach point stops, CLAIM_OUT is deasserted. -/
def Dev.fenceNow (d : Dev) (cause : Nat) : Dev :=
  if d.fld Reg.FOV_STS_STATE = 7 then d
  else
    let d1 := ((d.setFld Reg.FOV_STS_STATE 7).setFld Reg.FOV_STS_FENCE_CAUSE cause).setFld Reg.FOV_STS_CLAIM_OUT 0
    let d2 := d1.each (List.range 64) (fun g d => d.setAna g anaLoss)
    (d2.each d2.sharedAtts (fun a d => d.stopUnit (.att a) attFenced)).raise 1636 cause 0 0

/-! ### Ports (R387, R388, R391 to R393) -/

/-- The attach points of a port. -/
def portAtts (p : Nat) : List Nat := (List.range 4).map (fun i => 4 * p + i)
def Dev.portOff (d : Dev) (p : Nat) : Bool := (portAtts p).all (fun a => decide (d.ustate (.att a) = .off))

/-- DRV_PORT_MODE_WRITE, R387, R388. -/
def Dev.portMode (d : Dev) (p mode : Nat) : Dev :=
  if d.flag (Reg.DRV_PORT_STS_VAULT p) ∨ d.portOff p = false then d else d.setFld (Reg.DRV_PORT_CTL_MODE p) mode

def execDrvPortModeWrite (p mode : Nat) (s : State) : Ans := lift (fun d => d.portMode p mode) s

/-- PERST, R392. -/
def Dev.perst (d : Dev) (p : Nat) : Dev :=
  if d.portOff p then ((d.setFld (Reg.DRV_PORT_CTL_PERST p) 1).setFld (Reg.DRV_PORT_STS_PERST_ASSERTED p) 1).arm (tmPerst p)
  else d.setFld (Reg.DRV_PORT_STS_PERST_REFUSED p) 1

def execPerst (p : Nat) (s : State) : Ans := lift (fun d => d.perst p) s

/-- R392: PERST_N of a port may be released: PERST_HOLD beats after the write that asserted it, or after reset once an attach point of the
port has left OFF. -/
def Dev.perstDue (d : Dev) (p : Nat) : Bool :=
  let hold := d.fld (Reg.DRV_PORT_CFG_PERST_HOLD p)
  d.flag (Reg.DRV_PORT_STS_PERST_ASSERTED p) &&
    (if d.flag (Reg.DRV_PORT_CTL_PERST p) then d.expired (tmPerst p) hold else d.drv.perstWant.contains p && decide (hold ≤ d.edges))

/-- PERST_RELEASE, R392. -/
def Dev.perstRelease (d : Dev) (p : Nat) : Dev :=
  if d.perstDue p then
    (((d.setFld (Reg.DRV_PORT_CTL_PERST p) 0).setFld (Reg.DRV_PORT_STS_PERST_ASSERTED p) 0)).disarm (tmPerst p)
  else d

def execPerstRelease (p : Nat) (s : State) : Ans := lift (fun d => d.perstRelease p) s

/-- PRESENCE_CHANGE, R393: insertion starts nothing. -/
def Dev.presence (d : Dev) (a : Nat) (b : Bool) : Dev :=
  if d.flag (Reg.DRV_ATT_STS_PRESENT a) = b then d
  else (d.setFlag (Reg.DRV_ATT_STS_PRESENT a) b).raise (1091 + 4 * a) (if b then 1 else 0) 0 0

def execPresenceChange (a : Nat) (b : Bool) (s : State) : Ans := lift (fun d => d.presence a b) s

/-! ### What a drive command's end does (R288, R293, R400, R403, R404, R406) -/

/-- R406: an outcome of a witness drive: 0 WON, 1 LOST, 2 UNREACHABLE. -/
def Dev.witOutcome (d : Dev) (i o : Nat) : Dev :=
  let last := d.fld Reg.DRV_WIT_STS_LAST
  let last' := last - last / 4 ^ i % 4 * 4 ^ i + o * 4 ^ i
  let d1 := { d with drv := { d.drv with wit := tput 0 d.drv.wit i (o + 1) } }.setFld Reg.DRV_WIT_STS_LAST last'
  d1.cond (decide (o = 2)) (fun d => d.raise 26 i (d.fld (Reg.DRV_WIT_CFG_WIT i)) 0)

/-- R404, R414: a drive's preempt ends with RESULT 1 done, 2 failed or 3 timed out; a drive on which it did not succeed is fenced. -/
def Dev.preResult (d : Dev) (a result status : Nat) : Dev :=
  let d1 := { d with drv := { d.drv with pre := tupd {} d.drv.pre a (fun x => { x with result := result, status := status % 256 }) } }
  d1.cond (decide (result ≠ 1)) (fun d => (d.raise 24 a result status).stopUnit (.att a) attFenced)

/-- R404: the preempt is done when no attach point's result is open. -/
def Dev.preOpen (d : Dev) : List Nat :=
  (d.drv.pre.filter (fun e => decide (e.2.result = 0) && decide (e.2.key ≠ 0))).map (·.1)
def Dev.preDone (d : Dev) : Dev :=
  if d.preOpen.isEmpty then d.setFld Reg.DRV_STS_PREEMPT_BUSY 0 else d

/-- R408: a piece of a rebuilt strip has been written, or failed. The last piece updates the descriptor, or leaves the strip to be
rebuilt again. -/
def Dev.rebuildWritten (d : Dev) (seg s : Nat) (ok : Bool) : Dev :=
  let upd := d.drv.rebWrites.map (fun (w : RebWrite) => if w.seg = seg ∧ w.strip = s then { w with writes := w.writes - 1, bad := w.bad || !ok } else w)
  let d1 := { d with drv := { d.drv with rebWrites := upd } }
  match upd.find? (fun w => decide (w.seg = seg) && decide (w.strip = s)) with
  | none => d
  | some w =>
    if w.writes ≠ 0 then d1
    else
      let d2 := { d1 with drv := { d1.drv with rebWrites := upd.filter (fun w => !(decide (w.seg = seg) && decide (w.strip = s))) } }
      match d2.segDesc seg with
      | none => d2
      | some x =>
        if w.bad then
          { d2 with
            drv := { d2.drv with
            used := tput false d2.drv.used (unitKey w.drive w.loc) false, rebuilds := d2.drv.rebuilds ++ [(seg, s)] } }
        else
          let old := ((x.strips[s]?).map (·.1)).getD 0
          let d3 := d2.updSegEnt seg (fun e => { e with desc := { x with strips := x.strips.set s (w.drive, w.loc) }.bytes })
          { d3 with drv := { d3.drv with rebuilt := tupd 0 d3.drv.rebuilt old (fun n => n + 1) } }

/-- R409: strips still to rebuild from a drive. -/
def Dev.rebuildLeft (d : Dev) (a : Nat) : Nat :=
  let on (e : Nat × Nat) : Bool := match d.segDesc e.1 with
    | some x => decide (((x.strips[e.2]?).map (·.1)) = some a)
    | none => false
  (d.drv.rebuilds.filter on).length + ((d.drv.rebSolve.flatMap (fun e => e.2.map (fun w => (e.1, w.1)))).filter on).length + (d.drv.rebWrites.filter (fun w => on (w.seg, w.strip))).length

/-- R410: DRV_REBUILD_POS and LEFT follow the list. A drive whose last strip is rebuilt waits for the first full checkpoint that begins
afterwards (R409). -/
def Dev.refreshRebuild (d : Dev) : Dev :=
  let n := d.drv.rebuilds.length + d.drv.rebWrites.length + (d.drv.rebSolve.flatMap (·.2)).length
  let d1 := (d.setFld Reg.DRV_REBUILD_LEFT_STRIPS n).setFld Reg.DRV_REBUILD_POS_SEGMENT ((d.drv.rebuilds.head?.map (·.1)).getD 0)
  let due := (List.range 128).filter (fun a => d1.flag (Reg.DRV_ATT_STS_RETIRED a) && !d1.flag (Reg.DRV_ATT_STS_REBUILT a) &&
    decide (d1.rebuildLeft a = 0) && decide (tget 0 d1.drv.rebuildCp a = 0))
  let cp := d1.fld Reg.MDE_CP_NUM_NUM + (if d1.mde.cpRun then 2 else 1)
  { d1 with drv := { d1.drv with rebuildCp := due.foldl (fun l a => tput 0 l a cp) d1.drv.rebuildCp } }

/-- The requester of a drive command is told how it ended. -/
def Dev.driveEnd (d : Dev) (a : Nat) (c : DrvCmd) (sct sc : Nat) (data : List Byte) (port : Bool) : Dev :=
  let ok := decide (sct = 0) && decide (sc = 0)
  match c.req with
  | .column r s => d.columnEnd r s ok port data
  | .record r => if ok then d.recordArrived r data else d.recordFailed r port
  | .strip seg s => d.stripWriteEnd seg s a ok
  | .rebuild seg s => (d.rebuildWritten seg s ok).refreshRebuild
  | .witness i => d.witOutcome i (if ok then 0 else if sct = 2 ∧ sc = 0x85 ∧ port = false then 1 else 2)
  | .anchor => d.cond ok (fun d => { d with mde := { d.mde with cpAnchors := d.mde.cpAnchors + 1 } })
  | .preempt => (d.preResult a (if ok then 1 else 2) sc).preDone
  | .vault w => d.vaultEnd w a ok
  | .release _ _ => d
  | .other => d

/-! ### Issue (R381, R382, R397, R398, R402) -/

/-- Slots of a drive in use. -/
def Dev.slotsOf (d : Dev) (a : Nat) : List (Nat × DrvCmd) := d.drv.slots.filter (fun e => decide (e.1 / 256 = a))

/-- R412: INFLIGHT follows the slots. -/
def Dev.refreshInfl (d : Dev) (a : Nat) : Dev := d.setFld (Reg.DRV_ATT_INFL_INFLIGHT a) (d.slotsOf a).length

/-- R402: the zone of a strip write, where the drive is zoned. -/
def Dev.zoneOf (d : Dev) (a : Nat) (c : DrvCmd) : Option Nat :=
  let x := d.att a
  if d.fld (Reg.DRV_ATT_CTL_PLACEMENT a) = 1 ∧ x.zs ≠ 0 ∧ c.op = 0x01 then some (c.lba * x.lba / (x.zs * stripBytes)) else none

/-- R402: a zoned drive takes one write of a zone at a time, in at most OPEN_ZONES zones. -/
def Dev.zoneFree (d : Dev) (a : Nat) (c : DrvCmd) : Bool :=
  match d.zoneOf a c with
  | none => true
  | some z =>
    let open_ := ((d.slotsOf a).filterMap (fun e => d.zoneOf a e.2)).eraseDups
    !(open_.contains z) && decide (open_.length < d.fld (Reg.DRV_ATT_CTL_OPEN_ZONES a))

/-- R397, R398: whether a waiting command may take a slot now. -/
def Dev.mayIssue (d : Dev) (a : Nat) (c : DrvCmd) : Bool :=
  let l := d.slotsOf a
  let low := (l.filter (fun e => decide (3 ≤ e.2.cls) && decide (e.2.cls ≤ 5))).length
  let x := d.att a
  decide (l.length < 256) && decide ((l.filter (fun e => decide (e.2.queue = c.slice % max 1 x.ioq))).length < x.entries) &&
    (if 3 ≤ c.cls ∧ c.cls ≤ 5 then decide (low < 256 - min 128 (d.fld Reg.GLB_RD_CFG_RESERVE)) else true) && d.zoneFree a c

/-- R381, R382: the place of a waiting command: reservation and witness commands, then classes 3 to 5 that have waited LOW_EVERY beats,
then the classes in order. On a vault attach point the kinds come in their own order, from 8 up. -/
def Dev.issueRank (d : Dev) (c : DrvCmd) : Nat :=
  if c.cls = 0 then 0
  else if 3 ≤ c.cls ∧ c.cls ≤ 5 ∧ d.fld Reg.GLB_RD_CFG_LOW_EVERY ≠ 0 ∧ d.fld Reg.GLB_RD_CFG_LOW_EVERY ≤ d.since c.asked then 1
  else c.cls + 1

/-- The waiting command that goes next on a drive, with its place in the queue. -/
def Dev.nextIssue (d : Dev) (a : Nat) : Option (Nat × DrvCmd) :=
  let l := (d.drv.queue.zipIdx.filter (fun (x : (Nat × DrvCmd) × Nat) => decide (x.1.1 = a))).map (fun x => (x.2, x.1.2))
  match l.find? (fun x => decide (x.2.cls = 0)) with
  | some x => if d.mayIssue a x.2 then some x else none
  | none => ((List.range 16).flatMap (fun r => l.filter (fun x => decide (d.issueRank x.2 = r)))).find? (fun x => d.mayIssue a x.2)

/-- R386, R387: the lanes of an attach point, first lane i of port p, and the balls of the port at which they lie. -/
def Dev.driveBall (d : Dev) (l : Nat) : Nat := if d.strap 4 then 4 * (l / 4) + 3 - l % 4 else l
def Dev.driveBalls (d : Dev) (a : Nat) : List Nat :=
  let mode := d.fld (Reg.DRV_PORT_CTL_MODE (a / 4))
  (List.range (if mode = 1 then 4 else if mode = 2 then 2 else if mode = 3 then 1 else 0)).map (fun i => d.driveBall (a + i))

/-- R397, R398: a command takes the lowest free slot and its slice's queue, and is issued. -/
def Dev.issueOne (d : Dev) (a i : Nat) (c : DrvCmd) : Dev :=
  let slot := ((List.range 256).find? (fun n => (d.drv.slots.find? (fun e => decide (e.1 = 256 * a + n))).isNone)).getD 0
  let c1 := { c with state := .issued, cid := slot, queue := c.slice % max 1 (d.att a).ioq, issued := d.beat }
  (({ d with
      drv := { d.drv with
      queue := d.drv.queue.eraseIdx i, slots := tins (tdel d.drv.slots (256 * a + slot)) (256 * a + slot) c1 } }.emit (.drive a (d.driveBalls a) c1)).refreshInfl a).count 0 0x008 1

def Dev.issueAll (d : Dev) (a : Nat) : Nat → Dev
  | 0 => d
  | fuel + 1 => match d.nextIssue a with
    | none => d
    | some (i, c) => (d.issueOne a i c).issueAll a fuel

/-- Commands waiting for an attach point that is not ON end as failed; so does one of no class after CMD_TIMEOUT beats (R381, R396). -/
def Dev.failWaiting (d : Dev) (a : Nat) : Dev :=
  let gone (c : DrvCmd) : Bool := !d.isOn (.att a) || (decide (c.cls = 0) && decide (d.fld Reg.DRV_CFG_CMD_TIMEOUT ≤ d.since c.asked))
  let l := d.drv.queue.filter (fun e => decide (e.1 = a) && gone e.2)
  let d1 := { d with drv := { d.drv with queue := d.drv.queue.filter (fun e => !(decide (e.1 = a) && gone e.2)) } }
  d1.each l (fun e d => d.driveEnd a e.2 7 0 [] true)

/-- R170, R518: from a PWRFAIL_N assertion destage, rebuild and their like issue no further command on shared drives. -/
def Dev.driveHeld (d : Dev) (a : Nat) : Bool := d.cal.pwrfail && !d.isVault a

/-- DRIVE_COMMAND_ISSUE, R381, R382, R398. -/
def Dev.driveIssue (d : Dev) (a : Nat) : Dev :=
  let d1 := d.failWaiting a
  if d1.isOn (.att a) ∧ d1.driveHeld a = false then d1.issueAll a 256 else d1

def execDriveCommandIssue (a : Nat) (s : State) : Ans := lift (fun d => d.driveIssue a) s

/-! ### Completion and timeout (R399, R400, R403) -/

def Dev.slotCmd (d : Dev) (a slot : Nat) : Option DrvCmd := (d.drv.slots.find? (fun e => decide (e.1 = 256 * a + slot))).map (·.2)
def Dev.freeDrvSlot (d : Dev) (a slot : Nat) : Dev :=
  ({ d with drv := { d.drv with slots := tdel d.drv.slots (256 * a + slot) } }).refreshInfl a

/-- R415: a command timed out or failed; `status` is the drive's. -/
def Dev.raiseDrive (d : Dev) (a : Nat) (c : DrvCmd) (status : Nat) : Dev := d.raiseOnce (0x30000 + a) (1090 + 4 * a) c.op status c.lba

/-- R402: zones that a release left full and wholly free are reset, and their strip units may be used again. -/
def Dev.resetZones (d : Dev) (a : Nat) : Dev :=
  let x := d.att a
  if x.zs = 0 ∨ d.fld (Reg.DRV_ATT_CTL_PLACEMENT a) ≠ 1 then d
  else
    let mine := (d.drv.released.filter (fun k => decide (k / 2 ^ 32 = a))).map (fun k => k % 2 ^ 32)
    let zones := (mine.map (fun l => l / x.zs)).eraseDups
    let full := zones.filter (fun z => decide ((mine.filter (fun l => decide (l / x.zs = z))).length = x.zcap))
    d.each full (fun z d =>
      let keys := mine.filter (fun l => decide (l / x.zs = z))
      let d1 := { d with
        drv := { d.drv with
        released := d.drv.released.filter (fun k => !(decide (k / 2 ^ 32 = a) && keys.contains (k % 2 ^ 32)))
        used := keys.foldl (fun u l => tput false u (unitKey a l) false) d.drv.used } }
      d1.askDrive a { req := .other, cls := 3, op := 0x79, slice := 0, lba := d.lbaOf a (z * x.zs * stripBytes), nlb := 0, arg := 4 })

/-- DRIVE_COMPLETION, R400, R403: a completion entry is processed; one of a command that has timed out only frees its slot. -/
def Dev.driveCompletion (d : Dev) (a slot sct sc : Nat) (data : List Byte) : Dev :=
  match d.slotCmd a slot with
  | none => d
  | some c =>
    let d1 := ((d.freeDrvSlot a slot).bump (Reg.DRV_ATT_CMDS_COUNT a) 1).count 0 0x009 1
    if c.state = .timedOut then d1
    else
      let ok := decide (sct = 0) && decide (sc = 0)
      let d2 := if ok then d1
        else (d1.bumpSat (if c.op = 0x02 then Reg.DRV_ATT_READ_ERR_COUNT a else Reg.DRV_ATT_WRITE_ERR_COUNT a) 1).raiseDrive a c (256 * sct + sc)
      let d3 := if sct = 0 ∧ sc = 0x83 ∧ d2.isVault a = false then
          ((d2.raise 25 a c.op 0).stopUnit (.att a) attFenced).fence 5
        else d2
      d3.driveEnd a c sct sc data false

def execDriveCompletion (a slot sct sc : Nat) (data : List Byte) (s : State) : Ans := lift (fun d => d.driveCompletion a slot sct sc data) s

/-- DRIVE_COMMAND_TIMEOUT, R399. -/
def Dev.driveTimeout (d : Dev) (a slot : Nat) : Dev :=
  match d.slotCmd a slot with
  | none => d
  | some c =>
    let from_ := if c.cls = 0 then c.asked else c.issued
    if c.state ≠ .issued ∨ d.since from_ < d.fld Reg.DRV_CFG_CMD_TIMEOUT then d
    else
      let k := 256 * a + slot
      let d1 := { d with drv := { d.drv with slots := tins (tdel d.drv.slots k) k { c with state := .timedOut } } }
      let d2 := ((d1.bumpSat (Reg.DRV_ATT_TIMEOUTS_COUNT a) 1).emit (.driveAdmin a 0x08)).raiseDrive a c 0xFFFF
      let d3 := d2.updAtt a (fun x => { x with
        timeouts := if x.timeoutEpoch = d.epoch then x.timeouts + 1 else 1, timeoutEpoch := d.epoch })
      let d4 := d3.cond (decide (d3.fld Reg.DRV_CFG_TIMEOUT_LIMIT ≤ (d3.att a).timeouts)) (fun d => d.stopUnit (.att a) attTimeouts)
      d4.driveEnd a c 7 0 [] true

def execDriveCommandTimeout (a slot : Nat) (s : State) : Ans := lift (fun d => d.driveTimeout a slot) s

/-- SURPRISE_DOWN, R393: every command in flight on the link ends with a failure, and the attach point stops with LINK_DOWN. -/
def Dev.surpriseDown (d : Dev) (a : Nat) : Dev :=
  if d.ustate (.att a) ≠ .on ∧ d.ustate (.att a) ≠ .starting then d
  else
    let l := d.slotsOf a
    let d1 := ({ d with drv := { d.drv with slots := d.drv.slots.filter (fun e => decide (e.1 / 256 ≠ a)) } }).refreshInfl a
    let d2 := d1.each (l.filter (fun e => decide (e.2.state = .issued))) (fun e d => d.driveEnd a e.2 7 0 [] true)
    d2.stopUnit (.att a) attLinkDown

def execSurpriseDown (a : Nat) (s : State) : Ans := lift (fun d => d.surpriseDown a) s

/-! ### Preempt and witness (R403 to R406) -/

/-- R403: a head's reservation key. -/
def resvKey (tag gen slot : Nat) : Nat := tag * 2 ^ 32 + gen * 2 ^ 8 + slot

/-- PREEMPT, R404: Reservation Acquire, Preempt and Abort, on every shared attach point that is ON, all at one edge. -/
def Dev.preempt (d : Dev) (prkey : Nat) : Dev :=
  let as := d.sharedAtts.filter (fun a => d.isOn (.att a))
  let d1 := { d with
    drv := { d.drv with
    pre := as.foldl (fun t a => tput {} t a ⟨0, 0, prkey⟩) [], preBeat := d.beat } }.setFld Reg.DRV_STS_PREEMPT_BUSY 1
  let own := resvKey (d.fld Reg.DRV_ARRAY_TAG_TAG) (d.fld Reg.DRV_RESV_GEN_GEN) d.slotId
  (d1.each as (fun a d => d.askDrive a { req := .preempt, cls := 0, op := 0x11, slice := 0, lba := 0, nlb := 0, data := leBytes 8 own ++ leBytes 8 prkey, arg := 5 })).preDone

def execPreempt (prkey : DWord) (s : State) : Ans := lift (fun d => d.preempt prkey.toNat) s

/-- PREEMPT_TIMEOUT, R404: attach points not done are fenced. -/
def Dev.preemptTimeout (d : Dev) : Dev :=
  if d.flag Reg.DRV_STS_PREEMPT_BUSY = false ∨ d.since d.drv.preBeat < d.fld Reg.DRV_PREEMPT_TIMEOUT then d
  else (d.each d.preOpen (fun a d => d.preResult a 3 0)).preDone

def execPreemptTimeout (s : State) : Ans := lift Dev.preemptTimeout s

/-- WITNESS_COMPARE_AND_WRITE, R406: one fused Compare and Write of the record's block on each witness drive, at one edge. A drive whose attach
point is not ON is UNREACHABLE at once. -/
def Dev.witnessCas (d : Dev) (old new : List Byte) : Dev :=
  let d0 := { d with drv := { d.drv with wit := [] } }
  d0.each (List.range 3) (fun i d =>
    let a := d.fld (Reg.DRV_WIT_CFG_WIT i)
    if d.flag Reg.DRV_WIT_CFG_VALID ∧ d.isOn (.att a) then
      d.askDrive a { req := .witness i, cls := 0, op := 0x05, slice := 0, lba := d.lbaOf a (d.fld Reg.DRV_WIT_BASE_LOC * stripBytes)
                     nlb := d.lbaOf a 4096, data := padTo 4096 old ++ padTo 4096 new, fua := true }
    else d.witOutcome i 2)

def execWitnessCompareAndWrite (old new : List Byte) (s : State) : Ans := lift (fun d => d.witnessCas old new) s

/-! ### Retirement and rebuild (R407 to R409) -/

/-- R408: the segments that this head rebuilds: its own, and the peer's while it holds them. -/
def Dev.rebuildable (d : Dev) (seg : Nat) : Bool := if seg / 2 ^ 31 = d.slotId then !d.mde.ownGone else d.mde.peerHeld

/-- R408: the strips of live segments on a drive, metadata segments first, each kind in ascending ID. -/
def Dev.stripsOn (d : Dev) (a : Nat) : List (Nat × Nat) :=
  let l := (d.mde.segs.filter (fun e => decide (e.2.state ≠ .free) && d.rebuildable e.1)).flatMap (fun e => match descOf e.2.desc with
    | none => []
    | some x => (x.strips.zipIdx.filter (fun (y : (Nat × Nat) × Nat) => decide (y.1.1 = a))).map (fun y => (x.kind, e.1, y.2)))
  ((l.filter (fun e => decide (e.1 = 2))) ++ (l.filter (fun e => decide (e.1 ≠ 2)))).map (·.2)

/-- R407, R408: a drive is retired and its rebuild is due. -/
def Dev.retireDrive (d : Dev) (a : Nat) : Dev :=
  if d.flag (Reg.DRV_ATT_STS_RETIRED a) then d
  else
    let l := d.stripsOn a
    let d1 := (((d.setFld (Reg.DRV_ATT_STS_RETIRED a) 1).setFld (Reg.DRV_ATT_STS_REBUILT a) 0).setFld Reg.DRV_STS_REBUILDING 1).disarm (tmRetire a)
    let d2 := { d1 with
      drv := { d1.drv with
      rebuilds := d1.drv.rebuilds ++ l, rebuilt := tput 0 d1.drv.rebuilt a 0, rebuildCp := tput 0 d1.drv.rebuildCp a 0 } }
    (d2.raise 22 a l.length 0).refreshRebuild

/-- RETIRE_TIMER_EXPIRE, R407. -/
def Dev.retireTimer (d : Dev) (a : Nat) : Dev :=
  if d.expired (tmRetire a) (d.fld Reg.DRV_REBUILD_DELAY_BEATS) ∧ d.isOn (.att a) = false then d.retireDrive a else d

def execRetireTimerExpire (a : Nat) (s : State) : Ans := lift (fun d => d.retireTimer a) s

/-- RETIRE_WRITE, R407, R409: a 1 retires the drive at once; a 0 is taken only once REBUILT is 1, and releases the drive's whole map. -/
def Dev.retireWrite (d : Dev) (a : Nat) (v : Bool) : Dev :=
  if v then (d.setFld (Reg.DRV_ATT_CTL_RETIRE a) 1).retireDrive a
  else if d.flag (Reg.DRV_ATT_STS_RETIRED a) = false then d.setFld (Reg.DRV_ATT_CTL_RETIRE a) 0
  else if d.flag (Reg.DRV_ATT_STS_REBUILT a) = false then d
  else
    let d1 := { d with
      drv := { d.drv with
      used := d.drv.used.filter (fun e => decide (e.1 / 2 ^ 32 ≠ a)), released := d.drv.released.filter (fun k => decide (k / 2 ^ 32 ≠ a))
      rebuildCp := tput 0 d.drv.rebuildCp a 0 } }
    (((d1.setFld (Reg.DRV_ATT_CTL_RETIRE a) 0).setFld (Reg.DRV_ATT_STS_RETIRED a) 0).setFld (Reg.DRV_ATT_STS_REBUILT a) 0).setFld
      (Reg.DRV_ATT_FREE_FREE a) (d1.fld (Reg.DRV_ATT_STRIPS_TOTAL a))

def execRetireWrite (a : Nat) (v : Bool) (s : State) : Ans := lift (fun d => d.retireWrite a v) s

/-- A reconstruction over whole strips: E at its first round and now, the rounds after the first, the bytes that the erasure unit takes in (R287), and the
strips, once they are rebuilt. -/
structure SolveRun where
  e0 : List Nat
  e : List Nat
  rounds : Nat := 0
  work : Nat := 0
  strips : Option (List (List Byte)) := none
deriving DecidableEq, Repr

/-- R290: rounds over whole strips, to the end. -/
def reconAll (keyOf : Nat → Option (Nat × List Byte)) (seg k m : Nat) (cols : List (List Byte)) : Nat → SolveRun → SolveRun
  | 0, x => x
  | fuel + 1, x =>
    let work := x.work + stripBytes * (k + m - x.e.length)
    match reconRound keyOf seg k m 0 stripBytes (0, fun _ => true) x.e cols with
    | .again e1 => reconAll keyOf seg k m cols fuel { x with e := e1, rounds := x.rounds + 1, work := work }
    | .ok strips => { x with strips := some strips, work := work }
    | .unrecoverable => x

/-- R290, R291: the reconstruction of a whole segment from what the reads of its strips gave, with `e` known lost beforehand; the records of the other
strips are checked first. -/
def Dev.reconWhole (d : Dev) (x : SegDesc) (e : List Nat) (cols : List StripRead) : SolveRun :=
  let bytes := colBytes cols
  let e1 := joinE e (colErased cols)
  let e2 := joinE e1 (failing d.slotKey x.seg x.k 0 e1 (fun s => bytes.getD s []))
  reconAll d.slotKey x.seg x.k x.m bytes (x.m + 2) { e0 := e2, e := e2 }

/-- R291, R304: the erasure unit of a slice has a whole segment to solve: what it counts, and the event of the outcome. -/
def Dev.reconCount (d : Dev) (s seg : Nat) (y : SolveRun) : Dev :=
  let d1 := (d.bumpSat (Reg.SLI_ECU_RECON_COUNT s) 1).bumpSat (Reg.SLI_ECU_ROUNDS_COUNT s) y.rounds
  if y.strips.isNone then (d1.bumpSat (Reg.SLI_ECU_UNRECOV_COUNT s) 1).raise (sliceSrc s 19) seg (stripMask y.e) 0
  else d1.cond (decide (y.e.length ≠ y.e0.length)) (fun d => d.raise (sliceSrc s 20) seg (stripMask y.e0) (stripMask y.e))

/-- R408: the drive that takes a rebuilt strip: in service, enabled for the kind, holding no strip of the segment, with the most free
strips. -/
def Dev.rebuildTarget (d : Dev) (x : SegDesc) : Option Nat :=
  ((d.drivesFor (decide (x.kind = 2))).filter (fun a => !(x.strips.any (fun s => decide (s.1 = a))) && (d.freeLoc a).isSome &&
      !(d.drv.rebWrites.any (fun w => decide (w.seg = x.seg) && decide (w.drive = a))))).foldl
    (fun (best : Option Nat) a => match best with
      | none => some a
      | some b => if d.fld (Reg.DRV_ATT_FREE_FREE b) < d.fld (Reg.DRV_ATT_FREE_FREE a) then some a else best) none

/-- R402, R408: write one rebuilt strip. -/
def Dev.rebuildWrite (d : Dev) (x : SegDesc) (s : Nat) (bs : List Byte) : Dev :=
  match d.rebuildTarget x with
  | none => { d with drv := { d.drv with rebuilds := d.drv.rebuilds ++ [(x.seg, s)] } }
  | some a =>
    let (loc, d1) := d.takeLoc a
    let (n, d2) := d1.askStrip a loc 4 (if 3 ≤ (d1.att a).handles then 2 else x.kind - 1) (x.seg % 8) (.rebuild x.seg s) bs
    { d2 with drv := { d2.drv with rebWrites := d2.drv.rebWrites ++ [⟨x.seg, s, a, loc, n, false⟩] } }

/-- R408: the erasure unit has solved a segment: each of its lost strips is written. -/
def Dev.rebuildSolved (d : Dev) (seg : Nat) : Dev :=
  let d1 := { d with drv := { d.drv with rebSolve := d.drv.rebSolve.filter (fun e => decide (e.1 ≠ seg)) } }
  match d.drv.rebSolve.find? (fun e => decide (e.1 = seg)), d.segDesc seg with
  | some e, some x => (d1.each e.2 (fun w d => d.rebuildWrite x w.1 w.2)).refreshRebuild
  | _, _ => d1.refreshRebuild

/-- REBUILD_STRIP, R287, R300, R408: the next segment on the list is read and goes to an erasure unit, which writes its lost strips when it has had its
quanta. A segment with more than m strips lost is left as it stands. `cols` is what the reads of its strips gave. -/
def Dev.rebuildStrip (d : Dev) (cols : List StripRead) : Dev :=
  match d.drv.rebuilds with
  | [] => d
  | (seg, _) :: _ =>
    let mine := (d.drv.rebuilds.filter (fun e => decide (e.1 = seg))).map (·.2)
    let used := if d.drv.rebEpoch = d.epoch then d.drv.rebUsed else 0
    let s := seg % 8
    if d.flag Reg.DRV_REBUILD_EN = false ∨ d.fld Reg.DRV_REBUILD_RATE < used + mine.length ∨ d.isOn (.slice s) = false ∨ d.flag (Reg.SLI_ECU_STS_FAULT s) then d
    else
      let d1 := { d with
        drv := { d.drv with
        rebuilds := d.drv.rebuilds.filter (fun e => decide (e.1 ≠ seg)), rebEpoch := d.epoch, rebUsed := used + mine.length } }
      match d.segDesc seg with
      | none => d1.refreshRebuild
      | some x =>
        let y := d1.reconWhole x ((x.strips.zipIdx.filter (fun (y : (Nat × Nat) × Nat) => !d.inService y.1.1)).map (·.2)) cols
        let d2 := d1.reconCount s seg y
        match y.strips with
        | some strips =>
          let par (i : Nat) : List Byte := parityStrip (i - x.k) stripBytes (strips.take x.k)
          let lost := mine.map (fun i => (i, if i < x.k then strips.getD i [] else par i))
          ({ d2 with drv := { d2.drv with rebSolve := d2.drv.rebSolve ++ [(seg, lost)] } }.addJobFor s .ecu 3 y.work (.rebuild seg)).refreshRebuild
        | none => (d2.raise 20 seg (stripMask y.e) 1).refreshRebuild

def execRebuildStrip (cols : List StripRead) (s : State) : Ans := lift (fun d => d.rebuildStrip cols) s

/-- R409: the checkpoint that completes a drive's rebuild has completed. -/
def Dev.rebuildDue (d : Dev) (a : Nat) : Bool :=
  let n := tget 0 d.drv.rebuildCp a
  decide (n ≠ 0) && decide (n ≤ d.fld Reg.MDE_CP_NUM_NUM) && d.flag (Reg.DRV_ATT_STS_RETIRED a) && !d.flag (Reg.DRV_ATT_STS_REBUILT a)

/-- REBUILD_COMPLETE, R409. -/
def Dev.rebuildComplete (d : Dev) (a : Nat) : Dev :=
  if d.rebuildDue a then
    let d1 := (d.setFld (Reg.DRV_ATT_STS_REBUILT a) 1).raise 23 a (tget 0 d.drv.rebuilt a) 0
    let more := (List.range 128).any (fun b => d1.flag (Reg.DRV_ATT_STS_RETIRED b) && !d1.flag (Reg.DRV_ATT_STS_REBUILT b))
    d1.cond (!more) (fun d => d.setFld Reg.DRV_STS_REBUILDING 0)
  else d

def execRebuildComplete (a : Nat) (s : State) : Ans := lift (fun d => d.rebuildComplete a) s

/-! ### Scrubbing (R298, R299) and reclaiming (R338, R402, R496) -/

/-- R299, R300: a segment that a check found damaged is solved whole: its live grains are relocated, or its damage is reported. -/
def Dev.scrubRepair (d : Dev) (x : SegDesc) (first : List Nat) (cols : List StripRead) : Dev :=
  let y := d.reconWhole x first cols
  let d1 := (d.reconCount (x.seg % 8) x.seg y).addJobFor (x.seg % 8) .ecu 3 y.work .none
  match y.strips with
  | some _ => (d1.relocCmd x.seg).raise 20 x.seg (stripMask y.e) 0
  | none => d1.raise 20 x.seg (stripMask y.e) 1

/-- The check of one segment by the scrub. Answers whether it was damaged. -/
def Dev.scrubSeg (d : Dev) (seg : Nat) (cols : List StripRead) : Bool × Dev :=
  match d.segDesc seg with
  | none => (false, d)
  | some x =>
    let v := verifyStrips d.slotKey x cols
    let d1 := d.addJobFor (seg % 8) .ecu 4 ((x.k + x.m) * stripBytes) .none
    if v.result = vrVerified then (false, d1) else (true, d1.scrubRepair x [v.strip] cols)

/-- R298: the segments that a pass walks, in ascending ID. -/
def Dev.scrubList (d : Dev) : List Nat :=
  (d.mde.segs.filter (fun e => decide (e.2.state ≠ .free) && (descOf e.2.desc).isSome && d.rebuildable e.1)).map (·.1)

/-- R300, R681: the slice whose erasure unit checks and solves a segment takes work. -/
def Dev.scrubMay (d : Dev) (seg : Nat) : Bool := d.isOn (.slice (seg % 8)) && !d.flag (Reg.SLI_ECU_STS_FAULT (seg % 8))

/-- One segment of a pass, from SCRUB_POS up; the end of the list ends the pass. -/
def Dev.scrubNext (d : Dev) (cols : List StripRead) : Dev :=
  let pos := d.fld Reg.GLB_LAY_SCRUB_POS_SEGMENT
  match d.scrubList.find? (fun s => decide (pos ≤ s)) with
  | none => d
  | some seg =>
    let n := ((d.segDesc seg).map (fun x => x.k + x.m)).getD 0
    if d.lay.scrubCredit < n ∨ d.scrubMay seg = false then d
    else
      let (bad, d1) := d.scrubSeg seg cols
      let d2 := { d1 with
        lay := { d1.lay with
        scrubCredit := d1.lay.scrubCredit - n, scrubbed := d1.lay.scrubbed + 1, damaged := d1.lay.damaged + (if bad then 1 else 0) } }
      match d.scrubList.find? (fun s => decide (seg < s)) with
      | some nxt => d2.setFld Reg.GLB_LAY_SCRUB_POS_SEGMENT nxt
      | none =>
        ({ d2 with lay := { d2.lay with scrubbed := 0, damaged := 0 } }.setFld Reg.GLB_LAY_SCRUB_POS_SEGMENT 0).raise 21
          d2.lay.scrubbed d2.lay.damaged 0

/-- R299, R378: segments queued for repair are taken before the walk goes on. -/
def Dev.scrubStep (d : Dev) (cols : List StripRead) : Dev :=
  match d.lay.repair with
  | seg :: t => if d.scrubMay seg then ({ d with lay := { d.lay with repair := t } }.scrubSeg seg cols).2 else d
  | [] => d.scrubNext cols

/-- SCRUB, R298: once per epoch RATE strips more may be read. `found` holds what the strips of each segment read gave, in order. -/
def Dev.scrub (d : Dev) (found : List (List StripRead)) : Dev :=
  if d.flag Reg.GLB_LAY_SCRUB_EN = false ∨ d.cal.pwrfail then d
  else
    let d1 := { d with lay := { d.lay with scrubCredit := d.lay.scrubCredit + d.fld Reg.GLB_LAY_SCRUB_RATE } }
    d1.each found (fun cols d => d.scrubStep cols)

def execScrub (found : List (List StripRead)) (s : State) : Ans := lift (fun d => d.scrub found) s

/-- R338, R365, R496: a segment may be reclaimed at this epoch edge. -/
def Dev.reclaimDue (d : Dev) (seg : Nat) : Bool :=
  let e := d.segEnt seg
  decide (e.state ≠ .free) && decide (e.live = 0) && decide (e.emptyEpoch ≠ 0) && decide (e.emptyEpoch + 1 ≤ d.epoch) &&
    decide (d.segRefs seg = 0) && (d.layOf seg).isNone && !(d.mde.relocReady.any (fun m => decide (m.seg = seg))) && !(d.mde.runPages.any (fun r => decide (r.2 = seg))) && d.rebuildable seg &&
    (d.linkUp || decide (d.fld Reg.FOV_STS_FENCE_OUT = 1) || !d.strap 5)

/-- R402: a strip of a reclaimed segment is released on its drive. -/
def Dev.releaseStrip (d : Dev) (seg s a loc : Nat) : Dev :=
  let k := unitKey a loc
  let d1 := d.setFld (Reg.DRV_ATT_FREE_FREE a) (d.fld (Reg.DRV_ATT_FREE_FREE a) + 1)
  if d.fld (Reg.DRV_ATT_CTL_PLACEMENT a) = 1 then ({ d1 with drv := { d1.drv with released := d1.drv.released ++ [k] } }).resetZones a
  else
    let d2 := { d1 with drv := { d1.drv with used := tput false d1.drv.used k false } }
    d2.cond (d2.isOn (.att a)) (fun d => d.askDrive a {
      req := .release seg s, cls := 3, op := 0x09, slice := 0
      lba := d.lbaOf a (loc * stripBytes), nlb := d.lbaOf a stripBytes, arg := 4 })

/-- SEGMENT_RECLAIM, R338. -/
def Dev.segmentReclaim (d : Dev) (seg : Nat) : Dev :=
  if d.reclaimDue seg = false then d
  else
    let d1 := d.journal (.segment seg 4)
    let d2 := match d.segDesc seg with
      | some x => d1.each x.strips.zipIdx (fun (y : (Nat × Nat) × Nat) d => d.releaseStrip seg y.2 y.1.1 y.1.2)
      | none => d1
    { d2 with mde := { d2.mde with segs := tput {} d2.mde.segs seg {} } }

def execSegmentReclaim (seg : Nat) (s : State) : Ans := lift (fun d => d.segmentReclaim seg) s

end Sys2Proof.Machine
end

