-- ==== Sys2Proof/Machine/Events.lean ====
section
/-! DEFINITION. The event controller and the Fumarole recorder (R560 to R581), and what the SMBus target answers (R578, R673). -/
namespace Sys2Proof.Machine

/-! ### The MSI-X table (R526, R564) -/

/-- The fields of vector v's entry in the MSI-X table at BAR2 offset 0xC_0000: address, data and mask bit, as PCIe lays them out. -/
def msixAddr (v : Nat) : Fld := ⟨Reg.bar2 + 0xC_0000 + 16 * v, 0, 64, 0, .rw⟩
def msixData (v : Nat) : Fld := ⟨Reg.bar2 + 0xC_0000 + 16 * v + 8, 0, 32, 0, .rw⟩
def msixMask (v : Nat) : Fld := ⟨Reg.bar2 + 0xC_0000 + 16 * v + 12, 0, 1, 1, .rw⟩
/-- The PBA bit of vector v, at BAR2 offset 0xD_0000. -/
def msixPba (v : Nat) : Fld := ⟨Reg.bar2 + 0xD_0000 + 4 * (v / 32), v % 32, 1, 0, .ro⟩

/-- R564: a message for a masked vector sets its PBA bit. -/
def Dev.sendMsix (d : Dev) (v : Nat) : Dev := if d.flag (msixMask v) then d.setFld (msixPba v) 1 else d.emit (.msix v)

/-- VECTOR_UNMASK, R564. -/
def Dev.vectorUnmask (d : Dev) (v : Nat) : Dev :=
  let d1 := d.setFld (msixMask v) 0
  if d1.flag (msixPba v) then (d1.setFld (msixPba v) 0).emit (.msix v) else d1

def execVectorUnmask (v : Nat) (s : State) : Ans := lift (fun d => d.vectorUnmask (v % 2048)) s

/-! ### Sequence numbers and records (R568, R569) -/

/-- R569: the SEQ after `s`. -/
def seqNext (s : Nat) : Nat := if s + 1 = 2 ^ 32 then 8192 else s + 1

/-- R569: `a` is newer than `b`. -/
def seqNewer (a b : Nat) : Bool :=
  if a < 8192 ∨ b < 8192 then decide (b < a)
  else
    let n := (a + (2 ^ 32 - 8192) - b) % (2 ^ 32 - 8192)
    decide (n ≠ 0) && decide (n < (2 ^ 32 - 8192) / 2)

/-- R568: a record's bytes. -/
def fumBytes (seq sev : Nat) (r : Raise) : List Byte :=
  withCrc (leBytes 4 seq ++ leBytes 2 r.code ++ leBytes 2 (r.src + 4096 * sev) ++ leBytes 8 r.beat ++ leBytes 4 r.p0 ++ leBytes 4 r.p1 ++
    leBytes 4 r.p2)

/-- The SEQ that a record's bytes carry. -/
def fumSeq (bs : List Byte) : Nat := leField bs 0 4

/-- Sources of the recorder, which writes their records itself (R581). -/
def fumSource (n : Nat) : Bool := decide (1984 ≤ n) && decide (n ≤ 1990)

/-- R571: ring records. -/
def ringRecs : Nat := 8192

/-- FUM_STS and FUM_UNFLUSHED follow the recorder (R580). -/
def Dev.fumMark (d : Dev) : Dev :=
  ((d.setFld Reg.FUM_UNFLUSHED_RECORDS d.fum.unflushed).setFld Reg.FUM_STS_LG_COUNT d.fum.lg.length).setFld Reg.FUM_STS_PIN_COUNT d.fum.pin.length

/-- R572: a flush is to start at the next beat edge. With the partition failed or the ring frozen, flushes do nothing (R576, R577). -/
def Dev.fumTrigger (d : Dev) : Dev :=
  if d.flag Reg.FUM_STS_NOR_FAILED ∨ (d.flag Reg.FUM_STS_FROZEN ∧ d.fum.lastFlush = false) then d.setFld Reg.FUM_CTL_FLUSH 0
  else d.setFld Reg.FUM_STS_FLUSHING 1

/-- R571, R572: a record enters the ring; the one it overwrites is lost to the partition if it was not flushed. -/
def Dev.ringPush (d : Dev) (seq : Nat) (bs : List Byte) : Dev :=
  let full := decide (ringRecs ≤ d.fum.ring.length)
  let gone := (d.fum.ring.head?.map (fun (e : Nat × List Byte) => e.1)).getD 0
  let ovr := full && decide (ringRecs ≤ d.fum.unflushed)
  let ring := (if full then d.fum.ring.drop 1 else d.fum.ring) ++ [(seq, bs)]
  let d1 := { d with
    fum := { d.fum with
      ring := ring, bad := d.fum.bad.filter (fun n => decide (n ≠ seq % ringRecs))
      unflushed := if ovr then ringRecs else d.fum.unflushed + 1
      lost := if ovr then some ((d.fum.lost.map (fun (e : Nat × Nat) => e.1)).getD gone, gone) else d.fum.lost } }
  let d2 := (d1.setFld Reg.FUM_NEWEST_SEQ seq).setFld Reg.FUM_OLDEST_SEQ ((ring.head?.map (fun (e : Nat × List Byte) => e.1)).getD seq)
  d2.cond ovr (fun d => d.bumpSat Reg.FUM_LOST_COUNT 1)

/-- R567, R571, R576, R577: one record is written: into the ring, into the last-gasp bank while the ring is frozen, and into the pin store
while it fills. A fault-class record starts a flush. -/
def Dev.fumWrite (d : Dev) (r : Raise) (sev : Nat) : Dev :=
  let seq := d.fld Reg.FUM_SEQ_NEXT_SEQ
  let bs := fumBytes seq sev r
  if d.flag Reg.FUM_STS_FROZEN then
    if d.fum.lg.length < 8 then
      (({ d with fum := { d.fum with lg := d.fum.lg ++ [bs] } }.setFld Reg.FUM_SEQ_NEXT_SEQ (seqNext seq))).fumMark
    else d.bumpSat Reg.FUM_DROPPED_COUNT 1
  else
    let d1 := (d.ringPush seq bs).setFld Reg.FUM_SEQ_NEXT_SEQ (seqNext seq)
    let pinned := decide (d1.fum.pinLeft ≠ 0) && decide (d1.fum.pin.length < 256)
    let d2 := { d1 with
      fum := { d1.fum with
        pin := if pinned then d1.fum.pin ++ [bs] else d1.fum.pin, pinLeft := d1.fum.pinLeft - 1
        fault := if faultClass sev then some (d1.fum.fault.getD seq) else d1.fum.fault } }
    let d3 := d2.cond (faultClass sev || decide (6144 ≤ d2.fum.unflushed)) Dev.fumTrigger
    d3.fumMark

/-- R581: the recorder writes the record of its own event, and the event's other routes act. -/
def Dev.fumOwn (d : Dev) (src p0 p1 : Nat) : Dev :=
  (d.fumWrite ⟨src, eventCode src, p0 % 2 ^ 32, p1 % 2 ^ 32, 0, d.beat⟩ (d.fld (Reg.EVC_ROUTE_SEV src))).raise src p0 p1 0

/-! ### Raising and routing (R563 to R567, R570) -/

/-- R567, R570: a raise routed to the recorder waits in the input queue, before SEQ_LOADED in the pre-load queue. -/
def Dev.fumQueue (d : Dev) (r : Raise) : Dev :=
  let sev := d.fld (Reg.EVC_ROUTE_SEV r.src)
  if d.flag Reg.FUM_STS_SEQ_LOADED = false then
    if d.fum.preload.length < 64 then { d with fum := { d.fum with preload := d.fum.preload ++ [(r, sev)] } }
    else d.bumpSat Reg.FUM_DROPPED_COUNT 1
  else if d.fum.queue.length < 1024 then { d with fum := { d.fum with queue := d.fum.queue ++ [(r, sev)] } }
  else { d with fum := { d.fum with drop := d.fum.drop + 1 } }.bumpSat Reg.FUM_DROPPED_COUNT 1

/-- EVENT_RAISE, R563: PENDING is set and the enabled routes act. A source that no chapter assigns is never raised (R560). -/
def Dev.eventRaise (d : Dev) (r : Raise) : Dev :=
  if r.code = 0 then d
  else
    let was := d.flag (Reg.EVC_PEND r.src)
    let d1 := d.setFld (Reg.EVC_PEND r.src) 1
    let d2 := d1.cond (d1.flag (Reg.EVC_ROUTE_MSIX_EN r.src) && !was) (fun d => d.sendMsix (d.fld (Reg.EVC_ROUTE_VECTOR r.src)))
    let d3 := d2.cond (d2.flag (Reg.EVC_ROUTE_STEW_EN r.src) && !was) (fun d => d.emit (.stewardIrq r.src))
    d3.cond (d3.flag (Reg.EVC_ROUTE_FUM_EN r.src) && !fumSource r.src) (fun d => d.fumQueue r)

def execEventRaise (src p0 p1 p2 beat : Nat) (s : State) : Ans :=
  lift (fun d => d.eventRaise ⟨src % 2048, eventCode (src % 2048), p0 % 2 ^ 32, p1 % 2 ^ 32, p2 % 2 ^ 32, beat⟩) s

/-- R566: the FAULT_N condition. -/
def Dev.faultCond (d : Dev) : Bool :=
  d.flag Reg.FUM_STS_LG_VALID || (List.range 2048).any (fun n => d.flag (Reg.EVC_PEND n) && d.flag (Reg.EVC_ROUTE_FAULT_EN n))

/-- FUMAROLE_RECORD_WRITE, R567: up to 4 records of a beat; once the queue has room again, the number dropped is recorded. -/
def Dev.fumRecord (d : Dev) : Dev :=
  let room := decide (d.fum.drop ≠ 0) && decide (d.fum.queue.length < 1024)
  let n := if room then 3 else 4
  let d1 := d.cond room (fun d => { d with fum := { d.fum with drop := 0 } }.fumOwn 1987 d.fum.drop 0)
  { d1 with fum := { d1.fum with queue := d1.fum.queue.drop n } }.each (d1.fum.queue.take n) (fun x d => d.fumWrite x.1 x.2)

def execFumaroleRecordWrite (s : State) : Ans := lift Dev.fumRecord s

/-! ### The log partition (R570, R572, R573, R577) -/

/-- R573: the slot of a record, with the sector erased before its first slot is written in the circulating region. -/
def Dev.norPut (d : Dev) (seq : Nat) (bs : List Byte) : Dev :=
  if seq < 8192 then { d with fum := { d.fum with nor := tput [] d.fum.nor seq bs } }
  else
    let a := d.fum.norAt
    let nor := if a % 128 = 0 then d.fum.nor.filter (fun e => decide (e.1 / 128 ≠ a / 128)) else d.fum.nor
    { d with fum := { d.fum with nor := tput [] nor a bs, norAt := if a + 1 = 131072 then 8192 else a + 1 } }

/-- FUMAROLE_FLUSH, R572, R576: every unflushed record that reads without error goes to the partition, in ascending SEQ. -/
def Dev.fumFlush (d : Dev) : Dev :=
  if d.flag Reg.FUM_STS_FLUSHING = false ∨ d.flag Reg.FUM_STS_NOR_FAILED ∨ (d.flag Reg.FUM_STS_FROZEN ∧ d.fum.lastFlush = false) then d
  else
    let d1 := match d.fum.lost with
      | some (a, b) => if d.flag Reg.FUM_STS_FROZEN then d else { d with fum := { d.fum with lost := none } }.fumOwn 1986 a b
      | none => d
    let l := d1.fum.ring.drop (d1.fum.ring.length - d1.fum.unflushed)
    let good := l.filter (fun e => !(d1.fum.bad.contains (e.1 % ringRecs)))
    let d2 := d1.each good (fun e d => (d.norPut e.1 e.2).setFld Reg.FUM_FLUSHED_SEQ e.1)
    let d3 := ({ d2 with
      fum := { d2.fum with unflushed := 0, fault := none, lastFlush := false } }.setFld Reg.FUM_STS_FLUSHING 0).setFld Reg.FUM_CTL_FLUSH 0
    let d4 := match d2.fum.fault with
      | some f => if d.flag Reg.FUM_STS_FROZEN then d3 else d3.fumOwn 1988 f ((good.getLast?.map (fun (e : Nat × List Byte) => e.1)).getD f)
      | none => d3
    d4.fumMark

def execFumaroleFlush (s : State) : Ans := lift Dev.fumFlush s

/-- FUM_CTL_FLUSH, R572: reads 1 until the flush ends. -/
def execFumCtlFlush (s : State) : Ans := lift (fun d => (d.setFld Reg.FUM_CTL_FLUSH 1).fumTrigger) s

/-- R570, R573: the newest valid record of the partition: its slot and SEQ. -/
def Dev.norNewest (d : Dev) : Option (Nat × Nat) :=
  d.fum.nor.foldl (fun (best : Option (Nat × Nat)) e =>
    if crcGood e.2 = false ∨ e.2.length ≠ 32 then best
    else match best with
      | none => some (e.1, fumSeq e.2)
      | some b => if seqNewer (fumSeq e.2) b.2 then some (e.1, fumSeq e.2) else best) none

/-- SEQ_LOAD, R570: FUM_SEQ_NEXT follows the partition's newest record, and what waited is recorded. -/
def Dev.seqLoad (d : Dev) : Dev :=
  if d.flag Reg.FUM_STS_SEQ_LOADED then d else
  let d1 := match d.norNewest with
    | some (slot, seq) =>
      ({ d with fum := { d.fum with norAt := if slot < 8192 ∨ slot + 1 = 131072 then 8192 else slot + 1 } }.setFld Reg.FUM_SEQ_NEXT_SEQ
        (seqNext seq)).setFld Reg.FUM_FLUSHED_SEQ seq
    | none => d.setFld Reg.FUM_SEQ_NEXT_SEQ 0
  let d2 := { d1 with fum := { d1.fum with preload := [] } }.setFld Reg.FUM_STS_SEQ_LOADED 1
  d2.each d.fum.preload (fun x d => d.fumWrite x.1 x.2)

def execSeqLoad (s : State) : Ans := lift Dev.seqLoad s

/-! ### Failures of the recorder's memory and of the partition (R576, R577) -/

/-- R576: the edge at which the ring freezes. A record written into the slot since has rewritten it, and the error is gone. -/
def Dev.freezeNow (d : Dev) (slot : Nat) : Dev :=
  if d.flag Reg.FUM_STS_FROZEN ∨ d.fum.bad.contains slot = false then d
  else
    let seq := ((d.fum.ring.find? (fun e => decide (e.1 % ringRecs = slot))).map (·.1)).getD slot
    let d1 := { d with fum := { d.fum with lg := [], lastFlush := true } }
    let d2 := ((d1.setFld Reg.FUM_STS_FROZEN 1).setFld Reg.FUM_STS_LG_VALID 1).fumOwn 1984 slot seq
    d2.fumTrigger

/-- RING_FREEZE, R576: the recorder finds an uncorrectable error in a slot; the ring freezes at the next beat edge. -/
def Dev.ringFreeze (d : Dev) (slot : Nat) : Dev :=
  if d.flag Reg.FUM_STS_FROZEN then d
  else { d with
    fum := { d.fum with bad := if d.fum.bad.contains slot then d.fum.bad else d.fum.bad ++ [slot] }
    edge := if d.edge.contains (.ringFreeze slot) then d.edge else d.edge ++ [.ringFreeze slot] }

def execRingFreeze (slot : Nat) (s : State) : Ans := lift (fun d => d.ringFreeze (slot % 8192)) s

/-- RESUME, R576: a frozen ring is cleared and recording goes on. -/
def Dev.fumResume (d : Dev) : Dev :=
  if d.flag Reg.FUM_STS_FROZEN then
    ({ d with fum := { d.fum with ring := [], unflushed := 0, bad := [], lastFlush := false, fault := none } }.setFld
      Reg.FUM_STS_FROZEN 0).fumOwn 1990 (d.fld Reg.FUM_SEQ_NEXT_SEQ) 0
  else d

def execResume (s : State) : Ans := lift Dev.fumResume s

/-- NOR_FAILURE, R577. -/
def Dev.norFailure (d : Dev) (kind off : Nat) : Dev :=
  if d.flag Reg.FUM_STS_NOR_FAILED then d
  else
    let frozen := d.flag Reg.FUM_STS_FROZEN
    let d1 := (((d.setFld Reg.FUM_STS_NOR_FAILED 1).setFld Reg.FUM_STS_FLUSHING 0).setFld Reg.FUM_CTL_FLUSH 0).setFld Reg.FUM_STS_PIN_VALID 1
    let d2 := { d1 with fum := { d1.fum with pinLeft := if frozen then 0 else 256 } }
    let seq := d2.fld Reg.FUM_SEQ_NEXT_SEQ
    let r : Raise := ⟨1985, eventCode 1985, kind % 2 ^ 32, off % 2 ^ 32, 0, d2.beat⟩
    let d3 := d2.cond (frozen && decide (d2.fum.pin.length < 256)) (fun d =>
      { d with fum := { d.fum with pin := d.fum.pin ++ [fumBytes seq (d.fld (Reg.EVC_ROUTE_SEV 1985)) r] } })
    (d3.fumOwn 1985 kind off).fumMark

def execNorFailure (kind off : Nat) (s : State) : Ans := lift (fun d => d.norFailure kind off) s

/-- NOR_RETRY, R577: flushing resumes from the oldest unflushed record. -/
def Dev.norRetry (d : Dev) : Dev :=
  if d.flag Reg.FUM_STS_NOR_FAILED then
    let oldest := ((d.fum.ring.drop (d.fum.ring.length - d.fum.unflushed)).head?.map (·.1)).getD (d.fld Reg.FUM_SEQ_NEXT_SEQ)
    ((d.setFld Reg.FUM_STS_NOR_FAILED 0).fumOwn 1989 oldest 0).fumTrigger
  else d

def execNorRetry (s : State) : Ans := lift Dev.norRetry s

/-! ### The SMBus target (R578, R673) -/

/-- R578: entry n of the last-gasp bank. -/
def execSmbusLastGaspEntry (n : Nat) (s : State) : Ans :=
  lift (fun d => d.emit (.smbus (padTo 32 (d.fum.lg.getD (n % 8) [])))) s

/-- R578: LG_COUNT, FROZEN and NOR_FAILED. -/
def execSmbusLastGaspStatus (s : State) : Ans :=
  lift (fun d => d.emit (.smbus (leBytes 1 (d.fld Reg.FUM_STS_LG_COUNT + 16 * d.fld Reg.FUM_STS_FROZEN + 32 * d.fld Reg.FUM_STS_NOR_FAILED)))) s

/-- R673: SEC_TEMP.NOW, then SEC_TEMP.MAX. -/
def execSmbusTemperature (s : State) : Ans :=
  lift (fun d => d.emit (.smbus (leBytes 1 (d.fld Reg.SEC_TEMP_NOW) ++ leBytes 1 (d.fld Reg.SEC_TEMP_MAX)))) s

/-- R673: FIS_STS.PHASE and MBX_GLB_STS.STEWARD. -/
def execSmbusPhase (s : State) : Ans :=
  lift (fun d => d.emit (.smbus (leBytes 1 (d.fld Reg.FIS_STS_PHASE + 4 * d.fld Reg.MBX_GLB_STS_STEWARD)))) s

/-- R673: any other command code is answered with a NACK. -/
def execSmbusOtherCommand (code : Nat) (s : State) : Ans := lift (fun d => let _ := code; d.emit .smbusNack) s

end Sys2Proof.Machine
end

