-- ==== Sys2Proof/Machine/MemCtl.lean ====
section
/-! DEFINITION. The memory controllers and the Geyser flush: training and retraining, memory errors by region, the flush at a power
failure and the restart after it (R500 to R525). -/
namespace Sys2Proof.Machine

/-! ### Address spaces and channels (R501 to R504) -/

def gib : Nat := 2 ^ 30

/-- R501: the populated DDR5 channels, in ascending order. -/
def Dev.ddrChans (d : Dev) : List Nat :=
  if d.fld Reg.MEM_STS_DDR_CFG < 2 then List.range 12 else (List.range 6).map (fun i => 2 * i)

/-- R524: the channels of the channel window. -/
def Dev.memChans (d : Dev) : List Nat := List.range 64 ++ d.ddrChans.map (fun c => 64 + c)

/-- R503: the channel that serves an address; none where the range holds no memory (R502). -/
def Dev.channelOf (d : Dev) (addr : Nat) : Option Nat :=
  if addr < 96 * gib then some (Nat.xor (addr / 2 ^ 8 % 64) (Nat.xor (addr / 2 ^ 14 % 64) (addr / 2 ^ 20 % 64)))
  else if 2 ^ 40 ≤ addr ∧ addr < 2 ^ 40 + d.fld Reg.MEM_STS_DDR_GIB * gib then
    let cs := d.ddrChans
    some (64 + cs.getD ((addr - 2 ^ 40) / 256 % cs.length) 0)
  else none

def Dev.memCh (d : Dev) (c : Nat) : MemCh := tget {} d.mem.chans c
def Dev.updCh (d : Dev) (c : Nat) (f : MemCh → MemCh) : Dev := { d with mem := { d.mem with chans := tupd {} d.mem.chans c f } }

/-! ### Training, load classes, retraining (R510 to R514) -/

def chAbsent : Nat := 0
def chTrained : Nat := 1
def chRetrain : Nat := 2
def chDegraded : Nat := 3

/-- R501: a DDR5 capacity that the straps' population can have: equal DIMMs of 32 to 256 GiB. -/
def Dev.ddrPopulated (d : Dev) (g : Nat) : Bool :=
  let cfg := d.fld Reg.MEM_STS_DDR_CFG
  let n := d.ddrChans.length * (1 + cfg % 2)
  decide (g % n = 0) && decide (32 ≤ g / n) && decide (g / n ≤ 256)

/-- MEMORY_START, R501, R510: the training of the start ends. `fail` is a FAIL_CODE and channel; the die temperature and the rows repaired
of each channel are what training found. A DDR5 population that breaks R501 fails with DDR_POP, at the first DDR5 channel. -/
def Dev.memStart (d : Dev) (fail : Option (Nat × Nat)) (ddrGib : Nat) (temps repairs : List (Nat × Nat)) : Dev :=
  if d.fld Reg.MEM_STS_START = 2 ∨ d.fld Reg.MEM_STS_START = 3 then d
  else match (if fail.isNone && !d.ddrPopulated ddrGib then some (3, 64) else fail) with
    | some (code, ch) => ((d.setFld Reg.MEM_STS_START 3).setFld Reg.MEM_STS_FAIL_CODE code).raise 1728 code ch 0
    | none =>
      let d1 := (d.setFld Reg.MEM_STS_START 2).setFld Reg.MEM_STS_DDR_GIB ddrGib
      d1.each d1.memChans (fun c d => d.updCh c (fun _ => {
        state := chTrained, temp := tget 0 temps c, now := tget 0 temps c, epoch := d.epoch % 2 ^ 32, repairs := tget 0 repairs c }))

def execMemoryStart (fail : Option (Nat × Nat)) (ddrGib : Nat) (temps repairs : List (Nat × Nat)) (s : State) : Ans :=
  lift (fun d => d.memStart fail ddrGib temps repairs) s

/-- R511: the load class of a utilisation in per cent. -/
def Dev.loadClass (d : Dev) (pct : Nat) : Nat :=
  if pct < d.fld Reg.MEM_CLASS_MED_PCT then 0 else if d.fld Reg.MEM_CLASS_FULL_PCT ≤ pct then 2 else 1

/-- R511: a memory takes its load class. -/
def Dev.setClass (d : Dev) (mem : Nat) (f : Fld) (c : Nat) : Dev :=
  if d.fld f = c then d else (d.setFld f c).raise 1733 mem (d.fld f) c

/-- A temperature in °C, two's complement of 8 bits. -/
def tempOf (n : Nat) : Int := if n % 256 < 128 then n % 256 else (n % 256 : Int) - 256

/-- R512: a channel retrains in this epoch. -/
def Dev.retrainDue (d : Dev) (c : Nat) : Bool :=
  let x := d.memCh c
  let cls := d.fld (if c < 64 then Reg.MEM_STS_HBM_CLASS else Reg.MEM_STS_DDR_CLASS)
  decide (x.state = chTrained) && (decide (d.fld Reg.MEM_RETRAIN_TEMP_DELTA < (tempOf x.now - tempOf x.temp).natAbs) || decide (cls ≠ x.cls) ||
    decide (d.fld Reg.MEM_RETRAIN_EPOCHS ≤ (d.epoch + 2 ^ 32 - x.epoch) % 2 ^ 32))

/-- LOAD_CLASS_UPDATE, R511, R512: an epoch edge. -/
def Dev.loadClassUpdate (d : Dev) (hbm ddr : Nat) (temps : List (Nat × Nat)) : Dev :=
  if d.fld Reg.MEM_STS_START ≠ 2 then d
  else
    let d1 := (d.setClass 0 Reg.MEM_STS_HBM_CLASS (d.loadClass hbm)).setClass 1 Reg.MEM_STS_DDR_CLASS (d.loadClass ddr)
    let d2 := d1.each d1.memChans (fun c d => d.updCh c (fun x => { x with
      cal := 0, now := ((temps.find? (fun t => decide (t.1 = c))).map (·.2)).getD x.now }))
    d2.each d2.memChans (fun c d => if d.retrainDue c then
      d.updCh c (fun x => { x with state := chRetrain, left := if c < 64 then 32 else 64 }) else d)

def execLoadClassUpdate (hbm ddr : Nat) (temps : List (Nat × Nat)) (s : State) : Ans := lift (fun d => d.loadClassUpdate hbm ddr temps) s

/-- R513: channels of one group never calibrate in one beat: an HBM3E stack, or all of DDR5. -/
def calGroup (c : Nat) : Nat := if c < 64 then c / 16 else 4

/-- R513: a channel may take a calibration beat now. -/
def Dev.mayCalibrate (d : Dev) (c : Nat) : Bool :=
  let x := d.memCh c
  decide (x.state = chRetrain) && decide (x.left ≠ 0) && decide (x.calBeat = 0 ∨ x.calBeat + 4096 ≤ d.edges + 1) &&
    !(d.mem.chans.any (fun e => decide (calGroup e.1 = calGroup c) && decide (e.2.calBeat = d.edges + 1)))

/-- CALIBRATION_BEAT, R513. -/
def Dev.calBeat (d : Dev) (c : Nat) : Dev :=
  if d.mayCalibrate c then (d.count 0 0x00C 1).updCh c (fun x => { x with left := x.left - 1, cal := min 255 (x.cal + 1), calBeat := d.edges + 1 }) else d

def execCalibrationBeat (ch : Nat) (s : State) : Ans := lift (fun d => d.calBeat ch) s

/-- RETRAIN_DONE, R512, R514. -/
def Dev.retrainDone (d : Dev) (c : Nat) (ok : Bool) : Dev :=
  let x := d.memCh c
  if x.state ≠ chRetrain ∨ x.left ≠ 0 then d
  else if ok then
    d.updCh c (fun x => { x with
      state := chTrained, fails := 0, temp := x.now, epoch := d.epoch % 2 ^ 32
      cls := d.fld (if c < 64 then Reg.MEM_STS_HBM_CLASS else Reg.MEM_STS_DDR_CLASS) })
  else
    let n := min 15 (x.fails + 1)
    let d1 := d.updCh c (fun x => { x with fails := n, state := if 3 ≤ n then chDegraded else chTrained })
    d1.cond (decide (3 ≤ n)) (fun d => d.raise 1734 c n 0)

def execRetrainDone (ch : Nat) (ok : Bool) (s : State) : Ans := lift (fun d => d.retrainDone ch ok) s

/-! ### Memory errors (R502, R506 to R509) -/

/-- What lies at an address (R504, R509). -/
inductive MemRegion where
  | grain (key : Nat)      -- a page of a grain in the Caldera, by directory key
  | ring                   -- a journal ring page
  | mirror (page : Nat)
  | readBuffer | manifest | metadata | bucket | window | heap
  | other
deriving DecidableEq, Repr

/-- R504: the region of an address. The HBM3E regions lie one after another in the order of R504's table. -/
def Dev.regionOf (d : Dev) (addr : Nat) : MemRegion :=
  let own := d.cal.dirs.find? (fun e => !e.2.adopted && decide (e.2.state ≠ .free) &&
    decide (e.2.page ≤ addr / 4096) && decide (addr / 4096 < e.2.page + 2 ^ e.2.size))
  let mir := (addr - 16 * gib) / 4096
  let adopted := d.cal.dirs.find? (fun e => e.2.adopted && decide (e.2.page ≤ mir) && decide (mir < e.2.page + 2 ^ e.2.size))
  let tph := d.fld Reg.MDE_TPH_BASE_BASE * 2 ^ 20
  if addr < 16 * gib then
    match own with
    | some e => .grain e.1
    | none => if d.cal.runs.any (fun r => decide (r.first ≤ addr / 4096) && decide (addr / 4096 < r.first + r.len)) then .other else .ring
  else if addr < 32 * gib then
    match adopted with
    | some e => .grain e.1
    | none => .mirror mir
  else if addr < 48 * gib then .readBuffer
  else if addr < 56 * gib then .manifest
  else if addr < 92 * gib then .metadata
  else if addr < 92 * gib + 7 * 2 ^ 29 then .window
  else if addr < 2 ^ 40 then .other
  else if tph ≤ addr ∧ addr < tph + 2 ^ (d.fld Reg.MDE_TPH_SIZE_LOG2_BUCKETS + 8) then .bucket
  else if 2 ^ 40 + (d.fld Reg.MEM_STS_DDR_GIB - 16) * gib ≤ addr then .heap
  else .metadata

/-- R509: a peer is in service. -/
def Dev.peerInService (d : Dev) : Bool := !d.flag Reg.GLB_CAL_STS_PEER_ABSENT

/-- R509: the row of the table that applies, counted from 0. A grain-record page of the peer's domain is the foreign table's (R495). -/
def Dev.regionRow (d : Dev) (r : MemRegion) (hit : Nat) : Nat :=
  match r with
  | .grain k =>
    let e := d.dirKeyed k
    if e.state = .placed ∨ e.state = .verified then 0 else if e.vaulted then 1 else if d.peerInService then 2 else 3
  | .ring => 4
  | .mirror _ => 5
  | .readBuffer => 6
  | .manifest => 7
  | .metadata => if pageClass hit = 1 ∧ hit / 2 ^ 47 ≠ d.slotId then 10 else 8
  | .bucket => 9
  | .window => 11
  | .heap => 12
  | .other => 13

/-- R509: what an uncorrectable error does. `hit` names the read, the segment, the page, the bucket or the ring page at the address, `bytes`
the grain as the vault log gives it. -/
def Dev.regionError (d : Dev) (r : MemRegion) (addr hit : Nat) (bytes : List Byte) : Dev :=
  match r with
  | .grain k =>
    let e := d.dirKeyed k
    (match d.regionRow r hit with
     | 0 => d.updDirKey k (fun e => { e with bad := true })
     | 1 =>
       let put (m : List Host.Cell) : List Host.Cell := writeBytes m (e.page * pageBytes) (bytes.take e.bytes)
       if e.adopted then { d with cal := { d.cal with mirror := put d.cal.mirror } } else { d with cal := { d.cal with own := put d.cal.own } }
     | 2 => d.fence 6
     | _ => (d.updDirKey k (fun e => { e with lost := true })).raise 1732 e.vol e.grid (e.grid / 2 ^ 32))
  | .ring =>
    if d.peerInService then d.fence 6
    else
      let inPage (x : JRec) : Bool := decide (x.seq / recsPerPage % ringPages = hit)
      { d with mde := { d.mde with ring := d.mde.ring.map (fun x => if inPage x then { x with good := false } else x) } }.raise 1732 0 0 0
  | .mirror p =>
    (match d.cal.mirDirs.find? (fun e => decide (e.2.page ≤ p) && decide (p < e.2.page + 2 ^ e.2.size)) with
     | some e => d.stopUnit (.qp e.2.mirrorQp) 0x0B
     | none => d)
  | .readBuffer =>
    let x := d.rdOf hit
    if x.active = false then d
    else if x.memErr then d.rdFail hit stInternal
    else (d.updRd hit (fun x => { x with memErr := true })).rdIssue hit
  | .manifest =>
    let l := d.tph.mans.filter (fun m => decide (m.seg ≠ hit))
    { d with tph := { d.tph with mans := l } }.setFld Reg.MDE_TPH_STS_MC_USED l.length
  | .metadata =>
    if pageClass hit = 1 then (if d.mde.away.contains hit then d else { d with mde := { d.mde with away := hit :: d.mde.away } })
    else if (d.mde.pages.find? (fun e => decide (e.1 = hit))).isSome then d.updPage hit (fun p => { p with resident := false }) else d
  | .bucket => d.setLine (addr / 256) (List.replicate 256 0)
  | .window => { d with ram := writeByte d.ram addr (readByte d.ram addr ^^^ 1) }
  | .heap => d.atEdge (.stewardRestart 3)
  | .other => d

/-- R507: the read tried again has failed as well: the error is uncorrectable and acts by region. -/
def Dev.memFail (d : Dev) (addr hit : Nat) (bytes : List Byte) : Dev :=
  let r := d.regionOf addr
  let d1 := d.bump Reg.MEM_UE_COUNT 1
  let d2 := if d1.flag Reg.MEM_ERR_ADDR_VALID then d1 else (d1.setFld Reg.MEM_ERR_ADDR_ADDR addr).setFld Reg.MEM_ERR_ADDR_VALID 1
  (d2.raise 1729 addr (addr / 2 ^ 32) (d2.regionRow r hit)).regionError r addr hit bytes

/-- MEMORY_READ_ERROR, R502, R507: an error that is corrected, or one whose read is tried again in the next beat. -/
def Dev.memError (d : Dev) (addr : Nat) (found : MemErr) (hit : Nat) (bytes : List Byte) : Dev :=
  match d.channelOf addr with
  | none => (d.bump Reg.MEM_UE_COUNT 1).raise 1731 addr (addr / 2 ^ 32) 0
  | some c =>
    match found with
    | .corrected =>
      ((d.updCh c (fun x => { x with ce := min (2 ^ 32 - 1) (x.ce + 1) })).bump Reg.MEM_CE_COUNT 1).raiseOnce 0x40000 1730 c 1 0
    | .uncorrected true => d
    | .uncorrected false => d.atEdge (.memFail addr hit bytes)

def execMemoryReadError (addr : Nat) (found : MemErr) (hit : Nat) (bytes : List Byte) (s : State) : Ans :=
  lift (fun d => d.memError (addr % 2 ^ 44) found hit bytes) s

/-- R508: the blocks that a beat of patrol scrub can have read: MEM_PATROL.RATE on each channel. -/
def Dev.patrolled (d : Dev) (errs : List (Nat × MemErr × Nat)) : List (Nat × MemErr × Nat) :=
  errs.foldl (fun l e => if (l.filter (fun x => decide (d.channelOf (x.1 % 2 ^ 44) = d.channelOf (e.1 % 2 ^ 44)))).length <
    d.fld Reg.MEM_PATROL_RATE then l ++ [e] else l) []

/-- PATROL_SCRUB, R508: an error that it finds acts as a read's. -/
def Dev.patrolScrub (d : Dev) (errs : List (Nat × MemErr × Nat)) : Dev :=
  if d.flag Reg.MEM_PATROL_EN ∧ d.fld Reg.MEM_STS_START = 2 then
    d.each (d.patrolled errs) (fun e d => d.memError (e.1 % 2 ^ 44) e.2.1 e.2.2 [])
  else d

def execPatrolScrub (errs : List (Nat × MemErr × Nat)) (s : State) : Ans := lift (fun d => d.patrolScrub errs) s

/-- R509: a lost grain's entry is given back once its insert is applied; its record, which is placed nowhere, then answers its reads. -/
def Dev.freeLost (d : Dev) : Dev :=
  d.each ((d.cal.dirs.filter (fun e => e.2.lost && decide (e.2.refs = 0) && !d.insertPending e.2.grid)).map (·.1)) (fun k d => d.freeEntry k)

/-! ### The Geyser flush (R170, R518 to R521) -/

/-- PWRFAIL, R170, R518: edge e. The FAIL_CODE of the host ports' hardware stop is not given. -/
def Dev.pwrFail (d : Dev) : Dev :=
  if d.cal.pwrfail ∨ d.pinsOn = false then d
  else
    let (n, d0) := d.draw
    let d1 := { d0 with
      cal := { d0.cal with pwrfail := true }
      mem := { d0.mem with selfRefresh := true }
      -- R381, R518: the catch-up pass issues no further command
      drv := { d0.drv with queue := d0.drv.queue.filter (fun e => decide (e.2.cls ≠ vcCatchup)) } }
    let d2 := (d1.setFld Reg.MEM_GEY_BEAT_BEAT d1.beat).each (List.range 16) (fun p d =>
      if d.ustate (.port p) = .off then d else d.stopUnit (.port p) (Config.freeNat n % 256))
    d2.fumTrigger.atEdge .geyser

def execPwrfail (s : State) : Ans := lift Dev.pwrFail s

/-- R251, R519: the image's GEY_NONCE entries. -/
def Dev.nonceEntries (d : Dev) : List Byte :=
  (d.key.slots.filter (fun e => decide (e.2.state ≠ .empty))).flatMap (fun e =>
    leBytes 2 e.1 ++ leBytes 2 (d.slotId * 2 ^ 15 + e.2.gen) ++ leBytes 8 e.2.counter ++ leBytes 4 0)

/-- R518: grains of the image, in admission order. -/
def Dev.geyGrains (d : Dev) (adopted : Bool) : List Nat :=
  ((d.cal.dirs.filter (fun e => decide (e.2.state ≠ .free) && !e.2.vaulted && !e.2.lost && decide (d.isAdopted e.2 = adopted))).mergeSort
    (fun a b => !(b.2.before a.2))).map (·.1)

/-- R516, R518: the image's records in order, as VKIND, LOGICAL_SIZE and stored bytes. -/
def Dev.geyImage (d : Dev) : List (Nat × Nat × List Byte) :=
  let rec1 (kind : Nat) (bs : List Byte) : List (Nat × Nat × List Byte) := if bs.isEmpty then [] else [(kind, bs.length, bs)]
  rec1 vkGeyNonce d.nonceEntries ++
    ((d.mde.ring.map (fun r => r.seq / recsPerPage)).eraseDups.map (fun p => (vkGeyJournal, 4096, d.ringPageBytes p))) ++
    ((d.geyGrains false ++ d.geyGrains true).map (fun k => (vkGeyGrain, (d.dirKeyed k).bytes, d.grainStored k))) ++
    rec1 vkGeyFum (d.fum.ring.flatMap (·.2))

/-- R518, R519, R523: edge e + 1: the flush begins, or is refused. -/
def Dev.geyserBegin (d : Dev) : Dev :=
  let refuse (r : Nat) : Dev := ((d.setFld Reg.MEM_GEY_STS_STATE 3).setFld Reg.MEM_GEY_STS_RESULT r).raise 1736 r 0 0
  -- R518, R657: a flush that runs, that of a debug opening included, goes on
  if d.fld Reg.MEM_GEY_STS_STATE = 1 then d
  else if (d.kslot vaultSlot).state ≠ .ready then refuse 1
  else if d.vaultsOn.isEmpty then refuse 2
  else if d.mem.image then refuse 3
  else
    let n := d.vaultsOn.length
    let d1 := (((d.setFld Reg.MEM_GEY_STS_STATE 1).setFld Reg.MEM_GEY_STS_RESULT (if n = 1 then 4 else 0)).setFld Reg.MEM_GEY_BYTES_BYTES 0).raise
      1735 d.ownDirty n 0
    { d1 with mem := { d1.mem with stage := 1, geyQ := d1.geyImage, geyT := 0, geyAt := [], geyCnt := [] } }

/-- The SSD number of a vault attach point. -/
def Dev.ssdNo (d : Dev) (a : Nat) : Nat := d.vaultAtts.findIdx (fun x => decide (x = a))

/-- One record of the image goes to an SSD's Geyser area. -/
def Dev.geyPut (d : Dev) (w a kind : Nat) (bs : List Byte) : Dev :=
  let pos := tget 0 d.mem.geyAt a
  let blk := (d.att a).lba
  let len := (bs.length + blk - 1) / blk * blk
  let (n, d1) := d.askVault a (d.geyBase a + pos) vcFlush w bs
  let d2 := { d1 with
    mem := { d1.mem with
      geyAt := tput 0 d1.mem.geyAt a (pos + len)
      geyCnt := tupd 0 d1.mem.geyCnt (2 * kind + d1.ssdNo a) (fun n => n + 1) } }
  (d2.updWrite w (fun x => { x with left := x.left + n })).bump Reg.MEM_GEY_BYTES_BYTES len

/-- R519: a record of the image: VKIND 5 and 6 in stripes of 1 MiB from SSD 0, the others on every SSD that is ON. -/
def Dev.geyRecord (d : Dev) (kind lsize : Nat) (stored : List Byte) : Dev :=
  let on := d.vaultsOn
  let (bs, d1) := d.vaultSeal kind lsize stored
  let striped := decide (kind = vkGeyGrain) || decide (kind = vkGeyJournal)
  let drs := if kind = vkHead then on.take 1 else if striped then [on.getD (d1.mem.geyT / 2 ^ 20 % max 1 on.length) 0] else on
  let (w, d2) := d1.newWrite .image drs
  let d3 := d2.each drs (fun a d => d.geyPut w a kind bs)
  if striped then { d3 with mem := { d3.mem with geyT := d3.mem.geyT + bs.length } } else d3

/-- The records that an edge may write: as long as slot 4,095 may draw (R250). -/
def Dev.geyRecords (d : Dev) : List (Nat × Nat × List Byte) → Dev
  | [] => { d with mem := { d.mem with geyQ := [] } }
  | x :: t => if d.vaultMay ∧ d.vaultsOn ≠ [] then (d.geyRecord x.1 x.2.1 x.2.2).geyRecords t else { d with mem := { d.mem with geyQ := x :: t } }

/-- R516: GEY_HEAD: the counts of VKIND 5 to 8 on SSD 0, then on SSD 1. -/
def Dev.headCounts (d : Dev) : List Byte :=
  (List.range 2).flatMap (fun n => [5, 6, 7, 8].flatMap (fun k => leBytes 8 (tget 0 d.mem.geyCnt (2 * k + n))))

/-- R515: records of the flush on an SSD. -/
def Dev.geyCount (d : Dev) (a : Nat) : Nat := ([4, 5, 6, 7, 8].map (fun k => tget 0 d.mem.geyCnt (2 * k + d.ssdNo a))).sum

/-- R515, R518, R523: the labels of every vault SSD that is ON. -/
def Dev.putLabels (d : Dev) (valid : Bool) : Dev :=
  let (w, d1) := d.newWrite .label d.vaultsOn
  d1.each d1.vaultsOn (fun a d =>
    let (n, d2) := d.askVault a 0 (if valid then vcFlush else vcCommit) w (d.labelBytes (d.ssdNo a) valid (d.geyCount a))
    d2.updWrite w (fun x => { x with left := x.left + n }))

/-- Writes of the flush still out. -/
def Dev.geyBusy (d : Dev) : Bool := d.mem.writes.any (fun e => decide (e.2.why = .image) || decide (e.2.why = .label))

/-- R518: the flush's work at a beat edge: records in order, then GEY_HEAD, then an NVMe Flush to the SSDs, then the labels. -/
def Dev.geyserStep (d : Dev) : Dev :=
  match d.mem.stage with
  | 1 =>
    let d1 := d.geyRecords d.mem.geyQ
    if d1.mem.geyQ.isEmpty then { d1 with mem := { d1.mem with stage := 2 } } else d1
  | 2 =>
    if d.geyBusy ∨ d.vaultMay = false then d
    else
      let st := d.headCounts
      let d1 := d.geyRecord vkHead st.length st
      { d1 with mem := { d1.mem with stage := 3 } }
  | 3 =>
    if d.geyBusy then d
    else
      let (w, d1) := d.newWrite .image d.vaultsOn
      let d2 := d1.each d1.vaultsOn (fun a d =>
        (d.askDrive a { req := .vault w, cls := vcFlush, op := 0x00, slice := 0, lba := 0, nlb := 0 }).updWrite w
          (fun x => { x with left := x.left + 1 }))
      { d2 with mem := { d2.mem with stage := 4 } }
  | 4 =>
    if d.geyBusy then d
    else { (d.putLabels true) with mem := { (d.putLabels true).mem with stage := 5 } }
  | _ => d

/-- R518: every label has been written. -/
def Dev.geyserDue (d : Dev) : Bool := decide (d.fld Reg.MEM_GEY_STS_STATE = 1) && decide (d.mem.stage = 5) && !d.geyBusy

/-- GEYSER_FLUSH_DONE, R518: the last label write completes: heartbeats and PULSE_OUT stop, and nothing is admitted until power-on reset. -/
def Dev.geyserDone (d : Dev) : Dev :=
  if d.geyserDue then
    (d.setFld Reg.MEM_GEY_STS_STATE 2).raise 1736 (d.fld Reg.MEM_GEY_STS_RESULT) (d.fld Reg.MEM_GEY_BYTES_BYTES / 2 ^ 20) 0
  else d

def execGeyserFlushDone (s : State) : Ans := lift Dev.geyserDone s

/-! ### OVER_BUDGET (R521) -/

/-- R521: pages of own and adopted grains that no vault log holds. -/
def Dev.unvaultedPages (d : Dev) : Nat :=
  (d.cal.dirs.filter (fun e => decide (e.2.state ≠ .free) && !e.2.vaulted)).foldl (fun n e => n + 2 ^ e.2.size) 0

def Dev.refreshBudget (d : Dev) : Dev :=
  let ovr := decide (4194304 < d.unvaultedPages) || (d.flag Reg.GLB_CAL_STS_ONE_VAULT && decide (2097152 < d.unvaultedPages))
  (d.setFlag Reg.GLB_CAL_STS_OVER_BUDGET ovr).cond (ovr && !d.flag Reg.GLB_CAL_STS_OVER_BUDGET) (fun d =>
    d.raise 4 (d.fld Reg.GLB_CAL_STS_MODE) d.vaultReasons 0)

/-! ### Restart after a flush (R522, R523) -/

/-- R515, R516: the labels that count, with their SSD number. -/
def Dev.goodLabels (d : Dev) (labels : List (Option (List Byte))) : List (Nat × List Byte) :=
  labels.zipIdx.filterMap (fun (x : Option (List Byte) × Nat) => match x.1 with
    | some b => if d.labelGood b then some (x.2, b) else none
    | none => none)

def labelValid (b : List Byte) : Bool := decide (leField b 7 1 % 2 = 1)
def labelBeat (b : List Byte) : Nat := leField b 16 8

/-- The records of an area of an SSD that are valid, in order, with their offsets; an SSD whose label does not count holds none. -/
def Dev.areaRecs (d : Dev) (good : List (Nat × List Byte)) (n : Nat) (l : List (List (Nat × List Byte))) : List (Nat × VaultRec) :=
  if good.any (fun g => decide (g.1 = n)) then (l.getD n []).filterMap (fun x => (d.vaultOpen x.2).map (fun r => (x.1, r))) else []

/-- R516, R522: the image's records on SSD n: as many as its label counts, from the area's start. -/
def Dev.imageRecs (d : Dev) (good : List (Nat × List Byte)) (image : List (List (Nat × List Byte))) (n : Nat) : List VaultRec :=
  match good.find? (fun g => decide (g.1 = n)) with
  | some g => if labelValid g.2 then ((d.areaRecs good n image).map (·.2)).take (leField g.2 24 8) else []
  | none => []

/-- R522: the image may be used. -/
def Dev.imageGood (d : Dev) (good : List (Nat × List Byte)) (recs : List (List VaultRec)) : Bool :=
  let beat := good.foldl (fun n g => max n (labelBeat g.2)) 0
  let now := good.filter (fun g => decide (labelBeat g.2 = beat))
  let count (n k : Nat) : Nat := ((recs.getD n []).filter (fun r => decide (r.kind = k))).length
  !now.isEmpty && now.all (fun g => labelValid g.2) &&
    (match (recs.flatten).find? (fun r => decide (r.kind = vkHead)) with
     | some h => (List.range 2).all (fun n => (List.range 4).all (fun i => decide (leField h.stored (32 * n + 8 * i) 8 = count n (5 + i))))
     | none => false)

/-- The directory entry and its index that a LOG_GRAIN or GEY_GRAIN carries. -/
def storedEntry (st : List Byte) : DirEntry × Nat := (dirOfWords ((List.range 10).map (fun i => leField st (4 * i) 4)), leField st 40 4)

/-- R521, R522: a grain is put back: an own grain into own pages, an adopted one into the mirror area; MIRRORED. The index and the pages are
those of its entry where they are free. -/
def Dev.restoreGrain (d : Dev) (st : List Byte) (vaulted : Bool) : Dev :=
  let (e0, idx0) := storedEntry st
  let s := grainSlice e0.vol (e0.off / 8)
  let n := 2 ^ e0.size
  if d.cal.dirs.any (fun x => decide (x.2.grid = e0.grid) && decide (x.2.state ≠ .free)) then d
  else
    let adopted := decide (e0.grid / 2 ^ 47 ≠ d.slotId)
    let idx := if (d.dir s idx0).state = .free then idx0 else ((d.freeIdx s 1).head?).getD 0
    let clash := d.cal.runs.any (fun r => decide (r.first < e0.page + n) && decide (e0.page < r.first + r.len))
    let use : PageUse := .grain s idx
    let (page, d1) := if adopted then (e0.page, d)
      else if clash then (d.allocRun n use).getD (e0.page, d)
      else (e0.page, { d with cal := { d.cal with runs := runIns ⟨e0.page, n, use⟩ d.cal.runs } })
    let bs := (st.drop 48).take e0.bytes
    let d2 := if adopted then { d1 with cal := { d1.cal with mirror := writeBytes d1.cal.mirror (page * pageBytes) bs } }
      else { d1 with cal := { d1.cal with own := writeBytes d1.cal.own (page * pageBytes) bs } }
    (d2.updDir s idx (fun _ => { e0 with state := .mirrored, vaulted := vaulted, adopted := adopted, page := page, order := d2.cal.order })).arm
      (tmMirrored s idx)

/-- R325, R522: a journal ring page's records return to the ring; the first record of a page is its RING_HEAD. -/
def Dev.restoreRecs (d : Dev) (bs : List Byte) : Dev :=
  let l := ((List.range (bs.length / 64)).map (fun i => (bs.drop (64 * i)).take 64)).filter (fun r => r.any (fun b => decide (b ≠ 0)))
  d.each (l.map decodeJRec) (fun r d => match r.body with
    | .ringHead _ seg off =>
      { d with mde := { d.mde with heads := tput 0 d.mde.heads (r.seq / recsPerPage) (seg * 2 ^ 16 + off) } }
    | _ => { d with mde := { d.mde with ring := recIns r d.mde.ring } })

/-- R522: counter values of the image become the vault values of R252. -/
def Dev.restoreNonces (d : Dev) (bs : List Byte) : Dev :=
  d.each (List.range (bs.length / 16)) (fun i d =>
    let f := leField (bs.drop (16 * i))
    let key := markKey (f 0 2 % 4096) (f 2 2 / 2 ^ 15)
    { d with mem := { d.mem with nonces := tupd {} d.mem.nonces key (fun m => m.take (f 2 2 % 2 ^ 15) (f 4 8)) } })

/-- R517: the live LOG_GRAINs of the vault logs: for each record ID the one with the highest VSEQ, unless a later LOG_RELEASE names it. -/
def liveGrains (recs : List (Nat × Nat × VaultRec)) : List (Nat × Nat × VaultRec) :=
  let grid (r : VaultRec) : Nat := (storedEntry r.stored).1.grid
  let frees := (recs.filter (fun r => decide (r.2.2.kind = vkRelease))).flatMap (fun r =>
    (List.range (r.2.2.stored.length / 8)).map (fun i => (leField r.2.2.stored (8 * i) 6, r.2.2.vseq)))
  let grains := recs.filter (fun r => decide (r.2.2.kind = vkGrain))
  grains.filter (fun r => !(grains.any (fun x => decide (grid x.2.2 = grid r.2.2) && decide (r.2.2.vseq < x.2.2.vseq))) &&
    !(frees.any (fun f => decide (f.1 = grid r.2.2) && decide (r.2.2.vseq < f.2))))

/-- R516: VSEQ goes on above everything found. -/
def Dev.restoreVseq (d : Dev) (good : List (Nat × List Byte)) (all : List VaultRec) : Dev :=
  let v := all.foldl (fun n r => max n r.vseq) (good.foldl (fun n g => max n (leField g.2 40 8)) 0)
  { d with mem := { d.mem with vseq := max d.mem.vseq v } }

/-- R517: a vault log goes on behind its newest record. -/
def Dev.restoreHead (d : Dev) (n : Nat) (recs : List (Nat × VaultRec)) : Dev :=
  match recs.foldl (fun (best : Option (Nat × VaultRec)) r => match best with
      | none => some r
      | some b => if b.2.vseq < r.2.vseq then some r else some b) none with
  | none => d
  | some r => { d with
      mem := { d.mem with heads := tput 0 d.mem.heads (d.vaultAtts.getD n 0) (r.1 + 512 * unitsOf r.2.stored.length) } }

/-- R517: a live grain of the log, by the SSDs that hold it. -/
def Dev.restoreLive (d : Dev) (r : Nat × Nat × VaultRec) : Dev :=
  let g := (storedEntry r.2.2.stored).1.grid
  let a := d.vaultAtts.getD r.1 0
  let live := d.mem.live
  { d with
    mem := { d.mem with
      live := if live.any (fun x => decide (x.grid = g)) then
          live.map (fun x => if x.grid = g then { x with at_ := x.at_ ++ [(a, r.2.1)] } else x)
        else live ++ [⟨g, r.2.2.stored, r.2.2.lsize, [(a, r.2.1)], 0⟩]
      next := max 1 d.mem.next } }

/-- GEYSER_RESTORE, R516, R522, R523, R619 step 9: the steward has read the labels, the Geyser areas and the vault logs. It does so once. -/
def Dev.geyserRestore (d : Dev) (labels : List (Option (List Byte))) (image logs : List (List (Nat × List Byte))) : Dev :=
  if d.fis.step ≠ 9 ∨ d.fis.restored then d
  else
    let good := d.goodLabels labels
    let recs := (List.range 2).map (d.imageRecs good image)
    let use := d.imageGood good recs
    let log := (List.range 2).map (fun n => d.areaRecs good n logs)
    let all := (log.flatten.map (·.2)) ++ (((List.range 2).flatMap (fun n => d.areaRecs good n image)).map (·.2))
    let d1 := { (d.restoreVseq good all).setFlag Reg.MEM_GEY_STS_RESTORED use with fis := { d.fis with restored := true } }
    let img := if use then recs.flatten else []
    let of_ (k : Nat) : List VaultRec := img.filter (fun r => decide (r.kind = k))
    let d2 := d1.each (of_ vkGeyNonce) (fun r d => d.restoreNonces r.stored)
    let d3 := d2.each (of_ vkGeyJournal) (fun r d => d.restoreRecs r.stored)
    let d4 := d3.each (of_ vkGeyGrain) (fun r d => d.restoreGrain r.stored false)
    -- R574: records of the recorder that the partition lacks
    let newest := (d4.norNewest.map (·.2)).getD 0
    let fums := (of_ vkGeyFum).take 1
    let d5 := d4.each (fums.flatMap (fun r => (List.range (r.stored.length / 32)).map (fun i => (r.stored.drop (32 * i)).take 32)))
      (fun b d => if d.norNewest.isNone || seqNewer (fumSeq b) newest then d.norPut (fumSeq b) b else d)
    let numbered := (log.zipIdx).flatMap (fun (x : List (Nat × VaultRec) × Nat) => x.1.map (fun r => (x.2, r.1, r.2)))
    let live := liveGrains numbered
    let d6 := d5.each live (fun r d => (d.restoreGrain r.2.2.stored true).restoreLive r)
    let d7 := d6.each (numbered.filter (fun r => decide (r.2.2.kind = vkJournal))) (fun r d => d.restoreRecs r.2.2.stored)
    let d8 := (d7.each log.zipIdx (fun (x : List (Nat × VaultRec) × Nat) d => d.restoreHead x.2 x.1)).ringMark
    let claimed := good.any (fun g => labelValid g.2)
    if use then
      { d8 with mem := { d8.mem with image := true } }.raise 1737 (of_ vkGeyGrain).length (of_ vkGeyJournal).length 0
    else d8.cond claimed (fun d =>
      let flag (n : Nat) : Nat := ((good.find? (fun g => decide (g.1 = n))).map (fun g => leField g.2 7 1)).getD 0
      d.raise 1738 (flag 0) (flag 1) 0)

def execGeyserRestore (labels : List (Option (List Byte))) (image logs : List (List (Nat × List Byte))) (s : State) : Ans :=
  lift (fun d => d.geyserRestore labels image logs) s

/-- R523: when the catch-up pass has written every restored grain, the labels are rewritten with GEYSER_VALID clear. -/
def Dev.imageStep (d : Dev) : Dev :=
  if d.mem.image ∧ d.mem.stage = 0 ∧ d.geyBusy = false ∧ d.vaultsOn ≠ [] ∧ d.cal.dirs.all (fun e => !e.2.unvaulted) then d.putLabels false else d

end Sys2Proof.Machine
end

