-- ==== Sys2Proof/Machine/Failover.lean ====
section
/-! DEFINITION. Ownership, failover and failback: liveness, the witness record, arbitration, takeover, rejoin and resync, hand-over and
failback (R466 to R499). -/
namespace Sys2Proof.Machine

/-! ### The witness record (R473, R474) -/

def WitRec.bytes (w : WitRec) : List Byte :=
  withCrc (padTo 4092 (leBytes 4 0x5E7A_11D0 ++ leBytes 1 1 ++ leBytes 1 w.mode ++ leBytes 1 w.dom ++ leBytes 1 w.vaultOnly ++ leBytes 4 w.tag ++
    leBytes 4 0 ++ leBytes 8 w.gen ++ leBytes 8 w.owner ++ leBytes 8 w.home ++ leBytes 8 w.refresh0 ++ leBytes 8 w.refresh1 ++
    leBytes 8 w.stamp0 ++ leBytes 8 w.stamp1 ++ leBytes 4 w.resv0 ++ leBytes 4 w.resv1))

/-- R474: a copy with valid MAGIC, VERSION, ARRAY_TAG and CRC. -/
def witOf (tag : Nat) (b : List Byte) : Option WitRec :=
  let f := leField b
  if b.length = 4096 ∧ crcGood b = true ∧ f 0 4 = 0x5E7A_11D0 ∧ f 4 1 = 1 ∧ f 8 4 = tag then
    some ⟨f 5 1, f 6 1, f 7 1, f 8 4, f 16 8, f 24 8, f 32 8, f 40 8, f 48 8, f 56 8, f 64 8, f 72 4 % 2 ^ 24, f 76 4 % 2 ^ 24⟩
  else none

/-- R474: the copy that at least two drives hold byte for byte. -/
def majority (tag : Nat) (copies : List (Option (List Byte))) : Option (List Byte × WitRec) :=
  let l := copies.filterMap id
  (l.find? (fun b => decide (2 ≤ (l.filter (fun x => decide (x = b))).length) && (witOf tag b).isSome)).bind
    (fun b => (witOf tag b).map (fun w => (b, w)))

/-- Bit `n` of a mask. -/
def bitOf (m n : Nat) : Bool := decide (m / 2 ^ n % 2 = 1)

/-- A mask with bit `n` set or cleared. -/
def bitPut (m n : Nat) (b : Bool) : Nat := m - (if bitOf m n then 2 ^ n else 0) + (if b then 2 ^ n else 0)

/-- R473: the record assigns group g (ID − 1), or domain g, to a slot. -/
def WitRec.owns (w : WitRec) (slot g : Nat) : Bool := bitOf w.owner g == decide (slot = 1)
def WitRec.holdsDom (w : WitRec) (slot dm : Nat) : Bool := bitOf w.dom dm == decide (slot = 1)

/-- The record names a slot as holder of both domains. -/
def WitRec.holder (w : WitRec) (slot : Nat) : Bool := w.holdsDom slot 0 && w.holdsDom slot 1

def WitRec.resv (w : WitRec) (slot : Nat) : Nat := if slot = 0 then w.resv0 else w.resv1
def WitRec.refresh (w : WitRec) (slot : Nat) : Nat := if slot = 0 then w.refresh0 else w.refresh1

/-- All groups, or both domains, of a slot. -/
def allGroups (slot : Nat) : Nat := if slot = 1 then 2 ^ 64 - 1 else 0
def bothDoms (slot : Nat) : Nat := if slot = 1 then 3 else 0

def Dev.peerSlot (d : Dev) : Nat := 1 - d.slotId
def Dev.fovState (d : Dev) : Nat := d.fld Reg.FOV_STS_STATE
def Dev.setFov (d : Dev) (f : FovSt → FovSt) : Dev := { d with fov := f d.fov }

/-- The states of R486. -/
def fsStart : Nat := 0
def fsJoining : Nat := 1
def fsPaired : Nat := 2
def fsSuspect : Nat := 3
def fsTakeover : Nat := 4
def fsSole : Nat := 5
def fsHandover : Nat := 6
def fsFenced : Nat := 7

/-- R141, R498: what the last majority record shows, the groups that it assigns to this head among it. -/
def Dev.knowRecord (d : Dev) (b : List Byte) (w : WitRec) : Dev :=
  let d1 := d.setFov (fun f => { f with witness := some w, raw := b })
  let d2 := ((((((d1.setFld Reg.FOV_WIT_STS_MODE w.mode).setFld Reg.FOV_WIT_STS_DOM_HOLDER w.dom).setFld Reg.FOV_WIT_STS_VAULT_ONLY w.vaultOnly).setFld
    Reg.FOV_WIT_GEN_OWN_GEN w.gen).setFld Reg.FOV_HOME_MASK w.home).setFld Reg.FOV_PEER_REFRESH_COUNT (w.refresh (1 - d.slotId)))
  d2.each (List.range 64) (fun g d => d.setFlag (Reg.NVT_ANA_OWN g) (w.owns d.slotId g))

/-- The groups and domains that a mask or this head's registers give to this head. -/
def Dev.givesAway (d : Dev) (w : WitRec) : Bool :=
  (List.range 64).any (fun g => d.flag (Reg.NVT_ANA_OWN g) && !w.owns d.slotId g) ||
    (!d.mde.ownGone && !w.holdsDom d.slotId d.slotId) || (d.mde.peerHeld && !w.holdsDom d.slotId d.peerSlot)

/-- R477: this head takes the record's assignment. -/
def Dev.assign (d : Dev) : Dev :=
  match d.fov.witness with
  | none => d
  | some w =>
    let d1 := d.each (List.range 64) (fun g d =>
      d.setAna g
        (if w.owns d.slotId g then anaOptimized else if d.linkSends then anaNonOptimized else anaInaccessible))
    { d1 with mde := { d1.mde with ownGone := !w.holdsDom d.slotId d.slotId, peerHeld := w.holdsDom d.slotId d.peerSlot } }

/-- R474, R476, R477: the three copies have been read. `fences` is false where R478's own test comes first. -/
def Dev.readRecord (d : Dev) (copies : List (Option (List Byte))) (fences : Bool) : Dev :=
  let d0 := d.setFov (fun f => { f with copies := copies, stale := false, givesUp := match majority (d.fld Reg.DRV_ARRAY_TAG_TAG) copies with
    | some (_, w) => d.givesAway w
    | none => false })
  let tag := d0.fld Reg.DRV_ARRAY_TAG_TAG
  match majority tag copies with
  | none =>
    let mask := (List.range 3).foldl (fun n i => n + (match copies.getD i none with
      | some b => if (witOf tag b).isSome then 0 else 2 ^ i
      | none => 2 ^ i)) 0
    (d0.setFld Reg.FOV_WIT_STS_MAJORITY 0).raise 1647 1 mask 0
  | some (b, w) =>
    let known := (d0.fov.witness.map (·.gen)).getD 0
    let rose := d0.flag Reg.FOV_STS_FENCE_OUT && decide (d0.fld Reg.FOV_PEER_REFRESH_COUNT < w.refresh d0.peerSlot)
    let d1 := ((d0.knowRecord b w).setFld Reg.FOV_WIT_STS_MAJORITY 1).cond rose (fun d => d.raise 1645 (w.refresh d.peerSlot) 0 0)
    if w.gen ≤ known ∨ d.fovState = fsStart ∨ fences = false then d1
    else if d0.fov.givesUp then d1.fence 3
    else { d1 with edge := d1.edge ++ [EdgeAct.assign] }

/-! ### Changes of the record (R475, R476, R478, R486) -/

/-- The new record of a change. -/
def Dev.recordFor (d : Dev) (w : WitRec) (why : WitWhy) : WitRec :=
  let s := d.slotId
  match why with
  | .refresh =>
    if s = 0 then { w with refresh0 := w.refresh0 + 1, stamp0 := d.beat } else { w with refresh1 := w.refresh1 + 1, stamp1 := d.beat }
  | .claim | .sole => { w with
      mode := 2, owner := allGroups s, dom := bothDoms s, vaultOnly := bitPut w.vaultOnly s true, gen := w.gen + 1 }
  | .vaultOnly b => { w with vaultOnly := bitPut w.vaultOnly s b }
  | .shared => { w with mode := 1, vaultOnly := bitPut w.vaultOnly s false, gen := w.gen + 1 }
  | .join g => if s = 0 then { w with resv1 := g } else { w with resv0 := g }
  | .handover =>
    let f := d.fov
    let to_ := d.peerSlot
    { w with
      owner := ((List.range 64).filter (bitOf f.handMask)).foldl (fun m g => bitPut m g (decide (to_ = 1))) w.owner
      dom := if f.handDomain then bitPut w.dom (if f.handBack then to_ else s) (decide (to_ = 1)) else w.dom
      gen := w.gen + 1 }
  | .home m => { w with home := m, gen := w.gen + 1 }

/-- R475: a change's compare-and-write is sent to the three drives. -/
def Dev.attempt (d : Dev) (why : WitWhy) : Dev :=
  match d.fov.witness with
  | none => d
  | some w =>
    let n := d.recordFor w why
    (d.setFov (fun f => { f with why := some why, newRec := n })).witnessCas d.fov.raw n.bytes

/-- A change waits for the record to be read. -/
def Dev.want (d : Dev) (why : WitWhy) : Dev :=
  if d.fov.todo.contains why then d else d.setFov (fun f => { f with todo := f.todo ++ [why] })

/-- The first change that waits is attempted, on a record read since the last change that did not stand (R475). A join waits for its preempt (R488). -/
def Dev.attemptNext (d : Dev) : Dev :=
  if d.fov.why.isSome ∨ d.flag Reg.FOV_WIT_STS_MAJORITY = false ∨ d.fov.stale ∨ d.fencing then d
  else match d.fov.todo.find? (fun w => match w with
      | .join _ => !d.flag Reg.DRV_STS_PREEMPT_BUSY
      | _ => true) with
    | none => d
    | some w => d.attempt w

/-- R472: a mirror context that is not ON makes the head set its own VAULT_ONLY bit, with the link UP too. -/
def Dev.brokenMark (d : Dev) : Dev :=
  if d.flag Reg.GLB_CAL_STS_MIRROR_BROKEN ∧ (d.fovState = fsPaired ∨ d.fovState = fsHandover) ∧ bitOf (d.fld Reg.FOV_WIT_STS_VAULT_ONLY) d.slotId = false then
    d.want (.vaultOnly true)
  else d

/-! ### Write hold (R472) -/

def Dev.holdWrites (d : Dev) : Dev :=
  if d.flag Reg.FOV_STS_WRITE_HOLD then d else (d.setFld Reg.FOV_STS_WRITE_HOLD 1).setFov (fun f => { f with holdBeat := d.beat })

/-- R472: the peer has been heard again since the hold began; with the link down the own VAULT_ONLY bit is set too. -/
def Dev.holdEnd (d : Dev) : Dev :=
  let heard := decide (d.fov.holdBeat ≤ d.fld Reg.FOV_LAST_HB_BEAT) || decide (d.fov.holdBeat ≤ d.fld Reg.FOV_LAST_PULSE_BEAT)
  let own := bitOf (d.fld Reg.FOV_WIT_STS_VAULT_ONLY) d.slotId
  if d.flag Reg.FOV_STS_WRITE_HOLD ∧ d.fovState ≠ fsSuspect ∧ heard = true ∧ (d.linkUp = true ∨ own = true) then
    d.setFld Reg.FOV_STS_WRITE_HOLD 0
  else d

/-! ### Liveness and suspicion (R470, R471, R479) -/

def tmClaim : Nat := tm 17 0
def tmRepeat : Nat := tm 17 1
def tmHandover : Nat := tm 17 2

/-- R125, R472: without the peer, groups that it serves are Inaccessible here. -/
def Dev.peerGone (d : Dev) : Dev :=
  d.anaAll (fun g => decide (d.fld (Reg.NVT_ANA g) = anaNonOptimized) || (decide (d.fld (Reg.NVT_ANA g) = anaChange) && !d.flag (Reg.NVT_ANA_OWN g) &&
    decide (d.fov.handRole = 2))) anaInaccessible
def Dev.peerBack (d : Dev) : Dev :=
  d.anaAll (fun g => d.linkSends && decide (d.fld (Reg.NVT_ANA g) = anaInaccessible) && !d.flag (Reg.NVT_ANA_OWN g)) anaNonOptimized

/-- R471, R472, R478: suspicion. Slot 1 waits before it reads the record. -/
def Dev.suspect (d : Dev) : Dev :=
  let d1 := ((((d.holdWrites.setFld Reg.FOV_STS_STATE fsSuspect).setFld Reg.FOV_STS_CLAIM_OUT 1).setFld Reg.GLB_CAL_STS_PEER_ABSENT 1).setFld
    Reg.FOV_WIT_STS_ATTEMPTS 0).setFld Reg.FOV_STS_HEALTHY 0
  let d2 := d1.setFov (fun f => { f with
    before := d.fovState, claimIn := false, unchanged := (f.witness.map (·.gen)).getD 0, alive := false, epochOk := false })
  ((d2.raise 1632 (d.fld Reg.FOV_LAST_HB_BEAT) (d.fld Reg.FOV_LAST_PULSE_BEAT) 0).peerGone).cond (decide (d.slotId = 1)) (fun d => d.arm tmClaim)

/-- R471: the window of 2^13 beats before this edge holds no stamp of a path. -/
def Dev.silent (d : Dev) (last : Fld) : Bool := decide (2 ^ 13 < d.since (d.fld last))

/-- PEER_SUSPECT, R471: a peer that has been heard in this service is silent on both fast paths. -/
def Dev.peerSuspect (d : Dev) : Dev :=
  if d.fov.alive ∧ d.silent Reg.FOV_LAST_HB_BEAT ∧ d.silent Reg.FOV_LAST_PULSE_BEAT ∧ d.fovState ∈ [fsJoining, fsPaired, fsSole, fsHandover] then
    d.suspect
  else d

def execPeerSuspect (s : State) : Ans := lift Dev.peerSuspect s

/-- SINGLE_PATH_LOST, R471: only one fast path is silent; once until it is heard again. -/
def Dev.singlePathLost (d : Dev) (path : Nat) : Dev :=
  let hb := d.silent Reg.FOV_LAST_HB_BEAT
  let pu := d.silent Reg.FOV_LAST_PULSE_BEAT
  if d.fov.alive ∧ path < 2 ∧ (if path = 0 then hb && !pu else pu && !hb) = true ∧ bitOf d.fov.single path = false then
    (d.setFov (fun f => { f with single := bitPut f.single path true })).raise 1646 path 0 0
  else d

def execSinglePathLost (path : Nat) (s : State) : Ans := lift (fun d => d.singlePathLost path) s

/-- R479: the peer is heard again before the first attempt, or after INCONCLUSIVE attempts on an unchanged record: arbitration ends. The
mirror is whole unless the link left UP meanwhile. -/
def Dev.endSuspicion (d : Dev) : Dev :=
  let same := decide ((d.fov.witness.map (·.gen)).getD 0 = d.fov.unchanged)
  if d.fovState = fsSuspect ∧ d.fov.why ≠ some .claim ∧ same = true then
    let d1 := ((d.setFld Reg.FOV_STS_STATE d.fov.before).setFld Reg.FOV_STS_CLAIM_OUT 0).disarm tmClaim
    (d1.disarm tmRepeat).peerBack.cond (d1.linkUp && !d1.flag Reg.GLB_CAL_STS_MIRROR_BROKEN && decide (d.fov.before ∈ [fsPaired, fsHandover]) &&
      !d1.flag Reg.FOV_STS_RESYNC_SRC) (fun d => d.setFld Reg.GLB_CAL_STS_PEER_ABSENT 0)
  else d

def Dev.heard (d : Dev) : Dev := ((d.setFov (fun f => { f with alive := true })).endSuspicion).holdEnd

/-- R486: a hand-over that the peer runs ends on the arriving head; a group that has not come to it is the peer's still. -/
def Dev.arriveEnd (d : Dev) : Dev :=
  if d.fovState = fsHandover ∧ d.fov.handRole = 2 then
    (((d.setFld Reg.FOV_STS_STATE fsPaired).setFov (fun f => { f with handRole := 0, asked := 0 })).anaAll (fun g =>
      decide (d.fld (Reg.NVT_ANA g) = anaChange) && !d.flag (Reg.NVT_ANA_OWN g)) anaNonOptimized)
  else d

/-- R125, R486, R487: a hand-over begins on either side. The arriving head follows the state that the peer's heartbeats carry: the groups that it asked
for, or where it asked for none all that the peer owns, enter Change. DEDUCED (log 196). -/
def Dev.arriveSeen (d : Dev) (st own : Nat) : Dev :=
  if st % 8 ≠ fsHandover then d.arriveEnd
  else if d.fovState = fsPaired then
    let mask := if d.fov.asked = 0 then own else Nat.land d.fov.asked own
    ((d.setFld Reg.FOV_STS_STATE fsHandover).setFov (fun f => { f with handRole := 2, handStep := 0 })).anaAll (fun g =>
      bitOf mask g && decide (d.fld (Reg.NVT_ANA g) = anaNonOptimized)) anaChange
  else d

/-- HEARTBEAT, R460, R470. -/
def Dev.heartbeat (d : Dev) (seq : Word) (st own : Nat) : Dev :=
  (((d.setFld Reg.FOV_LAST_HB_BEAT d.beat).setFld Reg.CDX_HB_SEQ_SEQ seq.toNat).setFov (fun f => { f with
    peerState := st, peerOwn := own, single := bitPut f.single 0 false })).heard.arriveSeen st own

def execHeartbeat (seq : Word) (_beat st own : Nat) (s : State) : Ans := lift (fun d => d.heartbeat seq st own) s

/-- PULSE_IN_EDGE, R470, R479, R486: the edge is stamped, and at the next beat edge the peer has been heard. -/
def Dev.pulseIn (d : Dev) (level : Bool) : Dev :=
  if d.pinsOn = false then d
  else ((d.setFlag Reg.FOV_STS_PULSE_IN level).setFld Reg.FOV_LAST_PULSE_BEAT d.beat).setFov (fun f => { f with single := bitPut f.single 1 false })
    |> fun d => { d with edge := d.edge ++ [.heard] }

def execPulseInEdge (level : Bool) (s : State) : Ans := lift (fun d => d.pulseIn level) s

/-- PULSE_OUT_TOGGLE, R470, R611: at beat edges whose number is a multiple of 2^12, not in START or FENCED, nor after a flush (R518). During a
hand-off restart it goes on in START (R638). -/
def Dev.pulseOut (d : Dev) : Dev :=
  if d.beat % 2 ^ 12 = 0 ∧ d.fov.pulseSent ≠ d.beat + 1 ∧ (d.fovState ≠ fsStart ∨ d.upd.hand = 2 ∨ d.upd.hand = 3) ∧ d.fovState ≠ fsFenced ∧
      d.geyOver = false ∧ d.pinsOn then
    d.setFov (fun f => { f with pulseLevel := !f.pulseLevel, pulseSent := d.beat + 1 })
  else d

def execPulseOutToggle (s : State) : Ans := lift Dev.pulseOut s

/-- CLAIM_IN_EDGE, R478: noted for slot 1's wait. -/
def Dev.claimInEdge (d : Dev) (level : Bool) : Dev :=
  if d.pinsOn = false then d
  else (d.setFlag Reg.FOV_STS_CLAIM_IN level).setFov (fun f => { f with claimIn := f.claimIn || (level && decide (d.fovState = fsSuspect)) })

def execClaimInEdge (level : Bool) (s : State) : Ans := lift (fun d => d.claimInEdge level) s

/-- FENCE_IN_ASSERT, R480. -/
def Dev.fenceIn (d : Dev) : Dev := if d.pinsOn = false then d else (d.setFld Reg.FOV_STS_FENCE_IN 1).fence 4

def execFenceInAssert (s : State) : Ans := lift Dev.fenceIn s

/-! ### Claim and arbitration (R478) -/

/-- R478: an attempt ended INCONCLUSIVE. -/
def Dev.inconclusive (d : Dev) : Dev :=
  if d.fld Reg.FOV_CFG_WIT_TRIES ≤ d.fld Reg.FOV_WIT_STS_ATTEMPTS then d.fence 2 else d.arm tmRepeat

/-- R478: the record names the peer as owner of every group at a higher OWN_GEN. -/
def Dev.taken (d : Dev) : Bool := match d.fov.witness with
  | some w => decide (w.owner = allGroups d.peerSlot) && decide (d.fov.unchanged < w.gen)
  | none => false

/-- R478: a claim on a record just read. A read without majority counts as an INCONCLUSIVE attempt. -/
def Dev.claim (d : Dev) : Dev :=
  if d.taken then d.fence 1
  else if d.dbgActive then d
  else
    let d1 := (d.bump Reg.FOV_WIT_STS_ATTEMPTS 1)
    match d1.fov.witness with
    | some w =>
      if d1.flag Reg.FOV_WIT_STS_MAJORITY = false then d1.inconclusive
      else if d1.fov.unchanged < w.gen ∧ d1.fov.givesUp then d1.fence 3
      else d1.attempt .claim
    | none => d1.inconclusive

/-- CLAIM_WAIT_EXPIRE, R478: slot 1's wait ends; it reads the record. -/
def Dev.claimWait (d : Dev) (copies : List (Option (List Byte))) : Dev :=
  if d.fovState = fsSuspect ∧ d.expired tmClaim (2 ^ 14) ∧ d.fov.why = none then
    let d1 := (d.disarm tmClaim).readRecord copies false
    if d1.taken then d1.fence 1
    else if d1.fov.claimIn then (d1.setFov (fun f => { f with claimIn := d1.flag Reg.FOV_STS_CLAIM_IN })).arm tmClaim
    else d1.claim
  else d

def execClaimWaitExpire (copies : List (Option (List Byte))) (s : State) : Ans := lift (fun d => d.claimWait copies) s

/-- INCONCLUSIVE_REPEAT, R478. -/
def Dev.claimRepeat (d : Dev) (copies : List (Option (List Byte))) : Dev :=
  if d.fovState = fsSuspect ∧ d.expired tmRepeat (2 ^ 14) ∧ d.fov.why = none then ((d.disarm tmRepeat).readRecord copies false).claim else d

def execInconclusiveRepeat (copies : List (Option (List Byte))) (s : State) : Ans := lift (fun d => d.claimRepeat copies) s

/-! ### Resync out of this head (R489, R490) -/

/-- The ring pages not released. -/
def Dev.ringPageNos (d : Dev) : List Nat := (d.mde.ring.map (fun (r : JRec) => r.seq / recsPerPage)).eraseDups

def Dev.refreshLeft (d : Dev) : Dev := d.setFld Reg.FOV_RESYNC_LEFT_ENTRIES (d.fov.srcKeys.length + d.fov.srcRing.length)

/-- R489: this head becomes a source: every entry not FREE and every ring page is to be copied; after an interruption (R490) what no
committed batch holds. -/
def Dev.resyncSource (d : Dev) : Dev :=
  let kept := if d.flag Reg.FOV_STS_RESYNC_SRC then d.fov.kept else []
  let batch := if d.flag Reg.FOV_STS_RESYNC_SRC then d.fov.batch else 1
  let keys := (d.cal.dirs.filter (fun e => decide (e.2.state ≠ .free) && !(kept.contains e.2.grid))).map (·.1)
  let d1 := d.setFov (fun f => { f with
    srcKeys := keys, srcRing := d.ringPageNos, batch := batch, batchPuts := [], batchIds := [], sent := false, closing := false, kept := kept })
  ((d1.setFld Reg.FOV_STS_RESYNC_SRC 1).raise 1639 0 (keys.length + d1.fov.srcRing.length) 0).refreshLeft

/-- R489: the put that copies one entry. -/
def Dev.resyncPut (d : Dev) (key : Nat) : Dev :=
  let e := d.dirKeyed key
  if e.state = .free then d
  else
    let s := key / Config.dirEntries
    let d1 := d.post e.mirrorQp (putItem d.cal.winKey ptMirror (2 ^ e.size)
      (putBytes ptMirror s [(key % Config.dirEntries, e)] [] (d.entryBytes e)) (.linkMsg 0))
    d1.setFov (fun f => { f with batchPuts := f.batchPuts ++ [(e.mirrorQp, d1.putCount e.mirrorQp)], batchIds := f.batchIds ++ [e.grid] })

/-- R489: the put that copies a ring page, on mirror context 0. -/
def Dev.resyncRing (d : Dev) (p : Nat) : Dev :=
  let recs := d.mde.ring.filter (fun r => decide (r.seq / recsPerPage = p))
  let d1 := d.post 0 (putItem d.cal.winKey ptJournal 0 (putBytes ptJournal 0 [] recs []) (.linkMsg 0))
  d1.setFov (fun f => { f with batchPuts := f.batchPuts ++ [(0, d1.putCount 0)] })

/-- R497: send an OWNERSHIP message with the OWN_GEN known. -/
def Dev.ownMsg (d : Dev) (op mask arg : Nat) : Dev :=
  d.emit (.link (.ownership op ((d.fov.witness.map (·.gen)).getD 0) mask arg))

/-- The source's work at a beat edge: a batch of puts, its marker once every put is acknowledged. -/
def Dev.resyncStep (d : Dev) : Dev :=
  if d.flag Reg.FOV_STS_RESYNC_SRC = false ∨ d.linkUp = false ∨ d.fov.closing then d
  else if d.fov.batchPuts.isEmpty then
    if (List.range 64).all (fun q => d.isOn (.qp q)) then
      let n := max 1 (d.fld Reg.FOV_CFG2_RESYNC_BATCH)
      let ks := d.fov.srcKeys.take n
      let rs := d.fov.srcRing.take (n - ks.length)
      let d1 := (d.each rs (fun p d => d.resyncRing p)).each ks (fun k d => d.resyncPut k)
      let d2 := (d1.setFov (fun f => { f with srcKeys := f.srcKeys.drop n, srcRing := f.srcRing.drop (n - ks.length) })).refreshLeft
      if d2.fov.batchPuts.isEmpty ∧ d2.fov.srcKeys.isEmpty ∧ d2.fov.srcRing.isEmpty then
        (d2.setFov (fun f => { f with closing := true })).ownMsg 5 0 (d2.fov.batch - 1)
      else d2
    else d
  else if d.fov.sent = false ∧ d.fov.batchPuts.all (fun p => waitHolds (d.ctx p.1).cc p.2) then
    (d.setFov (fun f => { f with sent := true })).ownMsg 3 0 d.fov.batch
  else d

/-- All 64 mirror queue pairs are ON. -/
def Dev.mirrorsOn (d : Dev) : Bool := (List.range 64).all (fun q => d.isOn (.qp q))

/-- R171: MIRROR_BROKEN ends when resync is complete and all 64 mirror queue pairs are ON. -/
def Dev.mirrorWhole (d : Dev) : Dev := d.cond d.mirrorsOn (fun d => d.setFld Reg.GLB_CAL_STS_MIRROR_BROKEN 0)

/-- R489: the target has acknowledged RESYNC_DONE. -/
def Dev.resyncEnd (d : Dev) : Dev :=
  let d1 := ((d.setFld Reg.FOV_STS_RESYNC_SRC 0).setFov (fun f => { f with closing := false, kept := [] })).raise 1640 0 (d.fov.batch - 1) 0
  let d2 := (d1.setFld Reg.GLB_CAL_STS_PEER_ABSENT 0).mirrorWhole
  if d2.fovState = fsSole then (d2.setFld Reg.FOV_STS_STATE fsPaired).want .shared else d2.cond (!d2.flag Reg.GLB_CAL_STS_MIRROR_BROKEN) (fun d => d.want (.vaultOnly false))

/-- RESYNC_ACK, R489. -/
def Dev.resyncAck (d : Dev) (gen batch : Nat) : Dev :=
  let known := (d.fov.witness.map (·.gen)).getD 0
  if gen < known ∨ d.flag Reg.FOV_STS_RESYNC_SRC = false then d
  else if d.fov.closing then (if batch = d.fov.batch - 1 then d.resyncEnd else d)
  else if d.fov.sent ∧ batch = d.fov.batch then
    (d.setFld Reg.FOV_RESYNC_BATCH_BATCH batch).setFov (fun f => { f with
      kept := f.kept ++ f.batchIds, batchPuts := [], batchIds := [], sent := false, batch := f.batch + 1 })
  else d

def execResyncAck (gen batch : Nat) (s : State) : Ans := lift (fun d => d.resyncAck gen batch) s

/-! ### Resync into this head (R489, R490) -/

def Dev.resyncTarget (d : Dev) : Dev :=
  ((d.setFld Reg.FOV_STS_RESYNC_TGT 1).setFov (fun f => { f with tgtPend := [] })).raise 1639 1 0 0

/-- R171: a mirror queue pair left ON while the link stayed UP: once all are ON again both heads resync, which ends MIRROR_BROKEN. DEDUCED (log 192). -/
def Dev.resyncAgain (d : Dev) : Dev :=
  if d.flag Reg.GLB_CAL_STS_MIRROR_BROKEN ∧ d.linkUp ∧ (d.fovState = fsPaired ∨ d.fovState = fsHandover) ∧ d.flag Reg.FOV_STS_RESYNC_SRC = false ∧ d.mirrorsOn then
    d.resyncSource.cond (!d.flag Reg.FOV_STS_RESYNC_TGT) Dev.resyncTarget
  else d

/-- RESYNC_COMMIT, R489: the batch's entries and pages become valid. -/
def Dev.resyncCommit (d : Dev) (gen batch : Nat) : Dev :=
  if gen < (d.fov.witness.map (·.gen)).getD 0 ∨ d.flag Reg.FOV_STS_RESYNC_TGT = false then d
  else
    let d1 := d.each d.fov.tgtPend (fun b d => d.putWhole b)
    ((d1.setFov (fun f => { f with tgtPend := [] })).setFld Reg.FOV_RESYNC_BATCH_BATCH batch).ownMsg 4 0 batch

def execResyncCommit (gen batch : Nat) (s : State) : Ans := lift (fun d => d.resyncCommit gen batch) s

/-- RESYNC_DONE, R486, R489: the resync into this head is done. -/
def Dev.resyncDone (d : Dev) (gen batch : Nat) : Dev :=
  if gen < (d.fov.witness.map (·.gen)).getD 0 ∨ d.flag Reg.FOV_STS_RESYNC_TGT = false then d
  else
    let d1 := (((d.setFld Reg.FOV_STS_RESYNC_TGT 0).setFov (fun f => { f with tgtPend := [] })).raise 1640 1 batch 0).ownMsg 4 0 batch
    if d1.fovState = fsJoining then
      ((((d1.setFld Reg.FOV_STS_STATE fsPaired).setFld Reg.FOV_STS_HEALTHY 0).setFld Reg.FOV_HOLDOFF_LEFT_EPOCHS
        (d1.fld Reg.FOV_CFG_HOLDOFF)).setFld Reg.GLB_CAL_STS_PEER_ABSENT 0).mirrorWhole.anaAll (fun g => decide (d1.fld (Reg.NVT_ANA g) = anaLoss)) anaNonOptimized
    else d1

def execResyncDone (gen batch : Nat) (s : State) : Ans := lift (fun d => d.resyncDone gen batch) s

/-! ### START (R486) -/

/-- R486: what a head in START does with the record and the link; while debug is open, nothing (R656). With PEER_EXPECT low (strap 5) it goes on alone. -/
def Dev.startStep (d : Dev) : Dev :=
  if d.fovState ≠ fsStart ∨ d.dbgActive ∨ d.upd.hand = 2 ∨ d.upd.hand = 5 then d
  else
    let done := d.fov.replayDone
    let go (d : Dev) (st : Nat) : Dev := d.setFld Reg.FOV_STS_STATE st
    if done ∧ d.strap 5 = false then (go d fsSole).want .sole
    else match d.fov.witness with
      | none => d
      | some w =>
        if w.mode = 2 ∧ w.holder d.slotId then (if done then { go d fsSole with edge := d.edge ++ [EdgeAct.assign] } else d)
        else if w.mode = 2 ∧ w.holder d.peerSlot ∧ d.linkUp then
          ((go d fsJoining).setFov (fun f => { f with joinEpoch := d.epoch + 1 })).ownMsg 1 0 (w.resv d.slotId + 1)
        else if w.mode = 1 ∧ d.linkUp ∧ done then
          ({ go d fsPaired with edge := d.edge ++ [EdgeAct.assign] }.resyncSource).resyncTarget
        else d

/-- PEER_WAIT_EXPIRE, R486. -/
def Dev.peerWait (d : Dev) : Dev :=
  if d.fovState = fsStart ∧ d.dbgActive = false ∧ d.fov.replayDone ∧ d.linkUp = false ∧ d.fov.replayEpoch + d.fld Reg.FOV_CFG_PEER_WAIT ≤ d.epoch then d.suspect
  else d

def execPeerWaitExpire (s : State) : Ans := lift Dev.peerWait s

/-- WITNESS_READ_RESULT, R474, R477, R478, R486: in arbitration slot 0's first attempt, else what waits for the record. -/
def Dev.witnessRead (d : Dev) (copies : List (Option (List Byte))) : Dev :=
  let arb := decide (d.fovState = fsSuspect)
  let d1 := d.readRecord copies (!arb)
  if arb then
    if d.slotId = 0 ∧ d.fld Reg.FOV_WIT_STS_ATTEMPTS = 0 ∧ d.fov.why = none then d1.claim else d1
  else (d1.startStep).attemptNext

def execWitnessReadResult (copies : List (Option (List Byte))) (s : State) : Ans := lift (fun d => d.witnessRead copies) s

/-- WITNESS_REFRESH, R476: once in an epoch, from offset 3 × 2^21 + slot × 2^20. -/
def Dev.witnessRefresh (d : Dev) (copies : List (Option (List Byte))) : Dev :=
  if d.fovState = fsFenced ∨ d.beat % Config.epochBeats < 3 * 2 ^ 21 + d.slotId * 2 ^ 20 ∨ tget 0 d.seen 0x40002 = d.epoch + 1 then d
  else
    let d1 := { d with seen := tput 0 d.seen 0x40002 (d.epoch + 1) }.readRecord copies (decide (d.fovState ≠ fsSuspect))
    if d1.fencing then d1 else (d1.want .refresh).attemptNext

def execWitnessRefresh (copies : List (Option (List Byte))) (s : State) : Ans := lift (fun d => d.witnessRefresh copies) s

/-! ### Takeover (R482 to R485) -/

/-- R482: a takeover starts: the peer's reservations are preempted. -/
def Dev.takeover (d : Dev) (old : WitRec) : Dev :=
  let p := d.peerSlot
  let moved := (List.range 64).foldl (fun m g => bitPut m g (old.owns p g)) 0
  let need := bitOf old.vaultOnly p
  let d1 := ((d.setFld Reg.FOV_STS_STATE fsTakeover).setFld Reg.FOV_STS_WRITE_HOLD 0).setFlag Reg.FOV_STS_VAULT_NEEDED need
  let d2 := d1.setFov (fun f => { f with step := 1, moved := moved, handStep := 0, replayed := 0, adopted := 0, tgtPend := [] })
  let d3 := d2.setFld Reg.FOV_CTL_HANDOVER 0
  ((d3.setFld Reg.FOV_STS_RESYNC_SRC 0).setFld Reg.FOV_STS_RESYNC_TGT 0).preempt (resvKey (d.fld Reg.DRV_ARRAY_TAG_TAG) (old.resv p) p)

/-- R482: the peer's mirror entries are adopted: they keep their pages and are destaged like own grains. -/
def Dev.adopt (d : Dev) : Dev :=
  let l := d.cal.mirDirs.filter (fun e => decide (e.2.state ≠ .free))
  { d with cal := { d.cal with mirDirs := [] } }.each l (fun (x : Nat × DirEntry) d =>
    let s := x.1 / Config.dirEntries
    let e : DirEntry := x.2
    match (d.freeIdx s 1).head? with
    | none => { d with cal := { d.cal with mirDirs := d.cal.mirDirs ++ [x] } }
    | some i =>
      let st : GState := if e.state = GState.placed ∨ e.state = GState.verified then e.state else GState.mirrored
      ((d.updDir s i (fun _ => { e with state := st, vaulted := false, adopted := true, order := d.cal.order })).arm (tmMirrored s i)).setFov
        (fun f => { f with adopted := f.adopted + 1 }))

/-- R482: entries that found no free directory entry are adopted as soon as one is free. -/
def Dev.adoptRest (d : Dev) : Dev :=
  if d.cal.mirDirs.isEmpty = false ∧ ((d.fovState = fsTakeover ∧ 3 ≤ d.fov.step) ∨ d.fovState = fsSole) then d.adopt else d

/-- R482, step 4: the moved groups enter Change, and the peer's domain is replayed. -/
def Dev.toChange (d : Dev) : Dev :=
  ((d.anaAll (bitOf d.fov.moved) anaChange).setFov (fun f => { f with step := 4, changeBeat := d.beat })).setFld Reg.MDE_STS_REPLAY 1

/-- R482, step 2: FENCE_OUT is asserted. -/
def Dev.takeoverFence (d : Dev) : Dev :=
  let m := d.fov.moved
  let d1 := ((d.setFld Reg.FOV_STS_FENCE_OUT 1).adopt).raise 1634 m (m / 2 ^ 32) (d.fld Reg.FOV_STS_VAULT_NEEDED)
  if d1.flag Reg.FOV_STS_VAULT_NEEDED then d1.setFov (fun f => { f with step := 3 }) else d1.toChange

/-- R482, R516, R517: a grain of the peer's vault whose entry is not in the mirror is placed in own pages. -/
def Dev.placeVault (d : Dev) (st : List Byte) : Dev :=
  let (e0, _) := storedEntry st
  let s := grainSlice e0.vol (e0.off / 8)
  if d.cal.dirs.any (fun x => decide (x.2.grid = e0.grid) && decide (x.2.state ≠ .free)) then d
  else match (d.freeIdx s 1).head? with
    | none => d
    | some i =>
      match d.allocRun (2 ^ e0.size) (.grain s i) with
      | none => d
      | some (page, d1) =>
        let d2 := { d1 with cal := { d1.cal with own := writeBytes d1.cal.own (page * pageBytes) ((st.drop 48).take e0.bytes) } }
        ((d2.updDir s i (fun _ => { e0 with
          state := .mirrored, vaulted := false, adopted := false, page := page, order := d2.cal.order })).arm (tmMirrored s i)).setFov
            (fun f => { f with adopted := f.adopted + 1 })

/-- R482, step 3: the peer's vault log, or image, is in HBM3E. -/
def Dev.takeVault (d : Dev) (l : List (List Byte)) : Dev :=
  let recs := (l.filterMap d.vaultOpen).map (fun (r : VaultRec) => (0, 0, if r.kind = vkGeyGrain then { r with kind := vkGrain } else r))
  let grains := (liveGrains recs).map (fun r => r.2.2.stored)
  let js := (recs.filter (fun r => decide (r.2.2.kind ∈ [vkJournal, vkGeyJournal]))).flatMap (fun r =>
    (List.range (r.2.2.stored.length / 64)).map (fun i => decodeJRec ((r.2.2.stored.drop (64 * i)).take 64)))
  let js := js.filter (fun r => match r.body with
    | .ringHead _ _ _ => false
    | _ => true)
  let d1 := d.each grains (fun st d => d.placeVault st)
  { d1 with mde := { d1.mde with peerRing := js.foldl (fun x r => recIns r x) d1.mde.peerRing } }

/-- R482, step 5, R314, R485, R486: the moved groups are served. -/
def Dev.takeoverDone (d : Dev) : Dev :=
  let beats := min (d.since d.fov.changeBeat) (2 ^ 32 - 1)
  let past := d.fov.takeovers.filter (fun e => decide (d.epoch < e + 256)) ++ [d.epoch]
  -- R314: changes that waited for the peer's records are applied here
  let d1 := d.each d.mde.remote (fun r d => d.refLocal r.grid r.delta)
  let d2 := (({ d1 with mde := { d1.mde with remote := [] } }.setFld Reg.MDE_STS_REMOTE_HELD 0).setFld Reg.CDX_REMOTE_RECORDS 0).anaAll (bitOf d.fov.moved) anaOptimized
  let d3 := ((d2.setFld Reg.FOV_STS_STATE fsSole).setFld Reg.FOV_TAKEOVER_BEATS_BEATS beats).bumpSat Reg.FOV_TAKEOVERS_COUNT 1
  ((d3.setFld Reg.FOV_STS_VAULT_HOLD 0).setFov (fun f => { f with step := 0, takeovers := past, doneEpoch := d.epoch, alive := false })).raise
    1635 beats d.fov.replayed d.fov.adopted

/-- R482, R484: the records that the replay of the peer's domain applies. -/
def Dev.replayLen (d : Dev) (l : DomainLoad) : Nat :=
  (replayRun l.cut ((l.recs.map decodeJRec).foldl (fun x r => recIns r x) d.mde.peerRing)).1.length

/-- TAKEOVER_STEP_DONE, R482, R483: the step at which the takeover stands is complete; steps 2 and 5 end at once. -/
def Dev.takeoverStep (d : Dev) (vault : Option (List (List Byte))) (load : DomainLoad) : Dev :=
  if d.fovState ≠ fsTakeover then d
  else if d.fov.step = 1 then (if d.flag Reg.DRV_STS_PREEMPT_BUSY then d else d.takeoverFence)
  else if d.fov.step = 3 then
    match vault with
    | some l => ((d.takeVault l).setFld Reg.FOV_STS_VAULT_HOLD 0).toChange
    | none =>
      -- the peer's vault SSDs are seen through sub-port B of the vault ports
      let mask := (List.range 128).foldl (fun n a => if a % 4 = 2 ∧ d.isVault a then n * 256 + a else n) 0
      if d.flag Reg.FOV_STS_VAULT_HOLD then d else (d.setFld Reg.FOV_STS_VAULT_HOLD 1).raise 1638 mask 0 0
  else if d.fov.step = 4 then
    -- R484: at most 64 records a beat
    if 64 * d.since d.fov.changeBeat < d.replayLen load then d else (d.journalReplay true load).takeoverDone
  else d

def execTakeoverStepDone (vault : Option (List (List Byte))) (load : DomainLoad) (s : State) : Ans :=
  lift (fun d => d.takeoverStep vault load) s

/-- ACCEPT_LOSS, R483: a held takeover goes on without the vault. -/
def Dev.acceptLoss (d : Dev) : Dev :=
  if d.fov.step = 3 ∧ d.flag Reg.FOV_STS_VAULT_HOLD then (d.setFld Reg.FOV_STS_VAULT_HOLD 0).toChange else d

def execAcceptLoss (s : State) : Ans := lift Dev.acceptLoss s

/-- R485: FENCE_OUT is released; `cause` 0 automatic, 1 UNFENCE. -/
def Dev.fenceRelease (d : Dev) (cause : Nat) : Dev :=
  if d.flag Reg.FOV_STS_FENCE_OUT then (d.setFld Reg.FOV_STS_FENCE_OUT 0).raise 1637 cause 0 0 else d

/-- FENCE_RELEASE_EXPIRE, R485. -/
def Dev.fenceReleaseExpire (d : Dev) : Dev :=
  let n := d.fld Reg.FOV_CFG_FENCE_RELEASE
  if n ≠ 0 ∧ d.fov.step = 0 ∧ d.fov.doneEpoch + n ≤ d.epoch ∧ (d.fov.takeovers.filter (fun e => decide (d.epoch < e + 256))).length < 3 then
    d.fenceRelease 0
  else d

def execFenceReleaseExpire (s : State) : Ans := lift Dev.fenceReleaseExpire s
def execUnfence (s : State) : Ans := lift (fun d => d.fenceRelease 1) s

/-! ### The end of a compare-and-write (R475, R478, R486, R488, R492) -/

/-- R475: after a WON, a drive that holds a different copy is rewritten, with that copy as compare value. -/
def Dev.repair (d : Dev) (new : List Byte) : Dev :=
  let lost := (List.range 3).filter (fun i => decide (tget 0 d.drv.wit i = 2))
  let bad := lost.filterMap (fun i => (d.fov.copies.getD i none).map (fun b => (i, b)))
  let d1 := d.each bad (fun x d =>
    let a := d.fld (Reg.DRV_WIT_CFG_WIT x.1)
    if d.isOn (.att a) then
      d.askDrive a { req := .other, cls := 0, op := 0x05, slice := 0, lba := d.lbaOf a (d.fld Reg.DRV_WIT_BASE_LOC * stripBytes)
                     nlb := d.lbaOf a 4096, data := padTo 4096 x.2 ++ padTo 4096 new, fua := true }
    else d)
  d1.cond (!bad.isEmpty) (fun d => d.raise 1647 0 (bad.foldl (fun m x => m + 2 ^ x.1) 0) 0)

/-- R492, step 6: the releasing head has written the record; the domain is the peer's, and HANDOVER goes out. -/
def Dev.handoverSend (d : Dev) : Dev :=
  let f := d.fov
  let cp := if f.handBack then d.mde.otherNum else d.fld Reg.MDE_CP_NUM_NUM
  let d2 := if f.handDomain then
      (if f.handBack then { d with mde := { d.mde with peerHeld := false } } else { d with mde := { d.mde with ownGone := true } })
    else d
  (d2.setFov (fun f => { f with handStep := 6 })).ownMsg 7 f.handMask ((if f.handDomain then 1 else 0) + 2 ^ 8 * cp)

/-- What a change of the record does once it stands. -/
def Dev.recordStands (d : Dev) (why : WitWhy) (old : WitRec) : Dev :=
  match why with
  | .claim => d.takeover old
  | .vaultOnly _ => d.holdEnd
  | .sole | .shared => { d with edge := d.edge ++ [EdgeAct.assign] }
  | .join _ =>
    let d1 := ((d.setFld Reg.FOV_STS_CLAIM_OUT 0).setFov (fun f => { f with joining := false })).ownMsg 2 0 0
    d1.resyncSource
  | .handover => d.handoverSend
  | .refresh | .home _ => d

/-- WITNESS_ATTEMPT_RESULT, R475: every drive has answered. -/
def Dev.witnessResult (d : Dev) : Dev :=
  match d.fov.why, d.fov.witness with
  | some why, some old =>
    let outs := (List.range 3).map (fun i => tget 0 d.drv.wit i)
    if outs.any (fun o => decide (o = 0)) then d
    else
      let won := decide (2 ≤ (outs.filter (fun o => decide (o = 1))).length)
      let lost := decide (2 ≤ (outs.filter (fun o => decide (o = 2))).length)
      let d0 := d.setFov (fun f => { f with why := none, stale := f.stale || !won })
      let d1 := d0.cond (decide (why = .claim)) (fun d => d.raise 1633 (if won then 0 else if lost then 1 else 2)
        ((List.range 3).foldl (fun n i => n + (outs.getD i 1 - 1) * 4 ^ i) 0) d.fov.newRec.gen)
      if won then
        let n := d1.fov.newRec
        let d2 := ((d1.knowRecord n.bytes n).repair n.bytes).setFov (fun f => { f with todo := f.todo.filter (fun w => decide (w ≠ why)) })
        d2.recordStands why old
      else if why = .claim then (if lost then d1.fence 1 else d1.inconclusive)
      else d1.setFov (fun f => { f with todo := f.todo.filter (fun w => decide (w ≠ .refresh)) })
  | _, _ => d

def execWitnessAttemptResult (s : State) : Ans := lift Dev.witnessResult s

/-! ### Rejoin (R486, R488) -/

/-- R149: mirror pages that hold valid peer entries, and grains adopted. -/
def Dev.mirPagesUsed (d : Dev) : Nat :=
  (d.cal.mirDirs.foldl (fun n e => n + 2 ^ e.2.size) 0) + ((d.cal.dirs.filter (fun e => e.2.adopted)).foldl (fun n e => n + 2 ^ e.2.size) 0)

/-- JOIN_REQ, R488. -/
def Dev.joinReq (d : Dev) (gen rgen : Nat) : Dev :=
  match d.fov.witness with
  | none => d
  | some w =>
    if gen < w.gen then d
    else if d.fovState ≠ fsSole ∨ 0 < d.mirPagesUsed then d.ownMsg 2 0 1
    else if d.fov.joining then d
    else
      let p := d.peerSlot
      ((d.setFov (fun f => { f with joining := true })).preempt (resvKey (d.fld Reg.DRV_ARRAY_TAG_TAG) (w.resv p) p)).want (.join (rgen % 2 ^ 24))

def execJoinReq (gen rgen : Nat) (s : State) : Ans := lift (fun d => d.joinReq gen rgen) s

/-- JOIN_ACK, R488: accepted, the returner discards its vault log and its Caldera, takes its new key and becomes the target. -/
def Dev.joinAck (d : Dev) (gen arg : Nat) : Dev :=
  match d.fov.witness with
  | none => d
  | some w =>
    if gen < w.gen ∨ d.fovState ≠ fsJoining ∨ d.flag Reg.FOV_STS_RESYNC_TGT then d
    else if arg ≠ 0 then d
    else
      let d1 := { d with
        cal := { d.cal with dirs := [], mirDirs := [], groups := [], placeQ := [], mapOnly := [], runs := [] }
        mem := { d.mem with live := [], heads := [], relQ := [], jseq := 0 }
        mde := { d.mde with ring := [], peerRing := [], inserts := [], peerHeld := false, ownGone := true } }
      (d1.setFld Reg.DRV_RESV_GEN_GEN (w.resv d.slotId + 1)).resyncTarget

def execJoinAck (gen arg : Nat) (s : State) : Ans := lift (fun d => d.joinAck gen arg) s

/-- R488: a returner that was refused asks again every epoch. -/
def Dev.joinAgain (d : Dev) : Dev :=
  match d.fov.witness with
  | some w =>
    if d.fovState = fsJoining ∧ d.flag Reg.FOV_STS_RESYNC_TGT = false ∧ d.fov.joinEpoch ≤ d.epoch ∧ d.linkUp then
      (d.setFov (fun f => { f with joinEpoch := d.epoch + 1 })).ownMsg 1 0 (w.resv d.slotId + 1)
    else d
  | none => d

/-- LEAVE, R486: the peer leaves. -/
def Dev.leave (d : Dev) (gen : Nat) : Dev :=
  if gen < (d.fov.witness.map (·.gen)).getD 0 ∨ d.fovState ≠ fsPaired then d
  else (((d.setFld Reg.FOV_STS_STATE fsSole).setFld Reg.GLB_CAL_STS_PEER_ABSENT 1).setFov (fun f => { f with alive := false })).want .sole

def execLeave (gen : Nat) (s : State) : Ans := lift (fun d => d.leave gen) s

/-- FOV_LEAVE, R493: refused while this head owns any group. -/
def Dev.fovLeave (d : Dev) : Dev :=
  if d.ownMask ≠ 0 ∨ d.fovState ≠ fsPaired then d
  else (d.ownMsg 10 0 0).setFld Reg.FOV_STS_STATE fsStart

def execFovLeave (s : State) : Ans := lift Dev.fovLeave s

/-! ### The link (R472, R486, R489, R490) -/

/-- R472, R490: the link has left UP: writes are held, but for a head that serves alone and has heard no peer (log 201), VAULT_ONLY is wanted, and a resync is
interrupted. -/
def Dev.fovLinkDown (d : Dev) : Dev :=
  if d.fovState = fsStart ∨ d.fovState = fsFenced then d
  else
    let d2 := ((d.cond (decide (d.fovState ≠ fsSole) || d.fov.alive) Dev.holdWrites).peerGone.setFov (fun f => { f with epochOk := false })).cond (decide (d.fovState ≠ fsSole)) (fun d => d.want (.vaultOnly true))
    let d3 := d2.cond (d2.flag Reg.FOV_STS_RESYNC_TGT) (fun d =>
      (d.setFov (fun f => { f with tgtPend := [] })).raise 1641 1 (d.fld Reg.FOV_RESYNC_BATCH_BATCH) 0)
    d3.cond (d3.flag Reg.FOV_STS_RESYNC_SRC) (fun d => d.raise 1641 0 (d.fld Reg.FOV_RESYNC_BATCH_BATCH) 0)

/-- The link is UP: a head in START goes on, and in service each head is the source toward the other (R489), or goes on with its resync. -/
def Dev.fovLinkUp (d : Dev) : Dev :=
  if d.fovState = fsStart then d.startStep
  else
    let d1 := (d.peerBack.holdEnd).cond (d.flag Reg.FOV_STS_RESYNC_SRC || decide (d.fovState ∈ [fsPaired, fsHandover])) (fun d => d.resyncSource)
    d1.cond (decide (d1.fovState ∈ [fsPaired, fsHandover]) && !d1.flag Reg.FOV_STS_RESYNC_TGT) (fun d => d.resyncTarget)

/-! ### Hand-over and failback (R492 to R494) -/

/-- A hand-over begins on the releasing head. -/
def Dev.handoverBegin (d : Dev) (mask : Nat) (domain whole back : Bool) : Dev :=
  let d1 := (d.setFld Reg.FOV_STS_STATE fsHandover).setFov (fun f => { f with
    handStep := 1, handRole := 1, handMask := mask, handDomain := domain, handWhole := whole, handBack := back, cpTarget := 0 })
  (d1.arm tmHandover).raise 1642 (if back then 1 else 0) mask (mask / 2 ^ 32)

/-- HANDOVER_CTL, R493: every group that this head owns, and its domain. -/
def Dev.handoverCtl (d : Dev) : Dev :=
  if d.fovState ≠ fsPaired ∨ d.ownMask = 0 then d
  else (d.setFld Reg.FOV_CTL_HANDOVER 1).handoverBegin d.ownMask (!d.mde.ownGone) true false

def execHandoverCtl (s : State) : Ans := lift Dev.handoverCtl s

/-- HANDOVER_REQ, R494, R497: the holder hands the peer's home groups and its domain back. -/
def Dev.handoverReq (d : Dev) (gen mask : Nat) : Dev :=
  if gen < (d.fov.witness.map (·.gen)).getD 0 then d
  else if d.fovState ≠ fsPaired then d.ownMsg 9 mask 2
  else
    let m := Nat.land mask d.ownMask
    if m = 0 ∧ d.mde.peerHeld = false then d else d.handoverBegin m d.mde.peerHeld false true

def execHandoverReq (gen mask : Nat) (s : State) : Ans := lift (fun d => d.handoverReq gen mask) s

/-- A volume's group moves. -/
def Dev.moving (d : Dev) (grp : Nat) : Bool := decide (grp ≠ 0) && bitOf d.fov.handMask (grp - 1)

/-- R492, step 3: no own grain of the moving groups is short of PLACED, with its PLACE record mirrored; a whole head has none left. -/
def Dev.handDrained (d : Dev) : Bool :=
  let own := d.cal.dirs.filter (fun e => decide (e.2.state ≠ .free))
  (if d.fov.handWhole then own.isEmpty
   else own.all (fun e => !d.moving (d.vol e.2.vol).anaGrp || (decide (e.2.state = .placed ∨ e.2.state = .verified) &&
     match (d.red e.1).wait with
     | some (m, n) => waitHolds (d.ctx m).cc n
     | none => true))) && (!d.fov.handDomain || d.mde.reloc.isEmpty)

/-- R492: the checkpoint number of the moving domain. -/
def Dev.handCp (d : Dev) : Nat := if d.fov.handBack then d.mde.otherNum else d.fld Reg.MDE_CP_NUM_NUM

/-- HANDOVER_STEP_DONE, R492. -/
def Dev.handoverStep (d : Dev) (copies : List (Option (List Byte))) : Dev :=
  if d.fovState ≠ fsHandover ∨ d.fov.handRole ≠ 1 then d
  else
    let to_ (d : Dev) (n : Nat) : Dev := d.setFov (fun f => { f with handStep := n })
    match d.fov.handStep with
    | 1 =>
      if d.ownDirty ≤ 256 * d.fld Reg.FOV_CFG2_HANDOVER_MARK then (to_ d 2).anaAll (bitOf d.fov.handMask) anaChange else d
    | 2 => if (List.range 64).any (fun g => bitOf d.fov.handMask g && d.grpRunning (g + 1)) then d else to_ d 3
    | 3 =>
      if d.handDrained = false then d
      else if d.fov.handDomain then
        let n := d.handCp + (if d.mde.cpRun && (d.mde.cpOther == d.fov.handBack) then 2 else 1)
        (to_ (d.setFov (fun f => { f with cpTarget := n })) 4).fullCheckpointStart
      else to_ d 5
    | 4 =>
      if d.handCp < d.fov.cpTarget then d
      else ((to_ (d.disarm tmHandover) 5).readRecord copies true).want .handover |>.attemptNext
    | 5 => if d.fov.why.isSome then d else ((d.disarm tmHandover).readRecord copies true).want .handover |>.attemptNext
    | _ => d

def execHandoverStepDone (copies : List (Option (List Byte))) (s : State) : Ans := lift (fun d => d.handoverStep copies) s

/-- The hand-over ends on the releasing head; the moving groups go to an ANA state. -/
def Dev.handoverEnd (d : Dev) (st : Nat) : Dev :=
  (((d.anaAll (bitOf d.fov.handMask) st).setFld Reg.FOV_STS_STATE fsPaired).setFld Reg.FOV_CTL_HANDOVER 0).setFov (fun f => { f with
    handStep := 0, handRole := 0 }) |>.disarm tmHandover

/-- HANDOVER_LIMIT_EXPIRE, R492. -/
def Dev.handoverLimit (d : Dev) : Dev :=
  if d.fovState = fsHandover ∧ d.fov.handRole = 1 ∧ d.fov.handStep < 5 ∧ d.expired tmHandover (d.fld Reg.FOV_HANDOVER_LIMIT_BEATS) then
    ((d.ownMsg 9 d.fov.handMask 1).raise 1644 1 0 0).handoverEnd anaOptimized
  else d

def execHandoverLimitExpire (s : State) : Ans := lift Dev.handoverLimit s

/-- HANDOVER, R492, R497: the arriving head loads the domain, and serves the groups. -/
def Dev.handoverTake (d : Dev) (gen mask arg : Nat) (load : DomainLoad) : Dev :=
  let d := { d with cdx := { d.cdx with held := d.cdx.held.filter (fun m => decide (m ≠ LinkMsg.ownership 7 gen mask arg)) } }
  match d.fov.witness with
  | none => d
  | some w =>
    if gen < w.gen then d
    else
      let s := d.slotId
      let gs := (List.range 64).filter (bitOf mask)
      let back := d.mde.ownGone
      let w1 := { w with
        gen := gen, owner := gs.foldl (fun m g => bitPut m g (decide (s = 1))) w.owner
        dom := if arg % 2 = 1 then bitPut w.dom (if back then s else 1 - s) (decide (s = 1)) else w.dom }
      let d1 := if arg % 2 = 1 then
          let d := d.loadDomain load
          { d with mde := { d.mde with ownGone := if back then false else d.mde.ownGone, peerHeld := if back then d.mde.peerHeld else true } }
        else d
      let d3 := ((d1.knowRecord w1.bytes w1).anaAll (bitOf mask) anaOptimized).bumpSat Reg.FOV_HANDOVERS_COUNT 1
      ((d3.raise 1643 1 mask (mask / 2 ^ 32)).ownMsg 8 mask 0).arriveEnd

def execHandover (gen mask arg : Nat) (load : DomainLoad) (s : State) : Ans := lift (fun d => d.handoverTake gen mask arg load) s

/-- HANDOVER_ACK, R492. -/
def Dev.handoverAck (d : Dev) (gen mask : Nat) : Dev :=
  if gen < (d.fov.witness.map (·.gen)).getD 0 ∨ d.fovState ≠ fsHandover ∨ d.fov.handStep ≠ 6 then d
  else ((d.handoverEnd anaNonOptimized).bumpSat Reg.FOV_HANDOVERS_COUNT 1).raise 1643 0 mask (mask / 2 ^ 32)

def execHandoverAck (gen mask : Nat) (s : State) : Ans := lift (fun d => d.handoverAck gen mask) s

/-- HANDOVER_ABORT, R492, R497: the groups stay with the releasing head; the counts of R494 begin again. -/
def Dev.handoverAbort (d : Dev) (gen _mask arg : Nat) : Dev :=
  if gen < (d.fov.witness.map (·.gen)).getD 0 then d
  else ((d.setFld Reg.FOV_STS_HEALTHY 0).raise 1644 arg 0 0).arriveEnd

def execHandoverAbort (gen mask arg : Nat) (s : State) : Ans := lift (fun d => d.handoverAbort gen mask arg) s

/-- The home groups of this head that the peer owns. -/
def Dev.homeAway (d : Dev) : Nat :=
  (List.range 64).foldl (fun m g =>
    bitPut m g ((bitOf (d.fld Reg.FOV_HOME_MASK) g == decide (d.slotId = 1)) && !d.flag (Reg.NVT_ANA_OWN g))) 0

/-- R494: this beat is healthy. -/
def Dev.healthy (d : Dev) : Bool := d.linkUp && !d.vaultThrough && !bitOf d.fov.peerState 3 && decide (d.fovState ≠ fsSuspect)

/-- FAILBACK_EPOCH_COUNT, R494: at an epoch edge, on a returner in PAIRED. -/
def Dev.failbackCount (d : Dev) : Dev :=
  if tget 0 d.seen 0x40001 = d.epoch + 1 ∨ d.fovState ≠ fsPaired ∨ (d.homeAway = 0 ∧ d.mde.ownGone = false) then d
  else
    let ok := d.fov.epochOk && d.healthy
    let d0 := { d with seen := tput 0 d.seen 0x40001 (d.epoch + 1) }.setFov (fun f => { f with epochOk := true })
    let n := d0.fld Reg.FOV_STS_HEALTHY
    let left := d0.fld Reg.FOV_HOLDOFF_LEFT_EPOCHS
    let send (d : Dev) : Dev := if d.dbgActive then d else ((d.ownMsg 6 d.homeAway 0).setFov (fun f => { f with skipHoldoff := false, asked := d.homeAway })).setFld Reg.FOV_CTL_FAILBACK 0
    if ok = false then (d0.setFld Reg.FOV_STS_HEALTHY 0).setFld Reg.FOV_HOLDOFF_LEFT_EPOCHS (d0.fld Reg.FOV_CFG_HOLDOFF)
    else if n < 3 then (d0.setFld Reg.FOV_STS_HEALTHY (n + 1)).setFld Reg.FOV_HOLDOFF_LEFT_EPOCHS (d0.fld Reg.FOV_CFG_HOLDOFF)
    else
      let d1 := d0.setFld Reg.FOV_STS_HEALTHY 4
      if d1.fov.skipHoldoff then send d1
      else if n = 3 then d1
      else if 1 < left then d1.setFld Reg.FOV_HOLDOFF_LEFT_EPOCHS (left - 1)
      else
        let d2 := d1.setFld Reg.FOV_HOLDOFF_LEFT_EPOCHS 0
        if d2.flag Reg.FOV_CTL_AUTO_FB ∧ left = 1 then send d2 else d2

def execFailbackEpochCount (s : State) : Ans := lift Dev.failbackCount s

/-- FAILBACK, R494: without the hold-off, but not without the healthy epochs. -/
def Dev.failback (d : Dev) : Dev :=
  if d.fovState ≠ fsPaired then d
  else (d.setFld Reg.FOV_CTL_FAILBACK 1).setFov (fun f => { f with skipHoldoff := true })

def execFailback (s : State) : Ans := lift Dev.failback s

end Sys2Proof.Machine
end

