-- ==== Sys2Proof/Machine/Counters.lean ====
section
/-! DEFINITION. The performance counters (chapter 20) above the counting itself, which is in Ops: the event lists, occupancy, overflow,
writes, samples and snapshots. -/
namespace Sys2Proof.Machine

/-! ### Event lists (R586, R587) -/

/-- The events of a block: the device's, or a slice's. -/
def pmcEvents (b : Nat) : List Nat :=
  if b = 0 then [1, 2, 3, 4, 5, 6, 7, 8, 9, 10, 11, 12, 0x20, 0x21, 0x22, 0x23, 0x24]
  else [1, 2, 3, 4, 5, 6, 7, 8, 9, 10, 11, 12, 0x20, 0x21, 0x22, 0x23, 0x24]

/-- An occupancy event. -/
def pmcOccupancy (ev : Nat) : Bool := decide (0x20 ≤ ev ∧ ev ≤ 0x24)

/-- The unit of an occupancy event. -/
def pmcUnit (b ev : Nat) : Nat := if b = 0 ∧ ev = 0x20 then 64 else if b ≠ 0 ∧ ev = 0x24 then 64 else 1

/-- The occupancy now. -/
def Dev.occupancy (d : Dev) (b ev : Nat) : Nat :=
  let s := b - 1
  if b = 0 then
    if ev = 0x20 then d.ownDirty
    else if ev = 0x21 then (d.nvt.tags.filter (fun e => decide (e.2.state ≠ .free))).length
    else if ev = 0x22 then d.drv.slots.length
    else if ev = 0x23 then d.cdx.unacked.length
    else d.fum.queue.length
  else if ev = 0x20 then (d.slice s).waiting.length
  else if ev = 0x21 then d.fld (Reg.SLI_FPU_WAIT_GRAINS s)
  else if ev = 0x22 then d.fld (Reg.SLI_SNC_SLICE_STS_WAITING s)
  else if ev = 0x23 then d.fld (Reg.SLI_RD_STS_INFLIGHT s)
  else ((d.rd.reads.filter (fun e => decide (e.2.slice = s))).map (fun e => e.2.pages)).sum

/-- R584: what a counter of an occupancy event adds in a beat of `cycles` core cycles; occupancies change only at beat edges. -/
def Dev.occupancyBeat (d : Dev) (cycles : Nat) : Dev :=
  d.each ((List.range 9).flatMap (fun b => (List.range 8).map (fun n => (b, n)))) (fun x d =>
    let ev := d.fld (Reg.PMC_CFG_EVENT x.1 x.2)
    d.cond (d.pmcRuns x.1 x.2 && !d.pmcHigh x.1 x.2 && pmcOccupancy ev &&
        decide (d.fld (Reg.PMC_CFG_THRESH x.1 x.2) * pmcUnit x.1 ev < d.occupancy x.1 ev))
      (fun d => d.pmcAdd x.1 x.2 cycles))

/-- R586: the memory accesses of a beat, for counters that count them: how many there are is given nowhere, a free value of at most 2^20. -/
def Dev.accessBeat (d : Dev) : Dev :=
  d.each ([0x00A, 0x00B].filter (fun ev => (List.range 8).any (fun n => d.pmcRuns 0 n && !d.pmcHigh 0 n && decide (d.fld (Reg.PMC_CFG_EVENT 0 n) = ev))))
    (fun ev d =>
      let (k, d1) := d.draw
      d1.count 0 ev (Config.freeNat k % 2 ^ 20))

/-! ### Overflow and writes (R588, R590) -/

/-- COUNTER_OVERFLOW, R588: a counter that counts passes 0xFFFF_FFFF. -/
def Dev.counterOverflow (d : Dev) (b n : Nat) : Dev :=
  if b < 9 ∧ n < 8 ∧ d.pmcRuns b n ∧ (d.pmcHigh b n ∨ d.fld (Reg.PMC_CFG_EVENT b n) ∈ pmcEvents b) then
    d.pmcAdd b n (2 ^ 32 - d.fld (Reg.PMC_CNT_COUNT b n))
  else d

def execCounterOverflow (b n : Nat) (s : State) : Ans := lift (fun d => d.counterOverflow b n) s

/-- COUNTER_WRITE, R590: a write to a counter or to a half of a pair. `over`: its cycle is one in which the counter, or the low half of its
pair, passes 0xFFFF_FFFF. -/
def Dev.counterWrite (d : Dev) (b n val : Nat) (ovr : Bool) : Dev :=
  if ¬(b < 9 ∧ n < 8) then d
  else
    let set (d : Dev) : Dev := d.setFld (Reg.PMC_CNT_COUNT b n) val
    -- only a counter that counts can overflow
    if !ovr || !d.pmcRuns b (if d.pmcHigh b n then n - 1 else n) then set d
    else
      let service := decide (d.fld Reg.GLB_MODE_MODE = 0)
      if d.pmcHigh b n then
        let d1 := d.setFld (Reg.PMC_CNT_COUNT b (n - 1)) 0
        set (d1.pmcBit (if service then Reg.PMC_BLK_STS_LOST_CARRY b else Reg.PMC_BLK_STS_WRAPPED b) (n - 1))
      else set (d.cond service (fun d => d.pmcBit (Reg.PMC_BLK_STS_LOST_CARRY b) n))

def execCounterWrite (b n : Nat) (val : Word) (ovr : Bool) (s : State) : Ans := lift (fun d => d.counterWrite b n val.toNat ovr) s

/-! ### Samples and snapshots (R593 to R595) -/

/-- SAMPLE_DELIVER, R594 to R596: the lowest counter of the block with a sample due fills the buffer; every other sample due is lost. -/
def Dev.sampleDeliver (d : Dev) (b : Nat) : Dev :=
  let mine := d.pmc.due.filter (fun x => decide (x.1 = b))
  let d1 := { d with pmc := { d.pmc with due := d.pmc.due.filter (fun x => !decide (x.1 = b)) } }
  match mine with
  | [] => d
  | x0 :: _ =>
    if d.flag (Reg.PMC_SMP_STS_SAMPLE_VALID b) then d1.bumpSat (Reg.PMC_SMP_STS_SAMPLE_LOST b) mine.length
    else
      let x := mine.foldl (fun (m : Nat × Nat × Nat) y => if y.2.1 < m.2.1 then y else m) x0
      let tag := if b = 0 then d.pmc.lastTag else (d.slice (b - 1)).lastTag
      let qp := if b = 0 then d.pmc.lastQp else (d.slice (b - 1)).lastTagQp
      let d2 := ((((((d1.bumpSat (Reg.PMC_SMP_STS_SAMPLE_LOST b) (mine.length - 1)).setFld (Reg.PMC_SMP_STS_SAMPLE_VALID b) 1).setFld
        (Reg.PMC_SMP_STS_COUNTER b) x.2.1).setFld (Reg.PMC_SMP_STS_TAG b) tag).setFld (Reg.PMC_SMP_QP_QP b) qp).setFld
        (Reg.PMC_SMP_OVF_OVF_BEAT b) x.2.2).setFld (Reg.PMC_SMP_DLV_DLV_BEAT b) d.beat
      d2.raise (2001 + b) b x.2.1 tag

def execSampleDeliver (b : Nat) (s : State) : Ans := lift (fun d => d.sampleDeliver b) s

/-- R583: the cycle counter: core cycles since power-on reset. -/
def Dev.pmcCycle (d : Dev) : Nat := (d.pmc.cycles + Config.cycleOf d.edges % d.sync.lastBeatLen) % 2 ^ 64

/-- COUNTER_SNAPSHOT, R593: every block copies its counters, its cycle counter and the epoch number. -/
def Dev.counterSnapshot (d : Dev) : Dev :=
  d.each (List.range 9) (fun b d =>
    ((d.setFld (Reg.PMC_SNAP_EPOCH_EPOCH b) d.epoch).setFld (Reg.PMC_SNAP_CYCLE_CYCLE b) (d.pmc.cycles % 2 ^ 64)).each (List.range 8)
      (fun n d => d.setFld (Reg.PMC_SNAP_CNT_COUNT b n) (d.fld (Reg.PMC_CNT_COUNT b n))))

def execCounterSnapshot (s : State) : Ans := lift Dev.counterSnapshot s

end Sys2Proof.Machine
end

