-- ==== Sys2Proof/Machine/P384.lean ====
section
/-! DEFINITION. The rest of the published algorithms that spec/ names: SHA-384 (FIPS 180-4) and ECDSA over P-384 (FIPS 186-5, R630, R654),
and the AES key wrap KW (NIST SP 800-38F, R551). -/
namespace Sys2Proof.Machine

/-! ### SHA-384 -/

/-- The words of `n` times 64 bits that a number holds, the most significant word first. -/
def words64 (n v : Nat) : List (BitVec 64) := (List.range n).map (fun i => BitVec.ofNat 64 (v >>> (64 * (n - 1 - i))))

/-- The round constants, as one number: the first 64 bits of the fractions of the cube roots of the first 80 primes, in order. -/
def sha5Roots : Nat :=
  0x428a2f98d728ae227137449123ef65cdb5c0fbcfec4d3b2fe9b5dba58189dbbc3956c25bf348b53859f111f1b605d019923f82a4af194f9bab1c5ed5da6d8118d807aa98a303024212835b0145706fbe243185be4ee4b28c550c7dc3d5ffb4e272be5d74f27b896f80deb1fe3b1696b19bdc06a725c71235c19bf174cf692694e49b69c19ef14ad2efbe4786384f25e30fc19dc68b8cd5b5240ca1cc77ac9c652de92c6f592b02754a7484aa6ea6e4835cb0a9dcbd41fbd476f988da831153b5983e5152ee66dfaba831c66d2db43210b00327c898fb213fbf597fc7beef0ee4c6e00bf33da88fc2d5a79147930aa72506ca6351e003826f142929670a0e6e7027b70a8546d22ffc2e1b21385c26c9264d2c6dfc5ac42aed53380d139d95b3df650a73548baf63de766a0abb3c77b2a881c2c92e47edaee692722c851482353ba2bfe8a14cf10364a81a664bbc423001c24b8b70d0f89791c76c51a30654be30d192e819d6ef5218d69906245565a910f40e35855771202a106aa07032bbd1b819a4c116b8d2d0c81e376c085141ab532748774cdf8eeb9934b0bcb5e19b48a8391c0cb3c5c95a634ed8aa4ae3418acb5b9cca4f7763e373682e6ff3d6b2b8a3748f82ee5defb2fc78a5636f43172f6084c87814a1f0ab728cc702081a6439ec90befffa23631e28a4506cebde82bde9bef9a3f7b2c67915c67178f2e372532bca273eceea26619cd186b8c721c0c207eada7dd6cde0eb1ef57d4f7fee6ed17806f067aa72176fba0a637dc5a2c898a6113f9804bef90dae1b710b35131c471b28db77f523047d8432caab7b40c724933c9ebe0a15c9bebc431d67c49c100d4c4cc5d4becb3e42b6597f299cfc657e2a5fcb6fab3ad6faec6c44198c4a475817

/-- The initial hash value of SHA-384, as one number: the same of the square roots of the ninth to the sixteenth prime. -/
def sha384Start : Nat := 0xcbbb9d5dc1059ed8629a292a367cd5079159015a3070dd17152fecd8f70e593967332667ffc00b318eb44a8768581511db0c2e0d64f98fa747b5481dbefa4fa4

/-- The message schedule: the last 16 words and the words still to come. -/
def sha5Sched : Nat → List (BitVec 64) → List (BitVec 64)
  | 0, _ => []
  | n + 1, w =>
    let g (i : Nat) := w.getD i 0
    let s0 := (g 1).rotateRight 1 ^^^ (g 1).rotateRight 8 ^^^ (g 1 >>> 7)
    let s1 := (g 14).rotateRight 19 ^^^ (g 14).rotateRight 61 ^^^ (g 14 >>> 6)
    g 0 :: sha5Sched n (w.drop 1 ++ [g 0 + s0 + g 9 + s1])

/-- One round on the eight working variables. -/
def sha5Round (v : List (BitVec 64)) (kw : BitVec 64 × BitVec 64) : List (BitVec 64) :=
  match v with
  | [a, b, c, d, e, f, g, h] =>
    let t1 := h + (e.rotateRight 14 ^^^ e.rotateRight 18 ^^^ e.rotateRight 41) + ((e &&& f) ^^^ (~~~e &&& g)) + kw.1 + kw.2
    let t2 := (a.rotateRight 28 ^^^ a.rotateRight 34 ^^^ a.rotateRight 39) + ((a &&& b) ^^^ (a &&& c) ^^^ (b &&& c))
    [t1 + t2, a, b, c, d + t1, e, f, g]
  | l => l

/-- One 128-byte block. -/
def sha5Block (h : List (BitVec 64)) (blk : List Byte) : List (BitVec 64) :=
  let w := (List.range 16).map (fun i => BitVec.ofNat 64 (beNat ((blk.drop (8 * i)).take 8)))
  let v := ((words64 80 sha5Roots).zip (sha5Sched 80 w)).foldl sha5Round h
  (h.zip v).map (fun (x : BitVec 64 × BitVec 64) => x.1 + x.2)

/-- SHA-384 of a byte string: 48 bytes. -/
def sha384 (bs : List Byte) : List Byte :=
  let m := bs ++ [0x80] ++ List.replicate ((239 - bs.length % 128) % 128) 0 ++ beBytes 16 (8 * bs.length)
  (((List.range (m.length / 128)).foldl (fun h i => sha5Block h ((m.drop (128 * i)).take 128)) (words64 8 sha384Start)).flatMap
    (fun x => beBytes 8 x.toNat)).take 48

/-! ### ECDSA over P-384 -/

/-- The field's prime, the group's order, the curve's coefficient b (a is −3) and the base point. -/
def p384P : Nat := 2 ^ 384 - 2 ^ 128 - 2 ^ 96 + 2 ^ 32 - 1
def p384N : Nat := 0xffffffffffffffffffffffffffffffffffffffffffffffffc7634d81f4372ddf581a0db248b0a77aecec196accc52973
def p384B : Nat := 0xb3312fa7e23ee7e4988e056be3f82d19181d9c6efe8141120314088f5013875ac656398d8a2ed19d2a85c8edd3ec2aef
def p384G : Nat × Nat :=
  (0xaa87ca22be8b05378eb1c71ef320ad746e1d3b628ba79b9859f741e082542a385502f25dbf55296c3a545e3872760ab7,
   0x3617de4a96262c6f5d9e98bf9292dc29f8f41dbd289a147ce9da3113b5f0b8c00a60b1ce1d7e819d7a431d7c90ea0e5f)

/-- Power modulo m; the first argument bounds the bits of the exponent. -/
def modPow : Nat → Nat → Nat → Nat → Nat
  | 0, _, _, m => 1 % m
  | k + 1, b, e, m => let r := modPow k (b * b % m) (e / 2) m; if e % 2 = 1 then b * r % m else r

/-- The inverse modulo a prime of at most 384 bits. -/
def modInv (a m : Nat) : Nat := modPow 384 a (m - 2) m

/-- Addition of points; none is the point at infinity. -/
def ecAdd : Option (Nat × Nat) → Option (Nat × Nat) → Option (Nat × Nat)
  | none, q => q
  | p, none => p
  | some (x1, y1), some (x2, y2) =>
    let p := p384P
    if x1 = x2 ∧ (y1 + y2) % p = 0 then none
    else
      let l := if x1 = x2 then (3 * x1 * x1 + (p - 3)) * modInv (2 * y1 % p) p % p
        else (y2 + (p - y1)) * modInv ((x2 + (p - x1)) % p) p % p
      let x3 := (l * l + (p - x1) + (p - x2)) % p
      some (x3, (l * (x1 + (p - x3)) + (p - y1)) % p)

/-- A multiple of a point; the first argument bounds the bits of the factor. -/
def ecMul : Nat → Nat → Option (Nat × Nat) → Option (Nat × Nat)
  | 0, _, _ => none
  | k + 1, n, q => let r := ecMul k (n / 2) (ecAdd q q); if n % 2 = 1 then ecAdd q r else r

/-- FIPS 186-5: a signature r, s over a message under a public key, x then y, all big-endian (R629). -/
def ecdsaOk (pub msg r s : List Byte) : Bool :=
  let x := beNat (pub.take 48)
  let y := beNat ((pub.drop 48).take 48)
  let r := beNat r
  let s := beNat s
  let p := p384P
  let n := p384N
  if pub.length = 96 ∧ x < p ∧ y < p ∧ y * y % p = (x * x * x + (p - 3) * x + p384B) % p ∧ 0 < r ∧ r < n ∧ 0 < s ∧ s < n then
    let w := modInv s n
    match ecAdd (ecMul 384 (beNat (sha384 msg) * w % n) (some p384G)) (ecMul 384 (r * w % n) (some (x, y))) with
    | some (vx, _) => decide (vx % n = r)
    | none => false
  else false

/-! ### The inverse cipher and KW -/

def aesUnsub (b : Byte) : Byte := aesInv (b.rotateLeft 1 ^^^ b.rotateLeft 3 ^^^ b.rotateLeft 6 ^^^ 0x05)

def aesUnshift (s : List Byte) : List Byte := (List.range 16).map (fun i => s.getD ((i + 12 * (i % 4)) % 16) 0)

def aesUnmixCol (c : List Byte) : List Byte :=
  let m (k : Byte) (i : Nat) := aesMul 8 (c.getD i 0) k
  (List.range 4).map (fun i => m 14 i ^^^ m 11 ((i + 1) % 4) ^^^ m 13 ((i + 2) % 4) ^^^ m 9 ((i + 3) % 4))

def aesUnmix (s : List Byte) : List Byte := (List.range 4).flatMap (fun i => aesUnmixCol ((s.drop (4 * i)).take 4))

/-- AES-256 decryption of one 16-byte block under expanded keys. -/
def aesUnblock (ks : List (List Byte)) (blk : List Byte) : List Byte :=
  let s0 := xorBytes blk (ks.getD 14 [])
  let s1 := ((ks.drop 1).take 13).reverse.foldl (fun s k => aesUnmix (xorBytes ((aesUnshift s).map aesUnsub) k)) s0
  xorBytes ((aesUnshift s1).map aesUnsub) (ks.getD 0 [])

/-- The steps of unwrapping four semiblocks, t counting down. -/
def kwStep (ks : List (List Byte)) : Nat → List Byte × List (List Byte) → List Byte × List (List Byte)
  | 0, x => x
  | t + 1, (a, r) =>
    let i := t % 4
    let b := aesUnblock ks (xorBytes a (beBytes 8 (t + 1)) ++ r.getD i [])
    kwStep ks t (b.take 8, r.set i (b.drop 8))

/-- SP 800-38F: the 32 bytes wrapped in 40 under a key-encryption key, or none where the integrity check fails. -/
def kwUnwrap (kek c : List Byte) : Option (List Byte) :=
  let (a, r) := kwStep (aesKeys kek) 24 (c.take 8, (List.range 4).map (fun i => (c.drop (8 + 8 * i)).take 8))
  if c.length = 40 ∧ a = List.replicate 8 0xA6 then some r.flatten else none

end Sys2Proof.Machine
end

