-- ==== Sys2Proof/Machine/Security.lean ====
section
/-! DEFINITION. Alarms, the debug opening, the test logic (chapter 23), the die temperature and the hold-up bank (R171, R676, R677). -/
namespace Sys2Proof.Machine

/-! ### The challenge (R653) -/

/-- The life of a challenge. -/
def tmChallenge : Nat := tm 18 0

/-- The challenge is no longer valid; SEC_CHAL reads 0. -/
def Dev.dropChallenge (d : Dev) : Dev :=
  let d1 := (d.each (List.range 4) (fun i d => d.setFld (Reg.SEC_CHAL i) 0)).setFld Reg.SEC_STS_CHAL_VALID 0
  { d1 with sec := { d1.sec with chal := none } }.disarm tmChallenge

/-- R653: a fresh challenge of 16 bytes from the random source. -/
def Dev.drawChallenge (d : Dev) : List Byte × Dev :=
  let (c, d1) := d.freeBlock 16
  let d2 := (({ d1 with sec := { d1.sec with chal := some c } }.each (List.range 4) (fun i d =>
    d.setFld (Reg.SEC_CHAL i) (leField c (4 * i) 4))).setFld Reg.SEC_STS_CHAL_VALID 1).arm tmChallenge
  (c, d2.raise 1957 (leField c 0 4) 0 0)

/-- CHALLENGE_EXPIRE, R653: 4 epochs after it was drawn. -/
def Dev.challengeExpire (d : Dev) : Dev :=
  if d.sec.chal.isSome ∧ d.expired tmChallenge (4 * Config.epochBeats) then d.dropChallenge else d

def execChallengeExpire (s : State) : Ans := lift Dev.challengeExpire s

/-! ### Opening debug (R654 to R657) -/

/-- The step-3 scrub of a debug opening. -/
def tmScrub : Nat := tm 18 1

/-- R656: 60 GiB at 128 KiB per beat. -/
def scrubBeats : Nat := 491520

/-- R655: the first check that a token fails, as status and DETAIL; none where it opens debug. DETAIL counts from the start of the request,
in which the token lies at offset 40. -/
def Dev.debugCheck (d : Dev) (len : Nat) (tok : List Byte) : Option (Nat × Nat) :=
  let f (o n : Nat) : Nat := leField tok o n
  let pub := (tok.drop 40).take 96
  if d.fld Reg.SEC_STS_ACTIVE ≠ 0 ∨ d.fld Reg.SEC_STS_ALARM_LATCH ≠ 0 then some (0x0C, 1)
  else if d.dbgActive then some (0x0C, 2)
  else if d.ownMask ≠ 0 ∨ d.fovState ≠ fsStart ∨ 0 < d.mirPagesUsed then some (0x05, d.peerSlot)
  else if len ≠ 232 then some (0x04, 32)
  else if f 0 4 ≠ 0x7A11DB01 then some (0x04, 40)
  else if f 4 1 ≠ 1 then some (0x04, 44)
  else if 2 ≤ f 5 1 then some (0x04, 45)
  else if f 6 2 = 0 ∨ 4 ≤ f 6 2 then some (0x04, 46)
  else if f 11 5 ≠ 0 then some (0x04, 51)
  else if d.sec.fuses.dbg[f 5 1]? ≠ some (sha384 pub) then some (0x04, 80)
  else if !ecdsaOk pub (tok.take 136) ((tok.drop 136).take 48) ((tok.drop 184).take 48) then some (0x04, 176)
  else if f 8 2 ≠ 0x6400 then some (0x04, 48)
  else if f 10 1 ≠ 0xB0 then some (0x04, 50)
  else if f 16 8 ≠ d.sec.fuses.serial then some (0x04, 56)
  else if d.sec.chal ≠ some ((tok.drop 24).take 16) then some (0x04, 64)
  else none

/-- R655: a refused DEBUG_OPEN; the challenge goes. -/
def Dev.debugRefuse (d : Dev) (st detail : Nat) : Dev := d.dropChallenge.raise 1958 st detail 0

/-- R656: an accepted DEBUG_OPEN: OPENING. With own pages in use the Geyser flush begins at the next edge. The challenge is used up. -/
def Dev.debugAccept (d : Dev) (tok : List Byte) (ticket : Nat) : Dev :=
  let flush := decide (0 < d.ownDirty)
  let d1 := (d.dropChallenge.setFld Reg.SEC_STS_DBG_STATE 1).setFld Reg.SEC_STS_SCOPE (leField tok 6 2)
  { d1 with
    sec := { d1.sec with step := 1, ticket := ticket, key := leField tok 5 1, flush := flush }
    edge := d1.edge ++ (if flush then [EdgeAct.geyser] else []) }

/-- R657: the opening stops; its ticket ends with SECURITY_LOCKED. -/
def Dev.debugStop (d : Dev) : Dev :=
  if d.fld Reg.SEC_STS_DBG_STATE = 1 then
    ({ d with sec := { d.sec with step := 0, flush := false } }.setFld Reg.SEC_STS_DBG_STATE 0).ticketEnd d.sec.ticket 0x0C 1
  else d

/-- R504, R656: the regions of HBM3E that step 3 writes with zeros: all but the hot metadata. -/
def scrubbed (addr : Nat) : Bool := decide (addr < 56 * gib) || (decide (92 * gib ≤ addr) && decide (addr < 96 * gib))

/-- R656, step 3: zeros over the Caldera, the read buffers, the manifest cache, the windows, the staging and the work buffers. -/
def Dev.scrubHbm (d : Dev) : Dev :=
  { d with
    cal := { d.cal with own := [], mirror := [] }
    ram := d.ram.filter (fun c => !scrubbed c.1)
    tph := { d.tph with mans := [] }
    upd := { d.upd with buf := none }
    mem := { d.mem with geyQ := [] } }

/-- R611: a change to SERVICE runs from the next beat edge. -/
def Dev.toService (d : Dev) : Dev :=
  { d with fis := { d.fis with switchAt := d.edges + 2, toProbe := false } }.atEdge .switching

/-- R613, R656: a change to PROBE runs from the edge at which step 5 of the opening starts, which is this one. -/
def Dev.toProbe (d : Dev) : Dev :=
  { d with fis := { d.fis with switchAt := d.edges + 1, toProbe := true } }.setFld Reg.FIS_STS_SWITCHING 1

/-- R656: the step at which the opening stands is over. -/
def Dev.debugStepOver (d : Dev) : Bool :=
  match d.sec.step with
  | 1 => !d.sec.flush || decide (d.fld Reg.MEM_GEY_STS_STATE ∈ [2, 3] ∧ ¬(EdgeAct.geyser ∈ d.edge))
  | 3 => d.expired tmScrub scrubBeats
  | 0 => false
  | _ => true

/-- R656: the next step begins. -/
def Dev.debugStep (d : Dev) (n : Nat) : Dev :=
  let d := { d with sec := { d.sec with step := n } }
  match n with
  | 2 => (d.keyLock 2).setFld Reg.SEC_STS_LOCKED 1
  | 3 => d.arm tmScrub
  | 4 => (d.disarm tmScrub).scrubHbm.setFld Reg.SEC_STS_DUK_BLOCKED 1
  | 5 =>
    let scope := d.fld Reg.SEC_STS_SCOPE
    let d1 := d.cond (decide (scope % 2 = 1)) Dev.toProbe
    let d2 := ((d1.setFld Reg.SEC_STS_DBG_STATE 2).setFld Reg.SEC_DBG_BEAT_BEAT d.beat).raise 1959 scope d.sec.key 0
    { d2.ticketEnd d.sec.ticket 0x00 0 with sec := { d2.sec with step := 0 } }
  | _ => d

/-- DEBUG_OPEN_STEP_DONE, R656, R657. -/
def Dev.debugStepDone (d : Dev) : Dev :=
  if d.fld Reg.SEC_STS_DBG_STATE ≠ 1 then d
  else if d.sec.step = 1 ∧ d.cal.pwrfail then d.debugStop
  else if d.debugStepOver then d.debugStep (d.sec.step + 1)
  else d

def execDebugOpenStepDone (s : State) : Ans := lift Dev.debugStepDone s

/-! ### Alarms (R658 to R661) -/

/-- The edges since the last cause became inactive. -/
def tmAlarm : Nat := tm 18 2

/-- R660: a Geyser flush in progress stops before its label is written. -/
def Dev.geyserStop (d : Dev) : Dev :=
  if d.fld Reg.MEM_GEY_STS_STATE = 1 then
    let gone (w : VWrite) : Bool := decide (w.why = .image) || decide (w.why = .label)
    let ws := (d.mem.writes.filter (fun e => gone e.2)).map (·.1)
    { d with
      mem := { d.mem with stage := 0, geyQ := [], writes := d.mem.writes.filter (fun e => !gone e.2) }
      drv := { d.drv with queue := d.drv.queue.filter (fun e => !(ws.any (fun w => decide (e.2.req = DrvReq.vault w)))) } }.setFld
        Reg.MEM_GEY_STS_STATE 0
  else d

/-- ALARM, R658 to R660, R657: causes become active, each with its two parameters. -/
def Dev.alarm (d : Dev) (cs : List (Nat × Nat × Nat)) : Dev :=
  let fresh := (cs.filter (fun c => decide (c.1 < 4) && decide (d.fld Reg.SEC_STS_ACTIVE / 2 ^ c.1 % 2 = 0)))
  if fresh.isEmpty then d
  else
    let mask := fresh.foldl (fun m c => m ||| 2 ^ c.1) 0
    let d1 := (((((d.keyLock 1).setFld Reg.SEC_STS_LOCKED 1).setFld Reg.SEC_STS_ACTIVE (d.fld Reg.SEC_STS_ACTIVE ||| mask)).setFld
      Reg.SEC_STS_ALARM_LATCH (d.fld Reg.SEC_STS_ALARM_LATCH ||| mask)).setFld Reg.SEC_ALARM_BEAT_BEAT d.beat).disarm tmAlarm
    let d2 := { d1 with sec := { d1.sec with since := d1.sec.since ||| mask } }.each fresh (fun c d => d.raise (1952 + c.1) c.2.1 c.2.2 0)
    d2.dropChallenge.geyserStop.debugStop

def execAlarm (cs : List (Nat × Nat × Nat)) (s : State) : Ans := lift (fun d => d.alarm cs) s

/-- ALARM_CAUSE_CLEAR, R658: a cause becomes inactive; with the last one the time of R661 begins. -/
def Dev.alarmCauseClear (d : Dev) (c : Nat) : Dev :=
  let act := d.fld Reg.SEC_STS_ACTIVE
  if c < 4 ∧ act / 2 ^ c % 2 = 1 then
    let d1 := d.setFld Reg.SEC_STS_ACTIVE (act - 2 ^ c)
    if d1.fld Reg.SEC_STS_ACTIVE = 0 then d1.arm tmAlarm else d1
  else d

def execAlarmCauseClear (c : Nat) (s : State) : Ans := lift (fun d => d.alarmCauseClear c) s

/-- R661: ALARM_CLR may act. -/
def Dev.mayClear (d : Dev) : Bool :=
  decide (d.fld Reg.SEC_STS_ACTIVE = 0) && (!d.armed tmAlarm || d.expired tmAlarm (2 ^ 20)) &&
    decide (d.fld Reg.SEC_STS_ALARM_LATCH = 0) && decide (d.fld Reg.SEC_STS_DBG_STATE = 0)

/-- ALARM_CLR, R661. -/
def Dev.alarmClr (d : Dev) : Dev :=
  if d.mayClear then
    if d.flag Reg.KEY_STS_LOCKED then
      let d1 := ((d.setFld Reg.KEY_STS_LOCKED 0).setFld Reg.SEC_STS_LOCKED 0).raise 1956 d.sec.since 0 0
      { d1 with sec := { d1.sec with since := 0 } }
    else d
  else d.setFld Reg.SEC_STS_CLR_REFUSED 1

def execAlarmClr (s : State) : Ans := lift Dev.alarmClr s

/-! ### The test logic (R649, R650) -/

/-- R649: a guarded instruction. -/
def guardedInsn (op : Nat) : Bool := decide (op ∈ [0x00, 0x03, 0x04, 0x05, 0x06])

/-- R606, R617: BOOT_SRC. -/
def Dev.bootSrc (d : Dev) : Nat := d.fld Reg.FIS_STRAP_VALUE / 2 % 4

/-- R650: guarded instructions act. -/
def Dev.scanAllowed (d : Dev) : Bool :=
  (decide (d.fld Reg.MBX_GLB_STS_STEWARD = 0) && decide (d.bootSrc = 3)) || decide (d.fld Reg.SEC_STS_DBG_STATE = 2)

/-- R650, R656: DBG_ACCESS acts. -/
def Dev.dbgAccess (d : Dev) : Bool := decide (d.fld Reg.SEC_STS_DBG_STATE = 2) && decide (d.fld Reg.SEC_STS_SCOPE / 2 % 2 = 1)

/-- R650: an instruction that acts now; any other selects the bypass register. -/
def Dev.insnActs (d : Dev) (op : Nat) : Bool := if op = 0x20 then d.dbgAccess else if guardedInsn op then d.scanAllowed else true

/-- JTAG_INSTRUCTION_LOAD, R649, R650: the register holds what was loaded. EXTEST, its AC forms and CLAMP drive the pins from the boundary register,
HIGHZ releases them. -/
def Dev.jtagLoad (d : Dev) (op : Nat) : Dev :=
  let d1 := d.setFld Reg.SEC_JTAG_IR op
  if d1.insnActs op = false then (d1.bumpSat Reg.SEC_JTAG_REFUSED 1).raise 1960 op 0 0
  else if guardedInsn op then d1.emit (.scan op (if op = 0x04 then [] else d1.sec.bsr))
  else d1

def execJtagInstructionLoad (op : Nat) (s : State) : Ans := lift (fun d => d.jtagLoad (op % 256)) s

/-- TEST_LOGIC_RESET, R649: TRST_N and Test-Logic-Reset reset the test logic only. -/
def Dev.testReset (d : Dev) : Dev :=
  { d with sec := { d.sec with bsr := [] } }.setFld Reg.SEC_JTAG_IR 0x01

def execTestLogicReset (s : State) : Ans := lift Dev.testReset s

/-- R4: the IDCODE, lowest bit first. -/
def idcodeBits : List Bool := (List.range 32).map (fun i => Nat.testBit 0x16400A6B i)

/-- What a register of the given contents shifts out while these bits are shifted in. -/
def shiftOut (reg tdi : List Bool) : List Bool := (reg ++ tdi).take tdi.length

/-- Bits that spec/ leaves open. -/
def Dev.freeBits (d : Dev) (n : Nat) : List Bool × Dev :=
  let (k, d1) := d.draw
  ((List.range n).map (fun i => (Config.freeNat k).testBit i), d1)

/-- SHIFT_DR, R649 to R651: a scan of the data register that the instruction selects. What the boundary register captures, and what DBG_ACCESS reads,
is a free value; `probe` is what a DBG_ACCESS scan writes to the probe registers: a selector, or 6 for FIS_PRB_CFG, and a value. -/
def Dev.shiftDr (d : Dev) (tdi : List Bool) (probe : Option (Nat × Nat)) : Dev :=
  let op := d.fld Reg.SEC_JTAG_IR
  let bypass (d : Dev) : Dev := d.emit (.tdo (shiftOut [false] tdi))
  if op = 0x01 then d.emit (.tdo (shiftOut idcodeBits tdi))
  else if op = 0x02 ∨ (op ∈ [0x00, 0x05, 0x06] ∧ d.insnActs op) then
    let (bs, d1) := d.freeBits tdi.length
    let d2 := { d1 with sec := { d1.sec with bsr := tdi } }.emit (.tdo bs)
    d2.cond (decide (op ≠ 0x02)) (fun d => d.emit (.scan op tdi))
  else if op = 0x20 ∧ d.insnActs op then
    let (bs, d1) := d.freeBits tdi.length
    let d2 := match probe with
      | some (i, v) =>
        if i < 6 then d1.setFld (Reg.FIS_PRB_SEL_POINT i) v
        else (d1.setFld Reg.FIS_PRB_CFG_DIV (v % 16)).setFld Reg.FIS_PRB_CFG_EN (v / 256 % 2)
      | none => d1
    d2.emit (.tdo bs)
  else bypass d

def execShiftDr (tdi : List Bool) (probe : Option (Nat × Nat)) (s : State) : Ans := lift (fun d => d.shiftDr tdi probe) s

/-! ### Temperature (R658, R676, R677) -/

/-- A temperature as an 8-bit number in two's complement. -/
def tempByte (t : Int) : Nat := (t % 256).toNat

/-- The hottest of a list, and its place. -/
def hottest (l : List Int) : Nat × Int :=
  (l.zipIdx).foldl (fun (m : Nat × Int) (x : Int × Nat) => if m.2 < x.1 then (x.2, x.1) else m) (0, l.headD 0)

/-- R676, R677: whether the throttle holds after these readings: it begins above the junction maximum or with a stack above 100 °C, and ends
when every sensor is 3 °C below the maximum. -/
def Dev.hotNext (d : Dev) (temps hbmTemps : List Int) : Bool :=
  let tj := d.sec.fuses.tjMax
  hbmTemps.any (fun t => decide (100 < t)) || temps.any (fun t => decide (tj < t)) || (d.hot && temps.any (fun t => decide (tj - 3 < t)))

/-- TEMPERATURE_WARNING, R658, R676, R677, R512: the die sensors and the stacks have been read. Each change of the throttle raises the
event, and so does, once per epoch, a sensor that stays above the maximum. -/
def Dev.temperature (d : Dev) (temps hbmTemps : List Int) : Dev :=
  let h := hottest temps
  let hot := d.hotNext temps hbmTemps
  let max0 := if d.fld Reg.SEC_TEMP_MAX < 128 then (d.fld Reg.SEC_TEMP_MAX : Int) else (d.fld Reg.SEC_TEMP_MAX : Int) - 256
  let d1 := (d.setFld Reg.SEC_TEMP_NOW (tempByte h.2)).setFld Reg.SEC_TEMP_MAX (tempByte (max max0 h.2))
  let d2 := { d1 with
    hot := hot
    sec := { d1.sec with
      temps := temps, hbmTemps := hbmTemps
      refresh2 := (hbmTemps.zipIdx.filter (fun (x : Int × Nat) => decide (85 < x.1))).map (fun (x : Int × Nat) => x.2) } }
  let d3 := d2.each hbmTemps.zipIdx (fun (x : Int × Nat) d => d.each (List.range 16) (fun c d => d.updCh (16 * x.2 + c) (fun y => { y with now := tempByte x.1 })))
  if hot ≠ d.hot then { d3 with seen := tput 0 d3.seen 0x50000 (d3.epoch + 1) }.raise 1962 h.1 (tempByte h.2) 0
  else if d.sec.fuses.tjMax < h.2 ∧ d.fld Reg.SEC_STS_ACTIVE / 4 % 2 = 0 then d3.raiseOnce 0x50000 1962 h.1 (tempByte h.2) 0
  else d3

def execTemperatureWarning (temps hbmTemps : List Int) (s : State) : Ans := lift (fun d => d.temperature temps hbmTemps) s

/-! ### The hold-up bank (R171) -/

/-- HOLDUP_OK_CHANGE, R171, R611: deasserted, HOLDUP_LOW holds; asserted, with slot 4,095 READY, the time that clears it begins. -/
def Dev.holdupChange (d : Dev) (level : Bool) : Dev :=
  if d.pinsOn = false then d
  else
    let d1 := { d with cal := { d.cal with holdupOk := level } }
    if level then (if (d1.kslot vaultSlot).state = .ready ∧ !d1.armed tmHoldup then d1.arm tmHoldup else d1)
    else (d1.setFld Reg.GLB_CAL_STS_HOLDUP_LOW 1).disarm tmHoldup

def execHoldupOkChange (level : Bool) (s : State) : Ans := lift (fun d => d.holdupChange level) s

end Sys2Proof.Machine
end

