-- ==== Sys2Proof/Machine/Boot.lean ====
section
/-! DEFINITION. Packages and their verification (R629, R630), the boot ROM's candidates (R617, R627, R647), and the restart of the steward
complex (R557). -/
namespace Sys2Proof.Machine

/-! ### The package (R629, R630) -/

/-- A part's entry in the manifest. -/
structure Part where
  typ : Nat
  flags : Nat
  rsv0 : Nat
  ver : Nat
  off : Nat
  len : Nat
  digest : List Byte
  rsv1 : Nat

/-- R629: part p of a package. -/
def pkgPart (m : List Byte) (p : Nat) : Part :=
  let o := 144 + 80 * p
  ⟨leField m o 1, leField m (o + 1) 1, leField m (o + 2) 2, leField m (o + 4) 4, leField m (o + 8) 8, leField m (o + 16) 8,
    (m.drop (o + 24)).take 48, leField m (o + 72) 8⟩

def pkgParts (m : List Byte) : List Part := (List.range (leField m 5 1)).map (pkgPart m)
def pkgRel (m : List Byte) : Nat := leField m 16 4
def pkgRollback (m : List Byte) : Nat := leField m 12 4
def pkgSchema (m : List Byte) : Nat := leField m 20 4
def pkgKey (m : List Byte) : Nat := leField m 24 1
def pkgRecovery (m : List Byte) : Bool := decide (leField m 6 2 % 2 = 1)

/-- R630: the package digest. -/
def pkgDigest (m : List Byte) : List Byte := sha384 (m.take 880)

/-- R625: the room for a package in a slot. -/
def slotRoom : Nat := 112 * 2 ^ 20 - 4096

/-- R637: a package with hand-off parts. -/
def pkgHandoff (m : List Byte) : Bool := (pkgParts m).any (fun p => decide (3 ≤ p.typ) && decide (p.typ ≤ 6))

/-- R630, check 1: the form of the manifest and of its parts. -/
def pkgForm (m : List Byte) : Bool :=
  let n := leField m 5 1
  let ps := pkgParts m
  let ts := ps.map (fun p => p.typ)
  decide (880 ≤ m.length ∧ m.length ≤ slotRoom ∧ leField m 0 4 = 0x7A11F6A1 ∧ leField m 4 1 = 1 ∧ 1 ≤ n ∧ n ≤ 8 ∧ leField m 6 2 < 2 ∧
    leField m 11 1 ≤ 2 ∧ leField m 24 1 < 4 ∧ leField m 25 7 = 0) &&
  ps.all (fun p => decide (1 ≤ p.typ ∧ p.typ ≤ 7 ∧ p.flags = (if p.typ ≤ 2 then 1 else 0) ∧ p.rsv0 = 0 ∧ p.rsv1 = 0 ∧ p.off % 4096 = 0 ∧
    880 ≤ p.off ∧ p.off + p.len ≤ m.length) && (decide (p.typ ≠ 7) || decide (p.ver = pkgSchema m))) &&
  ((m.take 784).drop (144 + 80 * n)).all (fun b => decide (b = 0)) &&
  decide (ts.Nodup) && decide (1 ∈ ts) && decide (2 ∈ ts) && decide (7 ∈ ts)

/-- R630, R647: the first check that a package fails, counted from 1, or 0. In the boot ROM a revoked key fails check 2. -/
def Dev.pkgCheck (d : Dev) (m : List Byte) (boot : Bool) : Nat :=
  let pub := (m.drop 48).take 96
  let fu := d.sec.fuses
  if !pkgForm m then 1
  else if fu.keys[pkgKey m]? ≠ some (sha384 pub) ∨ ecdsaOk pub (m.take 784) ((m.drop 784).take 48) ((m.drop 832).take 48) = false ∨
      (boot ∧ fu.revoked / 2 ^ pkgKey m % 2 = 1) then 2
  else if leField m 8 2 ≠ 0x6400 ∨ leField m 10 1 ≠ 0xB0 ∨ (0 < leField m 11 1 ∧
      fu.serial ∉ ((List.range (leField m 11 1)).map (fun i => leField m (32 + 8 * i) 8))) then 3
  else if pkgRollback m < fu.rollback then 4
  else if (pkgParts m).any (fun p => decide (sha384 ((m.drop p.off).take p.len) ≠ p.digest)) then 5
  else 0

/-- R630: the DETAIL of a failed check. -/
def checkDetail (n : Nat) : Nat := if n = 3 then 2 else if n = 4 then 4 else if n = 5 then 3 else 1

/-! ### Slots and settings copies (R626 to R628) -/

def Dev.img (d : Dev) (n : Nat) : ImgSlot := tget {} d.upd.slots n
def Dev.updImg (d : Dev) (n : Nat) (f : ImgSlot → ImgSlot) : Dev := { d with upd := { d.upd with slots := tupd {} d.upd.slots n f } }
def Dev.flashCopy (d : Dev) (n : Nat) : SetCopy := tget {} d.upd.copies n
def Dev.updCopy (d : Dev) (n : Nat) (f : SetCopy → SetCopy) : Dev := { d with upd := { d.upd with copies := tupd {} d.upd.copies n f } }

/-- R628: the CURRENT settings copy. -/
def Dev.currentCopy (d : Dev) : Option Nat := (List.range 2).find? (fun n => decide ((d.flashCopy n).state = .committed))

/-- R640: the copy that the steward keeps its settings in: the NEXT one while an activation waits for its commit, else the CURRENT one. -/
def Dev.settingsCopy (d : Dev) : Option Nat :=
  match (List.range 2).find? (fun n => decide ((d.flashCopy n).state = .pending)) with
  | some n => some n
  | none => d.currentCopy

/-- R631: the staging slot: the one that does not hold the running image. -/
def Dev.stagedSlot (d : Dev) : Nat := 1 - d.fld Reg.UPD_STS_RUN_SLOT

/-! ### The boot ROM's candidates (R617, R627, R647) -/

/-- R606, R617: the order of BOOT_SRC: slots 0 and 1, and 2 for the card. -/
def Dev.bootOrder (d : Dev) : List Nat :=
  match d.bootSrc with
  | 0 => [0, 1]
  | 1 => [1, 0]
  | 2 => if d.strap 10 then [2, 0, 1] else [0, 1]
  | _ => []

/-- The package of a candidate. -/
def Dev.bootCand (d : Dev) (card : Option (List Byte)) (n : Nat) : List Byte := if n = 2 then card.getD [] else (d.img n).pkg

/-- R617, R627: the candidates: the slot named by the one-time selection, then the card and the COMMITTED images, then the RETIRED ones. -/
def Dev.bootCands (d : Dev) (card : Option (List Byte)) : List Nat :=
  let sel := if d.flag Reg.UPD_BOOT_SEL_VALID then [d.fld Reg.UPD_BOOT_SEL_SLOT] else []
  let first := d.bootOrder.filter (fun n => if n = 2 then (match card with
    | some m => pkgRecovery m
    | none => false) else decide ((d.img n).state = .committed))
  sel ++ first ++ d.bootOrder.filter (fun n => decide (n ≠ 2) && decide ((d.img n).state = .retired))

/-- R647: try candidates in order; each that fails is skipped, with the image-rejected event. Answers the first that verifies. -/
def Dev.tryBoot (d : Dev) (card : Option (List Byte)) : List Nat → Option Nat × Dev
  | [] => (none, d)
  | n :: t =>
    let c := d.pkgCheck (d.bootCand card n) true
    if c = 0 then (some n, d) else (d.raise 1961 n c 0).tryBoot card t

/-- R627, R643: an image has been started. -/
def Dev.runImage (d : Dev) (card : Option (List Byte)) (n : Nat) : Dev :=
  let m := d.bootCand card n
  let retired := decide (n ≠ 2) && decide ((d.img n).state = .retired)
  let d1 := ((((d.setFld Reg.MBX_FW_REL_MINOR (pkgRel m % 2 ^ 16)).setFld Reg.MBX_FW_REL_MAJOR (pkgRel m / 2 ^ 16)).setFld Reg.UPD_REL_RUN_REL
    (pkgRel m)).setFld Reg.SEC_FUSE_BOOT_KEY (pkgKey m)).setFlag Reg.UPD_STS_FALLBACK retired
  let d2 := (d1.cond (decide (n ≠ 2)) (fun d => d.setFld Reg.UPD_STS_RUN_SLOT n)).cond (retired || decide (n = 2)) (fun d => d.raise 31 n 0 0)
  let d3 := { d2 with upd := { d2.upd with onCard := decide (n = 2) } }
  (d3.setFld Reg.UPD_SCHEMA_SCHEMA ((d3.currentCopy.map (fun i => (d3.flashCopy i).schema)).getD 0)).setFld Reg.MBX_KICK_BEAT d.beat

/-! ### The steward complex (R557, R558) -/

/-- MBX_GLB_STS.STEWARD. -/
def stBoot : Nat := 0
def stRunning : Nat := 1
def stRestarting : Nat := 2
def stHalted : Nat := 3

def Dev.steward (d : Dev) : Nat := d.fld Reg.MBX_GLB_STS_STEWARD

/-- R557: the steward halts; `cause` 0 no image, 1 restart limit. -/
def Dev.stewardHalt (d : Dev) (cause : Nat) : Dev := (d.setFld Reg.MBX_GLB_STS_STEWARD stHalted).raise 1866 cause 0 0

/-- R557: the steward restarts; `cause` 0 watchdog, 1 command, 2 activation, 3 fault. -/
def Dev.stewardRestart (d : Dev) (cause : Nat) : Dev :=
  if d.steward ≠ stRunning then d
  else
    let d1 := (d.setFld Reg.MBX_GLB_STS_STEWARD stRestarting).bumpSat Reg.MBX_GLB_STS_RESTARTS 1
    { d1 with
      mbx := { d1.mbx with restart := some (cause, d.beat), restarts := (d1.mbx.restarts ++ [d.epoch]).filter (fun e => decide (d.epoch < e + 16)) }
      upd := { d1.upd with restarted := true } }

/-- R617, R627, R647: the ROM verifies and starts an image. A steward started from the lower of two COMMITTED images retires its own slot and restarts. -/
def Dev.bootSteward (d : Dev) (card : Option (List Byte)) : Bool × Dev :=
  let (r, d1) := d.tryBoot card (d.bootCands card)
  let d2 := d1.setFld Reg.UPD_BOOT_SEL_VALID 0
  match r with
  | none => (false, d2.stewardHalt 0)
  | some n =>
    let d3 := (d2.runImage card n).setFld Reg.MBX_GLB_STS_STEWARD stRunning
    if n ≠ 2 ∧ (d3.img n).state = .committed ∧ (d3.img (1 - n)).state = .committed ∧ (d3.img n).seq < (d3.img (1 - n)).seq then
      (true, (d3.updImg n (fun x => { x with state := .retired })).atEdge (.stewardRestart 1))
    else (true, d3)

/-- BOOT_IMAGE_VERIFY, R617, R618, R647: once the Fumarole's sequence is loaded, from BOOT; BOOT_SRC 3 waits in BOOT. -/
def Dev.bootImage (d : Dev) (card : Option (List Byte)) : Dev :=
  if d.steward ≠ stBoot ∨ d.flag Reg.FUM_STS_SEQ_LOADED = false ∨ d.bootSrc = 3 then d
  else
    let (ok, d1) := d.bootSteward card
    if ok then { d1 with fis := { d1.fis with step := 1 } } else d1

def execBootImageVerify (card : Option (List Byte)) (s : State) : Ans := lift (fun d => d.bootImage card) s

/-- WATCHDOG_EXPIRE, R558: TIMEOUT beats, and no fewer than 2^20, without a kick. -/
def Dev.watchdog (d : Dev) : Dev :=
  if max (d.fld Reg.MBX_WDOG_TIMEOUT) (2 ^ 20) ≤ d.since (d.fld Reg.MBX_KICK_BEAT) then d.stewardRestart 0 else d

def execWatchdogExpire (s : State) : Ans := lift Dev.watchdog s

/-- FIRMWARE_FAULT, R557. -/
def execFirmwareFault (s : State) : Ans := lift (fun d => d.atEdge (.stewardRestart 3)) s

end Sys2Proof.Machine
end

