-- ==== Sys2Proof/Machine/Engines.lean ====
section
/-! DEFINITION. The engines of a slice at a beat edge: the scheduler's quanta, and what a write-path job does when it has had them (R32 to R34, R163,
R372, R681). -/
namespace Sys2Proof.Machine

/-- R681: the home slice of the command for which a job works; one that no command asked for has none. -/
def Dev.jobHome (d : Dev) (j : Job) : Nat := match j.who with
  | .read r => (d.rdOf r).tag / Config.tagsPerSlice
  | .group g => ((d.group g).map (·.tag)).getD 0 / Config.tagsPerSlice
  | _ => 8

/-- R681: a slice that stops begins, of the write-path engine's and the erasure unit's jobs, those for its own commands and the parity of its closed
segments. -/
def Dev.mayBegin (d : Dev) (s : Nat) (j : Job) : Bool := match j.eng with
  | .wpe => d.serves s (d.jobHome j)
  | .ecu => (match j.who with
    | .parity _ => true
    | _ => d.serves s (d.jobHome j))
  | _ => true

/-- R163, R681: a job may take a quantum in this beat. The write-path engine has none left once it has placed a group. -/
def Dev.mayRun (d : Dev) (s : Nat) (j : Job) : Bool :=
  !d.faulty s j.eng && (j.begun || (d.mayBegin s j && (decide (j.eng ≠ .wpe) || decide ((d.slice s).wpeAt ≠ d.edges + 1))))

/-- R163, R372: a Caldera hit has had its quanta: its bytes go on. -/
def Dev.hitDone (d : Dev) (r : Nat) : Dev :=
  match (d.rdOf r).step, (d.rdOf r).dirRef with
  | .calWait, some k => d.rdSend r (d.entryBytes (d.dirKeyed k))
  | _, _ => d

/-- R163, R167: a merge has had its quanta: its group may be placed. -/
def Dev.mergeDone (d : Dev) (g : Nat) : Dev :=
  match d.group g with
  | some x => d.queueGroups x.tag
  | none => d

/-- R293, R294, R300: the erasure unit has had a segment's quanta. -/
def Dev.ecuDone (d : Dev) (j : Job) : Dev := match j.who with
  | .read r => d.updRd r (fun x => { x with solve := .solved })
  | .parity seg => d.updLay seg (fun x => { x with ecu := .parityDone })
  | .check seg => d.updLay seg (fun x => { x with ecu := .checkDone })
  | .verify seg => { d with lay := { d.lay with checks := d.lay.checks.map (fun c => if c.1 = seg then (seg, true) else c) } }
  | .rebuild seg => d.rebuildSolved seg
  | _ => d

/-- What the end of a job brings by itself; the other engines' jobs end with commands of their own. -/
def Dev.jobDone (d : Dev) (j : Job) : Dev := match j.eng, j.who with
  | .wpe, .read r => d.hitDone r
  | .wpe, .group g => d.mergeDone g
  | .ecu, _ => d.ecuDone j
  | _, _ => d

/-- What the engines of a slice take at a beat edge: fingerprint units and compressors (R192, R209), decompressors, the cipher's records to be opened
(R260), the open segment the grains and relocated records that wait for a place (R293, R336), and the erasure unit its jobs (R300). -/
def Dev.takeWork (d : Dev) (s : Nat) : Dev :=
  let d1 := (d.takeReduction s).each (List.range 4) (fun u d => d.takeSnd s u)
  let d2 := d1.each (List.range 2) (fun e d => d.latchOpen s e)
  let d3 := d2.cond (decide (d2.fld (Reg.SLI_ECU_OPEN_SEG_SEGMENT s) ≠ 0)) (fun d => (d.packGrains s 16384).packReloc s 16384)
  d3.takeEcu s

/-- ENGINE_SCHEDULE, R32 to R34, R163, R191, R208: one beat of a slice's engines, which first take the work that waits for them. A slice that is OFF or STARTING runs nothing. -/
def Dev.engineSchedule (d : Dev) (s : Nat) : Dev :=
  if d.isOn (.slice s) ∨ d.ustate (.slice s) = .stopping ∨ d.ustate (.slice s) = .pendOn then
    let d0 := d.takeWork s
    let jobs := (d0.slice s).jobs
    let ran (e : Engine) : Bool := !d0.faulty s e && jobs.any (fun j => decide (j.eng = e))
    let n (b : Bool) : Nat := if b then 1 else 0
    let d1 := ((d0.count (1 + s) 0x007 (n (ran (.gcm 0)))).count (1 + s) 0x008 (n (ran (.gcm 1)))).count (1 + s) 0x009 (n (ran .ecu))
    let after := schedule (d0.mayRun s) jobs
    let wpe := jobs.any (fun j => decide (j.eng = .wpe) && d0.mayRun s j)
    let d2 := (d1.updSlice s (fun x => { x with
      jobs := after.filter (fun j => decide (0 < j.left)), wpeAt := if wpe then d0.edges + 1 else x.wpeAt })).engineBusy s
    d2.each (after.filter (fun j => decide (j.left = 0))) (fun j d => d.jobDone j)
  else d

def execEngineSchedule (sl : Nat) (s : State) : Ans := lift (fun d => d.engineSchedule sl) s

end Sys2Proof.Machine
end

