-- ==== Sys2Proof/Machine/Rep.lean ====
section
/-! DEFINITION. Replication: messages, the map diff on the source, and the target's checks, grains and commits (R416 to R436). -/
namespace Sys2Proof.Machine

/-! ### Messages (R422 to R424) -/

/-- R424: codes of RESULT and REASON. -/
def rcOk : Nat := 0
def rcBase : Nat := 1
def rcNoResource : Nat := 2
def rcNotOwner : Nat := 3
def rcVolume : Nat := 4
def rcVersion : Nat := 5
def rcBadMessage : Nat := 0x10
def rcFp : Nat := 0x11
def rcTimeout : Nat := 0x12
def rcCancelled : Nat := 0x13

/-- R422: a whole message. -/
def repMsg (typ session seq batch : Nat) (body : List Byte) : List Byte :=
  let head (crc : Nat) : List Byte := leBytes 2 0xA7E5 ++ leBytes 1 1 ++ leBytes 1 typ ++ leBytes 4 (32 + body.length) ++ leBytes 8 session ++
    leBytes 8 seq ++ leBytes 4 batch ++ leBytes 4 crc
  head (crc32c (head 0 ++ body)).toNat ++ body

/-- R423: the length of a message of a type. -/
def repLength (typ : Nat) (m : List Byte) : Bool :=
  let n := m.length
  let c (off lo hi : Nat) (f : Nat → Nat) : Bool := decide (lo ≤ leField m off 2) && decide (leField m off 2 ≤ hi) && decide (n = f (leField m off 2))
  match typ with
  | 1 => decide (n = 72)
  | 2 => decide (n = 80)
  | 3 => c 36 1 1024 (fun k => 40 + 24 * k)
  | 4 => decide (n = 48 + (leField m 40 2 + 31) / 32 * 4)
  | 5 => c 32 1 256 (fun k => 40 + 16 * k)
  | 6 => c 32 1 1024 (fun k => 40 + (2 * k + 3) / 4 * 4)
  | 7 => decide (n = 48)
  | 8 => decide (n = 48)
  | 9 => decide (n = 40)
  | _ => false

/-- R422, R423: MAGIC, TYPE, LENGTH and CRC of a message. -/
def repWf (typ : Nat) (m : List Byte) : Bool :=
  decide (leField m 0 2 = 0xA7E5) && decide (leField m 3 1 = typ) && decide (leField m 4 4 = m.length) && repLength typ m &&
    decide (leField m 28 4 = (crc32c (m.take 28 ++ leBytes 4 0 ++ m.drop 32)).toNat)

/-- R419, R422: send a message of a session as one SEND. -/
def Dev.repSend (d : Dev) (i typ : Nat) (body : List Byte) : Dev :=
  let s := d.sess i
  let seq := if typ = 1 ∨ typ = 2 then 0 else s.txSeq + 1
  let batch := if typ = 1 ∨ typ = 2 ∨ typ = 9 then 0 else s.batch
  (d.updSess i (fun s => { s with txSeq := seq })).post s.qp ⟨.send, repMsg typ s.session seq batch body, .replication i, none⟩

/-- R420: the steward revokes the window of a session that ends. -/
def Dev.repRevoke (d : Dev) (i : Nat) : Dev :=
  match (d.sess i).mr with
  | some r => (d.mrRevoke r).updSess i (fun s => { s with mr := none })
  | none => d

/-- R423, R431: a session ends in FAILED; ABORT is sent unless one was received. -/
def Dev.repFail (d : Dev) (i reason detail : Nat) (send : Bool) : Dev :=
  let d1 := d.cond send (fun d => d.repSend i 9 (leBytes 2 reason ++ leBytes 2 0 ++ leBytes 4 detail))
  let d2 := (d1.updSess i (fun s => { s.drop with state := .failed, reason := reason })).raise 982 i reason detail
  (d2.repRevoke i).disarm (tmRep i)

/-- R423: a message after the handshake belongs to the session on its context and comes in order; any other ends that session. `f` acts on
the session. -/
def Dev.repTake (d : Dev) (q typ : Nat) (m : List Byte) (target : Bool) (f : Nat → Dev → Dev) : Dev :=
  match d.sessOf q with
  | none => d
  | some i =>
    let s := d.sess i
    if s.state = .suspended then d
    else if repWf typ m ∧ leField m 2 1 ≠ 1 then d.repFail i rcVersion 0 true
    else if repWf typ m ∧ leField m 8 8 = s.session ∧ leField m 16 8 = s.rxSeq + 1 ∧ s.target = target ∧ s.state ≠ .opening then
      f i ((d.updSess i (fun s => { s with rxSeq := s.rxSeq + 1 })).arm (tmRep i))
    else d.repFail i rcBadMessage 0 true

/-- R431: the session state is journaled in STEWARD records, and mirrored. At DONE, NEW_GEN is journaled as the base of the next cycle. -/
def Dev.repJournal (d : Dev) (i : Nat) : Dev :=
  let s := d.sess i
  let done := decide (s.state = .done)
  let mk (d : Dev) (what b c : Nat) : JRec × Dev := d.journalRec 0 0 0 (.steward what s.session b c)
  let (r1, d1) := mk d (repWhatA + 256 * i + (if done then 2 ^ 16 else 0)) s.newGen (s.cursor + 2 ^ 40 * s.batch)
  let (r2, d2) := mk d1 (repWhatB + 256 * i)
    (s.srcVol + 2 ^ 16 * s.dstVol + 2 ^ 32 * s.qp + (if s.target then 2 ^ 46 else 0) + 2 ^ 47 * s.want + 2 ^ 59 * s.port)
    (if done then s.newGen else s.baseGen)
  let (r3, d3) := mk d2 (repWhatC + 256 * i) (leNat (s.addr0.take 8)) (leNat (s.addr0.drop 8))
  let (r4, d4) := mk d3 (repWhatD + 256 * i) (leNat (s.addr1.take 8)) (leNat (s.addr1.drop 8))
  (d4.mirrorRecs (mirrorQpOf s.qp (home s.qp)) [r1, r2, r3, r4]).2

/-! ### The source (R426, R427, R431) -/

/-- R431, R432: OPEN, once the session's queue pair is ON. -/
def Dev.repOpen (d : Dev) (i : Nat) : Dev :=
  let s := d.sess i
  if s.state = .opening ∧ s.opened = false ∧ s.target = false ∧ d.isOn (.qp s.qp) then
    ((d.updSess i (fun s => { s with opened := true, rxSeq := 0 })).repSend i 1 (leBytes 4 (d.fld Reg.DRV_ARRAY_TAG_TAG) ++ leBytes 2 s.srcVol ++
      leBytes 2 s.dstVol ++ leBytes 8 s.baseGen ++ leBytes 8 s.newGen ++ leBytes 8 s.cursor ++ leBytes 4 s.batch ++ leBytes 4 3)).arm (tmRep i)
  else d

/-- A session begins or resumes its cycle (R431). -/
def Dev.repStart (d : Dev) (i : Nat) : Dev :=
  ((d.updSess i (fun s => { s.drop with state := .opening, reason := 0, other := false, batch := max 1 s.batch })).arm (tmRep i)).repOpen i

/-- R416: the tree of a volume's snapshot of a generation; generation 0 is the empty tree. -/
def Dev.genTree (d : Dev) (vol gen : Nat) : Option Nat :=
  if gen = 0 then none else (d.rep.gens.find? (fun e => decide (e.2 = gen) && decide ((d.tree e.1).source = vol))).map (·.1)

/-- The pages of a tree, from a page down. -/
def Dev.pagesBelow (d : Dev) (p : Nat) : Nat → List Nat
  | 0 => []
  | fuel + 1 => p :: (d.page p).kids.flatMap (fun k => d.pagesBelow k.2 fuel)

def Dev.treePages (d : Dev) (t : Option Nat) : List Nat :=
  match t with
  | none => []
  | some t => if (d.tree t).root = 0 then [] else d.pagesBelow (d.tree t).root (maxDepth + 1)

/-- R426: the pages below a page that the diff reads: none of a subtree whose page the other tree has too. -/
def Dev.diffPages (d : Dev) (skip : List Nat) (p : Nat) : Nat → List Nat
  | 0 => []
  | fuel + 1 => if skip.contains p then [] else p :: (d.page p).kids.flatMap (fun k => d.diffPages skip k.2 fuel)

/-- The pages of tree `t` that a diff against tree `o` reads. -/
def Dev.diffTree (d : Dev) (t o : Option Nat) : List Nat :=
  match t with
  | none => []
  | some x => if (d.tree x).root = 0 then [] else d.diffPages (d.treePages o) (d.tree x).root (maxDepth + 1)

/-- The leaf entries of the pages read, in ascending KEY. -/
def Dev.leafEnts (d : Dev) (ps : List Nat) : List LeafEnt := ps.flatMap (fun p => (d.page p).ents)

/-- R310: the 32 KiB region of a KEY, and the KEY of a whole region. -/
def keyRegion (key : Nat) : Nat := key / 32
def regionKey (r : Nat) : Nat := 32 * r

/-- R426: the regions, from a KEY on, in which two lists of entries differ. -/
def diffRegions (a b : List LeafEnt) (from_ : Nat) : List Nat :=
  let all := ((a ++ b).map (fun e => keyRegion e.key)).eraseDups
  let differ (r : Nat) : Bool := decide (a.filter (fun e => decide (keyRegion e.key = r)) ≠ b.filter (fun e => decide (keyRegion e.key = r)))
  (all.filter (fun r => decide (from_ ≤ regionKey r) && differ r)).mergeSort

/-- R425: the size of a KEY's grain in bytes. -/
def keyBytes (key : Nat) : Nat := 4096 * keyParts key

/-- R426: what a region yields: its ZERO entry, then the new tree's entries. An entry of zeros that stands over a larger one has no record:
it goes as a grain of zeros. -/
def Dev.regionEnts (d : Dev) (new : List LeafEnt) (r : Nat) : List RepEnt :=
  RepEnt.mk (regionKey r) true (List.replicate 16 0) 0 ::
    (new.filter (fun e => decide (keyRegion e.key = r))).map (fun e =>
      RepEnt.mk e.key false (if e.grid = 0 then fingerprint (List.replicate (keyBytes e.key) 0) else (d.grec e.grid).fp) e.grid)

/-- R427: a batch takes whole regions while they fit. Answers its entries and the regions left. -/
def takeRegions (max : Nat) (ents : Nat → List RepEnt) : List Nat → List RepEnt → List RepEnt × List Nat
  | [], acc => (acc, [])
  | r :: t, acc => if acc ≠ [] ∧ max < acc.length + (ents r).length then (acc, r :: t) else takeRegions max ents t (acc ++ ents r)

/-- R425: the 24 bytes of an extent entry. -/
def RepEnt.bytes (e : RepEnt) : List Byte := leBytes 5 e.key ++ leBytes 1 (if e.zero then 1 else 0) ++ leBytes 2 0 ++ padTo 16 e.fp

/-- R423: EXTENTS of at most 1,024 entries each. -/
def Dev.repExtents (d : Dev) (i : Nat) : Nat → Nat → List RepEnt → Dev
  | 0, _, _ => d
  | fuel + 1, first, l =>
    if l.isEmpty then d
    else
      let part := l.take 1024
      let d1 := d.repSend i 3 (leBytes 4 first ++ leBytes 2 part.length ++ leBytes 2 0 ++ part.flatMap RepEnt.bytes)
      let d2 := d1.updSess i (fun s => { s with exts := s.exts ++ [(s.txSeq, first, part.length)] })
      (d2.bump Reg.MDE_REP_ENTRIES_TX_COUNT part.length).repExtents i fuel (first + part.length) (l.drop 1024)

/-- R427, R431: once every EXTENTS is answered and every grain asked for is sent, COMMIT goes out. -/
def Dev.repCommitDue (d : Dev) (i : Nat) : Dev :=
  let s := d.sess i
  if s.state = .streaming ∧ s.target = false ∧ s.batched ∧ s.exts = [] ∧ s.sendQ = [] then
    (d.updSess i (fun s => { s with state := .committing })).repSend i 7 (leBytes 4 s.ents.length ++ leBytes 4 (if s.final then 1 else 0) ++ leBytes 8 s.nextKey)
  else d

/-- What the diff of a session gives next: the entries of the batch, whether it is the last, the pairs of leaf pages compared for it, and whether every
page that it reads is resident (R334). -/
structure DiffPlan where
  ents : List RepEnt
  final : Bool
  pairs : Nat
  ready : Bool
deriving DecidableEq, Repr

/-- R427: the KEY of the first region after a batch. -/
def nextKeyOf (ents : List RepEnt) (cursor : Nat) : Nat :=
  match ents.getLast? with
  | some e => regionKey (keyRegion e.key + 1)
  | none => cursor

/-- R426, R427: the next batch of differing regions from the cursor on. -/
def Dev.diffPlan (d : Dev) (s : RepSess) : DiffPlan :=
  let old := d.genTree s.srcVol s.baseGen
  let new := d.genTree s.srcVol s.newGen
  let po := d.diffTree old new
  let pn := d.diffTree new old
  let max := min 65536 (max 1024 (d.fld Reg.MDE_REP_CFG_BATCH_MAX))
  let fresh := d.leafEnts pn
  let (ents, left) := takeRegions max (d.regionEnts fresh) (diffRegions (d.leafEnts po) fresh s.cursor) []
  let lows := (((po ++ pn).filter (fun p => decide ((d.page p).level = 0))).map (fun p => (d.page p).low)).eraseDups
  { ents := ents, final := left.isEmpty
    pairs := (lows.filter (fun k => left.isEmpty || decide (k < nextKeyOf ents s.cursor))).length
    ready := (po ++ pn).all (fun p => (d.page p).resident) && ents.all (fun e => e.zero || !d.mde.away.contains (grainPage e.grid)) }

/-- R426: the metadata engine compares at most one pair of leaf pages in a beat, for the first session that has some left. -/
def Dev.diffBeat (d : Dev) : Dev :=
  match d.rep.sess.find? (fun e => match e.2.diff with
    | some n => decide (n ≠ 0)
    | none => false) with
  | some e => d.updSess e.1 (fun s => { s with diff := s.diff.map (fun n => n - 1) })
  | none => d

/-- A session's diff goes on: it begins, or it has compared its pages, all of them resident. -/
def Dev.diffDue (d : Dev) (s : RepSess) : Bool :=
  decide (s.state = .streaming) && !s.target && !s.batched && (match s.diff with
    | none => true
    | some n => decide (n = 0) && (d.diffPlan s).ready)

/-- REP_DIFF_BATCH, R426, R427: the diff for the next batch begins, and once its pages are compared the batch goes out. -/
def Dev.repDiffBatch (d : Dev) (i : Nat) : Dev :=
  let s := d.sess i
  let p := d.diffPlan s
  if d.diffDue s = false then d
  else if s.diff = none then d.updSess i (fun s => { s with diff := some p.pairs })
  else
    let d1 := d.updSess i (fun s => { s with ents := p.ents, batched := true, final := p.final, nextKey := nextKeyOf p.ents s.cursor, diff := none })
    (d1.repExtents i (p.ents.length / 1024 + 1) 0 p.ents).repCommitDue i

def execRepDiffBatch (i : Nat) (s : State) : Ans := lift (fun d => d.repDiffBatch i) s

/-- R419 to R421: grains that wait go into window slots that the source holds, by RDMA WRITE, and a GRAINS message names them. -/
def Dev.repPump (d : Dev) (i : Nat) : Dev :=
  let s := d.sess i
  let l := (s.sendQ.zip s.slots).take 256
  if l.isEmpty ∨ s.target then d
  else
    let d1 := d.each l (fun x d => d.each (d.splitItem s.qp ⟨.write (s.base + 32768 * x.2) s.key, x.1.2.2, .replication i, none⟩) (fun w d => d.post s.qp w))
    let desc := l.flatMap (fun x => leBytes 4 x.1.1 ++ leBytes 2 x.2 ++ leBytes 1 (if x.1.2.1 then 1 else 0) ++ leBytes 1 0 ++
      leBytes 4 x.1.2.2.length ++ leBytes 4 0)
    let d2 := d1.updSess i (fun s => { s with sendQ := s.sendQ.drop l.length, slots := s.slots.drop l.length })
    let n := l.foldl (fun n x => n + x.1.2.2.length) 0
    ((d2.bump Reg.MDE_REP_GRAINS_TX_COUNT l.length).bump Reg.MDE_REP_BYTES_TX_BYTES n).repSend i 5 (leBytes 2 l.length ++ leBytes 6 0 ++ desc)

/-- NEED, R423, R429: the grains asked for wait for slots. EXT_SEQ 0 asks again, by batch index. -/
def Dev.repNeed (d : Dev) (q : Nat) (m : List Byte) (found : List (Bool × List Byte)) : Dev :=
  d.repTake q 4 m false (fun i d =>
    let s := d.sess i
    let seq := leField m 32 8
    let map_ := leNat (m.drop 48)
    let first := if seq = 0 then some 0 else (s.exts.find? (fun e => decide (e.1 = seq))).map (fun e => e.2.1)
    match first with
    | none => d.repFail i rcBadMessage 0 true
    | some f =>
      let idx := ((List.range (leField m 40 2)).filter (fun e => decide (map_ / 2 ^ e % 2 = 1))).map (fun e => f + e)
      let new := (idx.zip found).map (fun (x : Nat × (Bool × List Byte)) =>
        let form := x.2.1 && s.frames
        let size := keyBytes ((s.ents[x.1]?).map (·.key)|>.getD 0)
        let bs := if x.2.1 && !s.frames then (match sinterDecode x.2.2 size with
          | .ok b => b
          | _ => x.2.2) else x.2.2
        (x.1, form, bs))
      let d1 := d.updSess i (fun s => { s with exts := s.exts.filter (fun e => decide (e.1 ≠ seq)), sendQ := s.sendQ ++ new })
      (d1.repPump i).repCommitDue i)

/-- A message received is taken, and its slot is free (R81): EXTENTS and NEED wait with the transport until their drive data is there. -/
def Dev.undeliver (d : Dev) (q : Nat) (m : List Byte) : Dev :=
  { d with xpt := { d.xpt with delivered := d.xpt.delivered.erase (q, m) } }.cond (d.xpt.delivered.contains (q, m)) (fun d => d.freeSlot q)

def execNeed (q : Nat) (m : List Byte) (found : List (Bool × List Byte)) (s : State) : Ans := lift (fun d => (d.undeliver q m).repNeed q m found) s

/-- WINDOW_ACK, R420: the named slots return to the source. -/
def Dev.repWindowAck (d : Dev) (q : Nat) (m : List Byte) : Dev :=
  d.repTake q 6 m false (fun i d =>
    let l := (List.range (leField m 32 2)).map (fun k => leField m (40 + 2 * k) 2)
    ((d.updSess i (fun s => { s with slots := s.slots ++ l })).repPump i).repCommitDue i)

def execWindowAck (q : Nat) (m : List Byte) (s : State) : Ans := lift (fun d => d.repWindowAck q m) s

/-- OPEN_ACK, R424, R431, R433: with OK the session streams from the agreed cursor. NOT_OWNER is tried once at the other head. -/
def Dev.repOpenAck (d : Dev) (q : Nat) (m : List Byte) : Dev :=
  match d.sessOf q with
  | none => d
  | some i =>
    let s := d.sess i
    if s.state = .suspended then d
    else if repWf 2 m ∧ leField m 2 1 ≠ 1 then d.repFail i rcVersion 0 true
    else if !(repWf 2 m && decide (leField m 8 8 = s.session) && decide (leField m 16 8 = 0) && decide (s.state = .opening) && !s.target) then
      d.repFail i rcBadMessage 0 true
    else
      let r := leField m 36 2
      if r = rcOk then
        let d1 := (d.updSess i (fun s => { s with
          state := .streaming, reason := 0, cursor := leField m 48 8 % 2 ^ 40, batch := leField m 56 4, key := BitVec.ofNat 32 (leField m 60 4)
          base := leField m 64 8, slots := List.range (leField m 72 4), dedup := decide (leField m 76 4 % 2 = 1)
          frames := decide (leField m 76 4 / 2 % 2 = 1) })).arm (tmRep i)
        d1.repJournal i
      else if r = rcNotOwner ∧ s.other = false then
        (d.updSess i (fun s => { s with other := true, opened := false, reason := r })).closeQp q
      else d.repFail i r 0 false

def execOpenAck (q : Nat) (m : List Byte) (s : State) : Ans := lift (fun d => d.repOpenAck q m) s

/-- COMMIT_ACK, R431. -/
def Dev.repCommitAck (d : Dev) (q : Nat) (m : List Byte) : Dev :=
  d.repTake q 8 m false (fun i d =>
    let s := d.sess i
    if s.state ≠ .committing then d.repFail i rcBadMessage 0 true
    else if leField m 32 2 ≠ rcOk then d.repFail i (leField m 32 2) 0 true
    else
      let cur := leField m 40 8 % 2 ^ 40
      if s.final then
        (((d.updSess i (fun s => { s.drop with state := .done, cursor := 0 })).repJournal i).raise 980 i s.newGen 0).disarm (tmRep i)
      else (d.updSess i (fun s => { s.drop with state := .streaming, opened := true, cursor := cur, batch := s.batch + 1 })).repJournal i)

def execCommitAck (q : Nat) (m : List Byte) (s : State) : Ans := lift (fun d => d.repCommitAck q m) s

/-! ### The target (R420, R428 to R430) -/

/-- R504, R505: where the windows lie in HBM3E, after the Caldera, the read buffers, the manifest cache and hot metadata, and the slots
they may take together. -/
def repWindows : Nat := 92 * 2 ^ 30
def repWindowSlots : Nat := 114688

/-- R505: slots of the windows open now, and where a further window goes. -/
def Dev.repSlotsUsed (d : Dev) : Nat := (d.rep.sess.filter (fun e => e.2.target && e.2.mr.isSome)).foldl (fun n e => n + e.2.want) 0
def Dev.repWindowBase (d : Dev) (n : Nat) : Option Nat :=
  let used := (d.rep.sess.filter (fun e => e.2.target && e.2.mr.isSome)).map (fun e => (e.2.base, e.2.want * 32768))
  let starts := repWindows :: used.map (fun u => u.1 + u.2)
  starts.find? (fun a => decide (a + 32768 * n ≤ repWindows + 32768 * repWindowSlots) &&
    used.all (fun u => decide (a + 32768 * n ≤ u.1) || decide (u.1 + u.2 ≤ a)))

/-- R126, R477: this head owns a volume's group. -/
def Dev.ownsVol (d : Dev) (v : Nat) : Bool := d.flag (Reg.NVT_ANA_OWN (d.vol v).anaGrp)

/-- R424: why an OPEN is refused, or 0. -/
def Dev.openResult (d : Dev) (i : Nat) (m : List Byte) : Nat :=
  let s := d.sess i
  let v := d.vol s.dstVol
  let base := leField m 40 8
  if leField m 38 2 ≠ s.dstVol ∨ leField m 36 2 ≠ s.srcVol ∨ v.valid = false ∨ v.roVol = false then rcVolume
  else if d.ownsVol s.dstVol = false then rcNotOwner
  else if base ≠ 0 ∧ base ≠ tget 0 d.rep.held s.dstVol then rcBase
  else rcOk

/-- R423: OPEN_ACK. -/
def Dev.sendOpenAck (d : Dev) (q session result held key batch : Nat) (rkey : Word) (va slots flags : Nat) : Dev :=
  d.post q ⟨.send, repMsg 2 session 0 0 (leBytes 4 (d.fld Reg.DRV_ARRAY_TAG_TAG) ++ leBytes 2 result ++ leBytes 2 0 ++ leBytes 8 held ++
    leBytes 8 key ++ leBytes 4 batch ++ leBytes 4 rkey.toNat ++ leBytes 8 va ++ leBytes 4 slots ++ leBytes 4 flags), .replication 0, none⟩

/-- OPEN, R417, R418, R420, R424, R432, R505: the target registers the receive window and answers with the higher cursor. -/
def Dev.repOpenMsg (d : Dev) (q : Nat) (m : List Byte) : Dev :=
  if !repWf 1 m ∨ leField m 16 8 ≠ 0 then
    match d.sessOf q with
    | some i => d.repFail i rcBadMessage 0 true
    | none => d
  else
    let sid := leField m 8 8
    let refuse (r held : Nat) : Dev := d.sendOpenAck q sid r held 0 0 0 0 0 0
    let dst := leField m 38 2
    if leField m 2 1 ≠ 1 then refuse rcVersion 0
    -- R433: whatever sessions this head has
    else if (d.vol dst).valid ∧ d.ownsVol dst = false then refuse rcNotOwner 0
    else
      match d.rep.sess.find? (fun e => e.2.target && decide (e.2.session = sid)) with
      | none => refuse rcNoResource 0
      | some (i, _) =>
        let d0 := d.repRevoke i
        let s := d0.sess i
        let held := tget 0 d.rep.held s.dstVol
        let r := d0.openResult i m
        if r ≠ rcOk then (d.updSess i (fun s => { s with reason := r })).sendOpenAck q sid r held 0 0 0 0 0 0
        else
          match d0.repWindowBase s.want, (List.range 1024).find? (fun k => decide ((d0.region k).state = .free)) with
          | some base, some k =>
            let d1 := d0.mrRegister k base (32768 * s.want) (d0.ctx q).pd true
            let rkey := rkeyOf k (d1.region k).tag
            let same := decide (s.newGen = leField m 48 8)
            let cur := if same then max s.cursor (leField m 56 8 % 2 ^ 40) else leField m 56 8 % 2 ^ 40
            let batch := if same ∧ leField m 56 8 < s.cursor then s.batch + 1 else leField m 64 4
            let fl := leField m 68 4
            let dd := decide (fl % 2 = 1) && (d.volRed s.dstVol).dedup
            let fr := decide (fl / 2 % 2 = 1)
            let d2 := (d1.updSess i (fun s => { s.drop with
              state := .streaming, qp := q, reason := 0, baseGen := leField m 40 8, newGen := leField m 48 8, cursor := cur, batch := batch, txSeq := 0
              rxSeq := 0, mr := some k, base := base, key := rkey, dedup := dd, frames := fr, acks := [], opened := true })).arm (tmRep i)
            (d2.repJournal i).sendOpenAck q sid rcOk held cur batch rkey base s.want ((if dd then 1 else 0) + (if fr then 2 else 0))
          | _, _ => (d.updSess i (fun s => { s with reason := rcNoResource })).sendOpenAck q sid rcNoResource held 0 0 0 0 0 0

def execOpen (q : Nat) (m : List Byte) (s : State) : Ans := lift (fun d => d.repOpenMsg q m) s

/-- R425: entry k of an EXTENTS message. -/
def repEntOf (m : List Byte) (k : Nat) : RepEnt :=
  let o := 40 + 24 * k
  ⟨leField m o 5, decide (leField m (o + 5) 1 % 2 = 1), (m.drop (o + 8)).take 16, 0⟩

/-- R428, step 1: a grain equal to an entry's that this session has placed in the batch. -/
def Dev.repPlaced (d : Dev) (s : RepSess) (e : RepEnt) : Option Nat :=
  (s.ents.filter (fun x => !x.zero && decide (x.fp = e.fp) && decide (x.key % 4 = e.key % 4))).findSome? (fun x =>
    (d.cal.dirs.find? (fun y => decide (y.2.vol = s.dstVol) && decide (y.2.off = keyStart x.key) && decide (y.2.size = 3 - x.key % 4) &&
      decide (y.2.state ≠ .free) && decide (y.2.grid ≠ 0))).map (·.2.grid))

/-- R201, R428, step 2: for a hook, the manifests that its Tephra entries lead to are loaded; one that does not come in LOAD_WAIT beats ends
the wait. -/
def Dev.repLoads (d : Dev) (vol : Nat) (e : RepEnt) (loads : List (Nat × Option (List (List Byte)))) : Dev :=
  let d0 := d.bump Reg.MDE_TPH_LOOKUPS_COUNT 1
  if !isHook e.fp then d0
  else
    let segs := d0.tphLookup e.fp (3 - e.key % 4)
    let line := d0.bucketLine (bucketOf d0.tphBits e.fp)
    let d1 := ((d0.cacheAccess line none none false).bump Reg.MDE_TPH_HOOKS_COUNT 1).cond (!segs.isEmpty) (fun d => d.bump Reg.MDE_TPH_HOOK_HITS_COUNT 1)
    d1.each (segs.filter (fun g => !(d1.tph.mans.any (fun x => decide (x.seg = g))))) (fun g d =>
      match loads.find? (fun l => decide (l.1 = g)) with
      | some (_, some ps) => (d.cacheManifest ⟨g, (d.segEnt g).written, d.beat, ps.flatMap manOf⟩).bump Reg.MDE_TPH_LOADS_COUNT 1
      | some (_, none) => d
      | none => (d.bump Reg.MDE_TPH_LOAD_TIMEOUT_COUNT 1).raiseOnce 1024 1024 g vol 0)

/-- R200, R202, R203, R428: a record that an entry matches. -/
def Dev.repMatch (d : Dev) (vol : Nat) (e : RepEnt) : Option (Nat × Nat) :=
  match d.candidate e.fp (3 - e.key % 4) (d.volSlot vol) (d.kslot (d.volSlot vol)).gen with
  | none => none
  | some (m, c) =>
    let r := d.grec c.grid
    if d.holds c.grid ∧ r.fp = e.fp ∧ r.gsize = 3 - e.key % 4 ∧ 1 ≤ r.refs ∧ r.refs < permanentCount ∧ r.state = .placed ∧ r.damaged = false then
      some (m.seg, c.grid)
    else none

/-- R426, R428: the INSERT of an entry, GRID 0 or with ADDREF. Answers its record. -/
def Dev.repInsert (d : Dev) (q vol key grid : Nat) : JRec × Dev :=
  let (r, d1) := d.journalRec (home q) d.cal.order d.beat (.insert vol key grid (decide (grid ≠ 0)) (decide (grid = 0)))
  (r, { d1 with mde := { d1.mde with inserts := d1.mde.inserts ++ [r] }, cal := { d1.cal with order := d1.cal.order + 1 } })

/-- R428: one entry. Answers the records written, and whether its bytes are needed. -/
def Dev.repEntry (d : Dev) (i : Nat) (e : RepEnt) (loads : List (Nat × Option (List (List Byte)))) : (List JRec × Bool) × Dev :=
  let s := d.sess i
  let keep (d : Dev) : Dev := d.updSess i (fun s => { s with ents := s.ents ++ [e] })
  if e.zero then
    let (r, d1) := d.repInsert s.qp s.dstVol e.key 0
    (([r], false), keep d1)
  else if s.dedup = false then (([], true), keep d)
  else
    match d.repPlaced s e with
    | some g =>
      let (r, d1) := d.repInsert s.qp s.dstVol e.key g
      (([r], false), keep (d1.bump Reg.MDE_REP_MATCHED_COUNT 1))
    | none =>
      let d1 := if d.tphActive && (d.repMatch s.dstVol e).isNone then d.repLoads s.dstVol e loads else d
      match (if d1.tphActive then d1.repMatch s.dstVol e else none) with
      | some (seg, g) =>
        let d2 := { d1 with tph := { d1.tph with mans := d1.tph.mans.map (fun (x : Manifest) => if x.seg = seg then { x with last := d1.beat } else x) } }
        let (r, d3) := d2.repInsert s.qp s.dstVol e.key g
        (([r], false), keep ((d3.bump Reg.MDE_REP_MATCHED_COUNT 1).bump Reg.MDE_TPH_MATCHES_COUNT 1))
      | none => (([], true), keep d1)

/-- R156, R172, R430: the records of an EXTENTS message are mirrored, or take the vault path; until the put's count they are not in effect for readers. -/
def Dev.repMirror (d : Dev) (i : Nat) (recs : List JRec) : Dev :=
  let s := d.sess i
  let m := mirrorQpOf s.qp (home s.qp)
  let on := d.isOn (.qp m)
  if recs.isEmpty then d
  else
    let d1 := d.cond on (fun d => d.each (chunks 63 (recs.length + 1) recs) (fun l d => (d.mirrorRecs m l).2))
    let n := d1.putCount m
    let d2 := { d1 with
      cal := { d1.cal with
      mapOnly := d1.cal.mapOnly ++ recs.filterMap (fun (r : JRec) => match r.body with
        | .insert v key grid _ _ => some (MapOnly.mk v key grid r.admitBeat r.home r.order m n 0 true)
        | _ => none) } }
    let d3 := d2.updSess i (fun s => { s with wait := some (m, n) })
    if d3.vaultThrough || !on then d3.repToVault i else d3

/-- R423: NEED. -/
def Dev.sendNeed (d : Dev) (i seq count : Nat) (l : List Nat) : Dev :=
  (d.bump Reg.MDE_REP_NEEDED_COUNT l.length).repSend i 4 (leBytes 8 seq ++ leBytes 2 count ++ leBytes 2 l.length ++ leBytes 4 0 ++
    leBytes ((count + 31) / 32 * 4) (l.foldl (fun n e => n + 2 ^ e) 0))

/-- EXTENTS, R428. -/
def Dev.repExtentsMsg (d : Dev) (q : Nat) (m : List Byte) (loads : List (Nat × Option (List (List Byte)))) : Dev :=
  d.repTake q 3 m true (fun i d =>
    let n := leField m 36 2
    let acc := (List.range n).foldl (fun (acc : (List JRec × List Nat) × Dev) k =>
      let (r, d1) := acc.2.repEntry i (repEntOf m k) loads
      ((acc.1.1 ++ r.1, if r.2 then acc.1.2 ++ [k] else acc.1.2), d1)) (([], []), d.bump Reg.MDE_REP_ENTRIES_RX_COUNT n)
    (acc.2.repMirror i acc.1.1).sendNeed i (leField m 16 8) n acc.1.2)

def execExtents (q : Nat) (m : List Byte) (loads : List (Nat × Option (List (List Byte)))) (s : State) : Ans := lift (fun d => (d.undeliver q m).repExtentsMsg q m loads) s

/-- R429: the bytes of a grain in a slot. -/
def Dev.repGrain (d : Dev) (s : RepSess) (slot form len size : Nat) : List Byte :=
  let bs := readBytes d.ram (s.base + 32768 * slot) len
  if form = 1 then (match sinterDecode bs size with
    | .ok b => b
    | _ => []) else bs

/-- R429: one descriptor of a GRAINS message. -/
def Dev.repGrainMsg (d : Dev) (i ent slot form len : Nat) : Dev :=
  let s := d.sess i
  match s.ents[ent]? with
  | none => d.repFail i rcBadMessage 0 true
  | some e =>
    let size := keyBytes e.key
    let bs := d.repGrain s slot form len size
    if bs.length = size ∧ fingerprint bs = e.fp then
      let blk := (d.vol s.dstVol).blk
      d.enqueueCmd (home s.qp) {
        qp := s.qp, cid := 0, opcode := opWrite, nsid := s.dstVol, slba := keyStart e.key * 4096 / blk, nlb := size / blk, sgl := .none, dlen := 0
        ranges := [], ad := false, copyFormat := 0, data := bs, fwdIn := false, fwdTag := 0, hostIdx := 0, pages := [], rep := some (i, slot) }
    else
      let d1 := (d.updSess i (fun s => { s with acks := s.acks ++ [slot] })).raise 983 i ent 0
      if s.missed.contains ent then d1.repFail i rcFp ent true
      else (d1.updSess i (fun s => { s with missed := s.missed ++ [ent] })).sendNeed i 0 (ent + 1) [ent]

/-- R423, R429: the slots of grains that are STAGED, or that failed, go back to the source in WINDOW_ACK messages. -/
def Dev.repAcks (d : Dev) (i : Nat) : Dev :=
  let l := (d.sess i).acks ++ (d.rep.staged.filter (fun e => decide (e.1 = i))).map (·.2)
  if l.isEmpty then d
  else
    let d1 := { d with rep := { d.rep with staged := d.rep.staged.filter (fun e => decide (e.1 ≠ i)) } }
    let d2 := d1.updSess i (fun s => { s with acks := l.drop 1024 })
    if (d2.sess i).state = .streaming then
      let p := l.take 1024
      d2.repSend i 6 (leBytes 2 p.length ++ leBytes 6 0 ++ padTo ((2 * p.length + 3) / 4 * 4) (p.flatMap (leBytes 2)))
    else d2

/-- GRAINS, R421, R429. -/
def Dev.repGrainsMsg (d : Dev) (q : Nat) (m : List Byte) : Dev :=
  d.repTake q 5 m true (fun i d =>
    let d1 := d.each (List.range (leField m 32 2)) (fun k d =>
      if (d.sess i).state ≠ .streaming then d
      else
        let o := 40 + 16 * k
        d.repGrainMsg i (leField m o 4) (leField m (o + 4) 2) (leField m (o + 6) 1) (leField m (o + 8) 4))
    d1.repAcks i)

def execGrains (q : Nat) (m : List Byte) (s : State) : Ans := lift (fun d => d.repGrainsMsg q m) s

/-- R430: everything of the batch is inserted and mirrored. -/
def Dev.repDurable (d : Dev) (i : Nat) : Bool :=
  let s := d.sess i
  let mine (c : HostCmd) : Bool := decide ((c.rep.map (·.1)) = some i)
  !((d.slice (home s.qp)).waiting.any mine) &&
    !(d.nvt.tags.any (fun e => decide (e.2.state = .running) && (match e.2.cmd with
      | some c => mine c
      | none => false))) &&
    !(d.cal.groups.any (fun e => decide (e.2.vol = s.dstVol))) &&
    !(d.mde.inserts.any (fun r => match r.body with
      | .insert v _ _ _ _ => decide (v = s.dstVol)
      | _ => false)) &&
    (match s.wait with
     | some (m, n) => waitHolds (d.ctx m).cc n
     | none => true)

/-- The lowest snapshot number in use by no tree. -/
def Dev.freeSnap (d : Dev) : Nat :=
  let used := (d.mde.trees.filter (fun e => decide (32768 ≤ e.1))).length
  ((List.range (used + 1)).find? (fun n => decide ((d.tree (32768 + n)).state = .free))).getD used + 32768

/-- R430: COMMIT_ACK, once the batch is durable; a FINAL batch has its snapshot taken first. -/
def Dev.repTryCommit (d : Dev) (i : Nat) : Dev :=
  let s := d.sess i
  if !s.commit ∨ !s.target ∨ s.state ≠ .streaming ∨ d.repDurable i = false then d
  else if s.final ∧ s.snap = 0 then
    let t := d.freeSnap
    (((d.snapTake t s.dstVol 0).2).setGen t s.newGen).updSess i (fun s => { s with snap := t })
  else if s.final ∧ (d.tree s.snap).state ≠ .ready then d
  else
    let d1 := d.repSend i 8 (leBytes 2 rcOk ++ leBytes 2 0 ++ leBytes 4 (if s.final then s.snap else 0) ++ leBytes 8 s.nextKey)
    let d2 := (d1.updSess i (fun s => { s with cursor := s.nextKey })).repJournal i
    if s.final then
      let d3 := { d2 with rep := { d2.rep with held := tput 0 d2.rep.held s.dstVol s.newGen } }
      (((d3.updSess i (fun s => { s.drop with state := .done, cursor := 0 })).raise 980 i s.newGen 0).repRevoke i).disarm (tmRep i)
    else d2.updSess i (fun s => { s.drop with state := .streaming, opened := true, batch := s.batch + 1 })

/-- COMMIT, R430. -/
def Dev.repCommitMsg (d : Dev) (q : Nat) (m : List Byte) : Dev :=
  d.repTake q 7 m true (fun i d =>
    (d.updSess i (fun s => { s with commit := true, final := decide (leField m 36 4 % 2 = 1), nextKey := leField m 40 8 % 2 ^ 40 })).repTryCommit i)

def execCommit (q : Nat) (m : List Byte) (s : State) : Ans := lift (fun d => d.repCommitMsg q m) s

/-! ### Ends and waits (R424, R431) -/

/-- REP_ABORT, R431: an ABORT ends the session in FAILED. -/
def Dev.repAbortMsg (d : Dev) (q : Nat) (m : List Byte) : Dev :=
  match d.sessOf q with
  | none => d
  | some i =>
    let s := d.sess i
    if repWf 9 m ∧ leField m 8 8 = s.session ∧ leField m 16 8 = s.rxSeq + 1 then d.repFail i (leField m 32 2) (leField m 36 4) false
    else d.repFail i rcBadMessage 0 true

def execRepAbort (q : Nat) (m : List Byte) (s : State) : Ans := lift (fun d => d.repAbortMsg q m) s

/-- REP_TIMEOUT, R424, R431: no message for TIMEOUT beats. -/
def Dev.repTimeout (d : Dev) (i : Nat) : Dev :=
  if (d.sess i).state ∈ [RepState.opening, .streaming, .committing] ∧ d.expired (tmRep i) (d.fld Reg.MDE_REP_TIMEOUT_TIMEOUT) then
    d.repSuspend i 1 rcTimeout
  else d

def execRepTimeout (i : Nat) (s : State) : Ans := lift (fun d => d.repTimeout i) s

/-- REP_RETRY, R431: RETRY beats after its suspension a session reopens; 0 waits for array software. -/
def Dev.repRetry (d : Dev) (i : Nat) : Dev :=
  let n := d.fld Reg.MDE_REP_RETRY_RETRY
  if (d.sess i).state = .suspended ∧ (d.sess i).target = false ∧ n ≠ 0 ∧ d.expired (tmRep i) n then d.repStart i else d

def execRepRetry (i : Nat) (s : State) : Ans := lift (fun d => d.repRetry i) s

/-- What a session does at a beat edge: OPEN once its queue pair is ON, window slots given back, a commit that has become durable. -/
def Dev.repStep (d : Dev) (i : Nat) : Dev := (((d.repOpen i).repAcks i).repTryCommit i).repCommitDue i

end Sys2Proof.Machine
end

