-- ==== Sys2Proof/Machine/Update.lean ====
section
/-! DEFINITION. Staging, arming, activation, revert and commit of an update (R631 to R645). -/
namespace Sys2Proof.Machine

/-! ### Digests and messages (R632, R644) -/

def Dev.setUpd (d : Dev) (f : UpdSt → UpdSt) : Dev := { d with upd := f d.upd }

/-- The 48 bytes of a digest register, and back. -/
def Dev.ownDigest (d : Dev) : List Byte := (List.range 12).flatMap (fun i => leBytes 4 (d.fld (Reg.UPD_DIGEST i)))
def Dev.setDigest (d : Dev) (bs : List Byte) : Dev := d.each (List.range 12) (fun i d => d.setFld (Reg.UPD_DIGEST i) (leField bs (4 * i) 4))
def Dev.setPeerDigest (d : Dev) (bs : List Byte) : Dev := d.each (List.range 12) (fun i d => d.setFld (Reg.UPD_PEER_DIGEST i) (leField bs (4 * i) 4))

def zeroDigest : List Byte := List.replicate 48 0

/-- R455, R644: an UPDATE message. -/
def Dev.updMsg (d : Dev) (op arg : Nat) (digest : List Byte) : Dev := d.emit (.link (LinkMsg.update op arg digest))

/-- UPD_STS.ACT. -/
def actIdle : Nat := 0
def actArmed : Nat := 1
def actLive : Nat := 2
def actHand1 : Nat := 3
def actHand0 : Nat := 4
def actSoak : Nat := 5
def actReverting : Nat := 6

def Dev.act (d : Dev) : Nat := d.fld Reg.UPD_STS_ACT
def Dev.slotHeld (d : Dev) : Bool := decide (d.fld Reg.UPD_STS_STAGE = 3)

/-- UPD_STS.RESULT and DETAIL. -/
def Dev.updResult (d : Dev) (st detail : Nat) : Dev := (d.setFld Reg.UPD_STS_RESULT st).setFld Reg.UPD_STS_DETAIL detail

/-- R632: after every staging and every release the peer is told. -/
def Dev.tellStaged (d : Dev) : Dev := d.updMsg 1 0 d.ownDigest

/-! ### Staging (R631 to R633) -/

/-- R631: a source is refused: with STAGING_BUSY and the holder, or with BAD_ARGUMENT and the DETAIL of R630. -/
def Dev.stageRefuse (d : Dev) (src st detail : Nat) : Dev := (d.updResult st detail).raise 1921 src st detail

/-- R630, R631: a source's package is complete: it is verified, and takes the slot. Answers the status and DETAIL. -/
def Dev.stage (d : Dev) (src : Nat) (m : List Byte) : (Nat × Nat) × Dev :=
  if d.slotHeld then ((0x07, d.fld Reg.UPD_STS_HOLDER), d.stageRefuse src 0x07 (d.fld Reg.UPD_STS_HOLDER))
  else
    let c := d.pkgCheck m false
    if c ≠ 0 then ((0x04, checkDetail c), (d.setFld Reg.UPD_STS_STAGE 0).stageRefuse src 0x04 (checkDetail c))
    else
      let n := d.stagedSlot
      let d1 := d.updImg n (fun _ => { state := .pending, seq := (d.img (1 - n)).seq + 1, pkg := m })
      let d2 := (((((d1.setFld Reg.UPD_STS_STAGE 3).setFld Reg.UPD_STS_HOLDER src).setFld Reg.UPD_REL_STAGED_REL (pkgRel m)).setFld
        Reg.UPD_PKG_LEN_BYTES m.length).setDigest (pkgDigest m)).updResult 0 0
      ((0x00, 0), (d2.raise 1920 src (pkgRel m) (pkgRollback m)).tellStaged)

/-- R632, R642: the slot is released. -/
def Dev.releaseSlot (d : Dev) : Dev :=
  (((((d.setFld Reg.UPD_STS_STAGE 0).setFld Reg.UPD_STS_HOLDER 0).setFld Reg.UPD_REL_STAGED_REL 0).setFld Reg.UPD_PKG_LEN_BYTES 0).setDigest
    zeroDigest).tellStaged

/-- CARD_PROBE, R631, R633: while SD_EN is 1 the steward probes the card; a package found on a card new to it is staged. -/
def Dev.cardProbe (d : Dev) (present : Bool) (pkg : Option (List Byte)) : Dev :=
  if d.strap 10 = false ∨ d.steward ≠ stRunning then d
  else
    let was := d.flag Reg.UPD_STS_CARD
    let d1 := d.setFlag Reg.UPD_STS_CARD present
    let d2 := d1.cond (decide (present ≠ was)) (fun d => d.raise 1928 (if present then 1 else 0) 0 0)
    match pkg with
    | some m => if present ∧ was = false ∧ d2.flag Reg.UPD_CFG_CARD_EN then (d2.stage 0 m).2 else d2
    | none => d2

def execCardProbe (present : Bool) (pkg : Option (List Byte)) (s : State) : Ans := lift (fun d => d.cardProbe present pkg) s

/-- DISCARD, R632: a held slot that is not armed, nor to be armed by an ARM that is out, is released. -/
def Dev.discardSlot (d : Dev) : Dev := if d.slotHeld ∧ d.act = actIdle ∧ d.upd.armSent = false then d.releaseSlot else d

def execDiscard (s : State) : Ans := lift Dev.discardSlot s

/-- UPDATE_STAGED, R632. -/
def execUpdateStaged (digest : List Byte) (s : State) : Ans := lift (fun d => d.setPeerDigest digest) s

/-! ### Arming (R634, R635) -/

/-- R634: armed for E. -/
def Dev.armFor (d : Dev) (e : Nat) : Dev :=
  ((d.setFld Reg.UPD_STS_ACT actArmed).setFld Reg.UPD_ARM_EPOCH_EPOCH e).setUpd (fun u => { u with armSent := false, peerCommit := false })

/-- R635, R636: disarmed; the slot has its holder back. The final status of the ticket is not given: a free value. -/
def Dev.disarmUpd (d : Dev) : Dev :=
  let d1 := ((d.setFld Reg.UPD_STS_ACT actIdle).cond (decide (d.fld Reg.UPD_STS_HOLDER = 2)) (fun d => d.setFld Reg.UPD_STS_HOLDER d.upd.prev))
  (d1.ticketOpen d.upd.ticket).setUpd (fun u => { u with armSent := false, ticket := 0 })

/-- R634: the digests-differ event. -/
def Dev.digestsDiffer (d : Dev) (peer : List Byte) (e : Nat) : Dev := d.raise 1922 (leField d.ownDigest 0 4) (leField peer 0 4) e

/-- UPDATE_ARM, R634, R635: where both heads sent ARM, slot 0's stands. -/
def Dev.updateArm (d : Dev) (e : Nat) (digest : List Byte) : Dev :=
  let d0 := d.setPeerDigest digest
  if d0.upd.armSent ∧ d0.slotId = 0 then d0
  else
    let d1 := if d0.upd.armSent then (d0.ticketEnd d0.upd.ticket 0x01 2).setUpd (fun u => { u with armSent := false, ticket := 0 }) else d0
    if d1.slotHeld ∧ d1.ownDigest = digest ∧ d1.act = actIdle then
      (((d1.setUpd (fun u => { u with prev := d1.fld Reg.UPD_STS_HOLDER })).setFld Reg.UPD_STS_HOLDER 2).armFor e).updMsg 3 0 d1.ownDigest
    else (d1.digestsDiffer digest e).updMsg 4 0 d1.ownDigest

def execUpdateArm (e : Nat) (digest : List Byte) (s : State) : Ans := lift (fun d => d.updateArm e digest) s

/-- UPDATE_ARM_ACK, R634. -/
def execUpdateArmAck (digest : List Byte) (s : State) : Ans :=
  lift (fun d =>
    let d1 := d.setPeerDigest digest
    if d1.upd.armSent then d1.armFor (d1.fld Reg.UPD_ARM_EPOCH_EPOCH) else d1) s

/-- UPDATE_ARM_NAK, R634: the command ends with BUSY, DETAIL 1. -/
def execUpdateArmNak (digest : List Byte) (s : State) : Ans :=
  lift (fun d =>
    let d1 := d.setPeerDigest digest
    if d1.upd.armSent then
      ((d1.digestsDiffer digest (d1.fld Reg.UPD_ARM_EPOCH_EPOCH)).ticketEnd d1.upd.ticket 0x01 1).setUpd (fun u => { u with armSent := false, ticket := 0 })
    else d1) s

/-- UPDATE_CANCEL, R635. -/
def execUpdateCancel (s : State) : Ans := lift (fun d => if d.act = actArmed then d.disarmUpd else d) s

/-! ### Activation (R636 to R638) -/

/-- R636, R620: both heads PAIRED, or alone by the strap. -/
def Dev.activates (d : Dev) : Bool := decide (d.fovState = fsPaired) || !d.strap 5

def Dev.atEpochEdge (d : Dev) : Bool := d.newEpoch

/-- R637: a phase begins. -/
def Dev.phaseBegin (d : Dev) (act : Nat) : Dev :=
  (d.setFld Reg.UPD_STS_ACT act).setUpd (fun u => { u with from_ := d.epoch, own := false, peer := false, hand := 0 })

/-- ACTIVATION_START, R636, R637: at the first epoch edge at or after E with both heads PAIRED; 16 epochs later the heads disarm. -/
def Dev.activationStart (d : Dev) : Dev :=
  let e := d.fld Reg.UPD_ARM_EPOCH_EPOCH
  if d.act ≠ actArmed ∨ d.epoch < e ∨ d.atEpochEdge = false then d
  else if d.activates then
    let n := d.stagedSlot
    let d1 := ((d.phaseBegin actLive).setFld Reg.UPD_BOOT_SEL_VALID 1).setFld Reg.UPD_BOOT_SEL_SLOT n
    (d1.raise 1923 e (pkgParts (d.img n).pkg).length 0).stewardRestart 2
  else if e + 16 ≤ d.epoch then d.disarmUpd.raise 1927 e 0 0
  else d

def execActivationStart (s : State) : Ans := lift Dev.activationStart s

/-- R637: this head reports the end of its phase. -/
def Dev.phaseReport (d : Dev) : Dev :=
  ((d.setUpd (fun u => { u with own := true, hand := 0 })).updMsg 6 d.act d.ownDigest).raise 1924 d.act d.slotId 0

/-- UPDATE_PHASE_DONE, R637, R641: the peer has ended its phase, or undone its parts. -/
def execUpdatePhaseDone (phase : Nat) (_digest : List Byte) (s : State) : Ans :=
  lift (fun d => (d.cond (decide (phase = d.act)) (fun d => d.setUpd (fun u => { u with peer := true }))).cond (decide (phase = actReverting))
    (fun d => d.setUpd (fun u => { u with peerUndone := true }))) s

/-- R637: this head is the one that restarts in a hand-off phase. -/
def Dev.handsOff (d : Dev) : Bool := decide ((d.act = actHand1 ∧ d.slotId = 1) ∨ (d.act = actHand0 ∧ d.slotId = 0))

/-- R637, R638: the hand-off of this head begins with the hand-over of all that it owns; a head alone only stops host service. -/
def Dev.handBegin (d : Dev) : Dev :=
  if d.strap 5 then (d.setUpd (fun u => { u with hand := 1 })).handoverCtl
  else ((d.anaAll (fun g => d.flag (Reg.NVT_ANA_OWN g)) anaInaccessible).setFld Reg.FOV_STS_STATE fsStart).setUpd (fun u => { u with hand := 2 })

/-- ACTIVATION_PHASE_START, R637: at the epoch edge after both reports. -/
def Dev.activationNext (d : Dev) : Dev :=
  if d.atEpochEdge = false ∨ d.upd.own = false ∨ (d.upd.peer = false ∧ d.strap 5) ∨ d.epoch ≤ d.upd.from_ then d
  else if d.act = actLive then
    let d1 := d.setUpd (fun u => { u with live := d.epoch })
    if pkgHandoff (d1.img (d1.fld Reg.UPD_STS_RUN_SLOT)).pkg then
      let d2 := d1.phaseBegin actHand1
      if d2.handsOff then d2.handBegin else d2
    else (d1.phaseBegin actSoak).setFld Reg.UPD_STS_SOAK 0
  else if d.act = actHand1 then
    let d1 := d.phaseBegin actHand0
    if d1.handsOff then d1.handBegin else d1
  else if d.act = actHand0 then (d.phaseBegin actSoak).setFld Reg.UPD_STS_SOAK 0
  else d

def execActivationPhaseStart (s : State) : Ans := lift Dev.activationNext s

/-! ### Failure and revert (R639, R641) -/

/-- R639: a cause of revert arises. -/
def Dev.revertBegin (d : Dev) (cause part : Nat) : Dev :=
  if d.act < actLive ∨ d.act = actReverting then d
  else
    let d1 := (((d.setFld Reg.UPD_STS_ACT actReverting).setFld Reg.UPD_STS_DETAIL cause).raise 1925 cause part d.slotId).setUpd (fun u => { u with
      revert := true, hand := if u.hand = 1 then 0 else u.hand, own := false, peerUndone := false })
    d1.cond (decide (cause ≠ 7)) (fun d => d.updMsg 7 cause d.ownDigest)

/-- ACTIVATION_REVERT, R639, R641. -/
def execActivationRevert (cause part : Nat) (s : State) : Ans := lift (fun d => d.revertBegin cause part) s

/-- UPDATE_REVERT, R639, R641. -/
def execUpdateRevert (_cause : Nat) (_digest : List Byte) (s : State) : Ans := lift (fun d => d.revertBegin 7 0) s

/-- R641: at the next epoch edge the steward restarts from the COMMITTED image, and the PENDING settings copy is erased. -/
def Dev.revertEdge (d : Dev) : Dev :=
  if d.upd.revert then
    let d1 := (d.setFld Reg.UPD_BOOT_SEL_VALID 0).each (List.range 2) (fun n d => if (d.flashCopy n).state = .pending then d.updCopy n (fun _ => {}) else d)
    (d1.setUpd (fun u => { u with revert := false, undo := u.parts })).stewardRestart 2
  else d

/-- R641: the revert is over; the slot stays PENDING and held. A head whose old parts failed too stays out of the array. -/
def Dev.revertEnd (d : Dev) : Dev := d.disarmUpd.setUpd (fun u => { u with undo := false, hand := if u.hand = 5 then 5 else 0 })

/-- R638: a hand-off restart: host ports, slices, attach points, lanes and memories stop, the parts are loaded, and start-up runs from step 3.
A part that fails to load reverts the activation; on a revert the head stays out of the array. -/
def Dev.handoffRestart (d : Dev) (fail : Option Nat) : Dev :=
  if d.upd.hand ≠ 2 then d
  else match fail with
    | some t => if d.act = actReverting then d.setUpd (fun u => { u with hand := 5, undo := false }) else d.revertBegin 3 t
    | none =>
      let off (d : Dev) (u : UnitId) : Dev := d.setUnit u { d.unit u with en := false }
      let d1 := (((d.each (List.range 16) (fun p d => off d (.port p))).each (List.range 8) (fun s d => off d (.slice s))).each (List.range 128)
        (fun a d => off d (.att a))).each (List.range 16) (fun l d => off d (.lane l))
      let d2 := ({ d1 with mem := { d1.mem with chans := [] }, fis := { d1.fis with step := 3, restored := false } }.setFld Reg.MEM_STS_START 1).setFov
        (fun f => { f with replayDone := false, alive := false })
      d2.setUpd (fun u => { u with hand := 3, parts := decide (d.act ≠ actReverting) })

def execHandoffRestart (fail : Option Nat) (s : State) : Ans := lift (fun d => d.handoffRestart fail) s

/-! ### The work of an activation at a beat edge (R637, R641) -/

/-- The hand-off of this head: LEAVE after the hand-over; after the rejoin a failback, whose counting R494 does; then its report. -/
def Dev.handStep (d : Dev) : Dev :=
  match d.upd.hand with
  | 1 =>
    if d.ownMask = 0 ∧ d.fov.handStep = 0 ∧ d.fovState = fsPaired then d.fovLeave.setUpd (fun u => { u with hand := 2 })
    else if d.atEpochEdge ∧ d.fov.handStep = 0 then d.handoverCtl
    else d
  | 3 => if d.fis.step ≠ 0 then d
    else if d.strap 5 = false then (if d.fovState = fsSole then d.phaseReport else d)
    else if d.fovState = fsPaired then (d.failback).setUpd (fun u => { u with hand := 4 })
    else d
  | 4 => if d.homeAway = 0 ∧ d.mde.ownGone = false then d.phaseReport else d
  | _ => d

/-- What an activation does at every beat edge. -/
def Dev.updStep (d : Dev) : Dev :=
  -- R639: after a hand-off restart the memories, which run the new training firmware, have not started
  let d0 := d.cond (decide (d.upd.hand = 3) && decide (d.act ≠ actReverting) && decide (d.fld Reg.MEM_STS_START = 3)) (fun d => d.revertBegin 3 5)
  let d1 := d0.handStep
  if d1.act = actReverting then
    if d1.upd.revert then d1
    else if d1.upd.undo ∧ d1.upd.hand = 0 ∧ d1.upd.own = false then
      (if d1.slotId = 0 ∨ d1.upd.peerUndone ∨ d1.strap 5 = false then d1.handBegin else d1)
    else if (d1.upd.hand = 0 ∨ d1.upd.hand = 5) ∧ d1.steward = stRunning then
      (if d1.upd.own then d1.revertEnd else d1.phaseReport.revertEnd)
    else d1
  -- the head that receives reports once the other has
  else if (d1.act = actHand1 ∨ d1.act = actHand0) ∧ d1.handsOff = false ∧ d1.upd.own = false ∧ (d1.upd.peer ∨ d1.strap 5 = false) then d1.phaseReport
  else d1

/-- R639: a cause of revert that an epoch edge finds. -/
def Dev.revertCause (d : Dev) : Option Nat :=
  if d.act = actLive ∧ d.upd.own = false ∧ d.upd.from_ + d.fld Reg.UPD_CFG_LIVE_TIMEOUT ≤ d.epoch then some 1
  else if (d.act = actHand1 ∨ d.act = actHand0) ∧ d.upd.from_ + d.fld Reg.UPD_CFG_HANDOFF_LIMIT ≤ d.epoch then some 4
  else if (d.act = actHand1 ∨ d.act = actHand0 ∨ d.act = actSoak) ∧ d.upd.live + d.fld Reg.UPD_CFG_COMMIT_LIMIT ≤ d.epoch then some 6
  else none

/-- R642: the SOAK count at an epoch edge. `healthy`: the epoch now over was healthy under R494. -/
def Dev.soakEdge (d : Dev) (healthy : Bool) : Dev :=
  let d1 := if d.act = actSoak ∧ d.upd.from_ < d.epoch then
      (if healthy && !d.upd.restarted then d.setFld Reg.UPD_STS_SOAK (min 8 (d.fld Reg.UPD_STS_SOAK + 1)) else d.setFld Reg.UPD_STS_SOAK 0)
    else d
  d1.setUpd (fun u => { u with restarted := false })

/-! ### Commit (R642, R648) -/

/-- ACTIVATION_COMMIT, R642: at the epoch edge after 8 healthy epochs. -/
def Dev.activationCommit (d : Dev) : Dev :=
  if d.act ≠ actSoak ∨ d.fld Reg.UPD_STS_SOAK < 8 ∨ d.atEpochEdge = false then d
  else
    let n := d.fld Reg.UPD_STS_RUN_SLOT
    let m := (d.img n).pkg
    let d1 := d.updImg n (fun x => { x with state := .committed })
    let next := (List.range 2).find? (fun i => decide ((d1.flashCopy i).state = .pending))
    let d2 := match next with
      | some i => (d1.updCopy (1 - i) (fun c => { c with state := .retired })).updCopy i (fun c => { c with state := .committed })
      | none => d1
    let d3 := d2.updImg (1 - n) (fun x => { x with state := .retired })
    let roll := max d3.sec.fuses.rollback (min 128 (pkgRollback m))
    let d4 := { d3 with sec := { d3.sec with fuses := { d3.sec.fuses with rollback := roll } } }.setFld Reg.UPD_ROLLBACK_COUNT roll
    let d5 := (d4.setFld Reg.UPD_SCHEMA_SCHEMA ((d4.currentCopy.map (fun i => (d4.flashCopy i).schema)).getD 0)).updMsg 8 0 d4.ownDigest
    let d6 := ((d5.releaseSlot.raise 1926 (pkgRel m) (pkgRollback m) 0).updResult 0 0).setFld Reg.UPD_STS_ACT actIdle
    (d6.ticketEnd d.upd.ticket 0x00 0).setUpd (fun u => { u with ticket := 0, parts := false })

def execActivationCommit (s : State) : Ans := lift Dev.activationCommit s

/-- UPDATE_COMMIT, R642, R644: the peer has committed. -/
def execUpdateCommit (_digest : List Byte) (s : State) : Ans := lift (fun d => d.setUpd (fun u => { u with peerCommit := true })) s

/-! ### The new steward (R640) -/

/-- R640: the new steward converts the CURRENT settings into the other copy. `convert`: it can. -/
def Dev.convertSettings (d : Dev) (schema : Nat) (convert : Bool) : Option Dev :=
  match d.currentCopy with
  | some i =>
    if convert then some (d.updCopy (1 - i) (fun _ => { d.flashCopy i with state := .pending, schema := schema, gen := (d.flashCopy i).gen + 1 }))
    else none
  | none => none

/-- R637, R639: the steward of an activation runs: from the staged image it reports LIVE done. -/
def Dev.liveDone (d : Dev) (convert : Bool) : Dev :=
  if d.act ≠ actLive then d
  else if (d.img (d.fld Reg.UPD_STS_RUN_SLOT)).state ≠ .pending ∨ d.upd.onCard then d.revertBegin 1 0
  else match d.convertSettings (pkgSchema (d.img (d.fld Reg.UPD_STS_RUN_SLOT)).pkg) convert with
    | some d1 => d1.phaseReport
    | none => d.revertBegin 2 0

end Sys2Proof.Machine
end

