-- ==== Sys2Proof/Machine/Pins.lean ====
section
/-! DEFINITION. The Fissure pins (R605, R606, R611 to R616, R623). -/
namespace Sys2Proof.Machine

/-- ATTN_N is asserted (R616). -/
def Dev.attn (d : Dev) : Bool := d.flag Reg.FIS_CTL_ATTN || decide (d.steward = stHalted)

def pinBit (n : Nat) (b : Bool) : Nat := if b then 2 ^ n else 0

/-- FIS_LEVEL.DRIVEN: the pins that the FH6400 drives. -/
def Dev.drivenMask (d : Dev) : Nat :=
  let oe := pinBit 14 (d.flag Reg.FIS_GPIO_OE14) + pinBit 15 (d.flag Reg.FIS_GPIO_OE15)
  match d.fld Reg.FIS_STS_PHASE with
  | 0 => if d.flag Reg.FIS_STS_SWITCHING then 0x1C15 + oe else 0
  | 1 => if d.flag Reg.FIS_STS_SWITCHING then 0xDC15 else 0x1C15 + oe + pinBit 8 d.faultCond + pinBit 9 d.attn
  | _ => 0xFF15

/-- The level that the FH6400 gives a pin which it drives: while a change runs and for the LED pins at rest, the level of the pin's pull (R611,
R613). In PROBE the test multiplexer drives FIS[15:8]: the points' levels are free values, and the pins' pull levels with EN 0 (R651, R652). -/
def Dev.driveLevel (d : Dev) (n : Nat) : Bool :=
  let pull := Nat.testBit (d.fld Reg.FIS_STRAP_DIR) n
  if d.fld Reg.FIS_STS_PHASE = 0 then pull
  else if d.fld Reg.FIS_STS_PHASE = 2 ∧ 8 ≤ n then
    (if d.flag Reg.FIS_PRB_CFG_EN then Nat.testBit (Config.probeLevel d.edges) n else pull)
  else match n with
    | 0 => d.fov.pulseLevel
    | 2 => d.flag Reg.FOV_STS_CLAIM_OUT
    | 4 => d.flag Reg.FOV_STS_FENCE_OUT
    | 8 => false
    | 9 => false
    | 14 => if d.flag Reg.FIS_STS_SWITCHING then pull else d.flag Reg.FIS_GPIO_OUT14
    | 15 => if d.flag Reg.FIS_STS_SWITCHING then pull else d.flag Reg.FIS_GPIO_OUT15
    | _ => pull

/-- The level of a pin that nothing here drives: inputs as their blocks hold them, others as last sampled. -/
def Dev.inputLevel (d : Dev) (n : Nat) : Bool :=
  if d.pinsOn then match n with
    | 1 => d.flag Reg.FOV_STS_PULSE_IN
    | 3 => d.flag Reg.FOV_STS_CLAIM_IN
    | 5 => d.flag Reg.FOV_STS_FENCE_IN
    | 6 => !d.cal.pwrfail
    | 7 => d.cal.holdupOk
    | n => Nat.testBit d.fis.levels n
  else false

/-- FIS_LEVEL as it stands. -/
def Dev.refreshPins (d : Dev) : Dev :=
  let m := d.drivenMask
  let level := ((List.range 16).map (fun n => pinBit n (if Nat.testBit m n then d.driveLevel n else d.inputLevel n))).sum
  (d.setFld Reg.FIS_LEVEL_LEVEL level).setFld Reg.FIS_LEVEL_DRIVEN m

/-- SERVICE, R611: the steward requests SERVICE; outside STRAP, with STRAP_BAD set, or while a change runs, the request is ignored (R610, R612). -/
def Dev.service (d : Dev) : Dev :=
  if d.fld Reg.FIS_STS_PHASE ≠ 0 ∨ d.flag Reg.FIS_STS_STRAP_BAD ∨ d.fis.switchAt ≠ 0 ∨ d.steward ≠ stRunning then d
  else (d.setFld Reg.FIS_CTL_SERVICE 1).toService.refreshPins

def execService (s : State) : Ans := lift Dev.service s

/-- PHASE_CHANGE_DONE, R611 to R613: the edge e + 16. On entry to SERVICE each input's level is its initial level and no edge; PWRFAIL_N low
counts as an assertion. -/
def Dev.phaseDone (d : Dev) (levels : Nat) : Dev :=
  if d.fis.switchAt = 0 ∨ d.edges + 1 < d.fis.switchAt + 16 then d
  else
    let old := d.fld Reg.FIS_STS_PHASE
    let new := if d.fis.toProbe then 2 else 1
    let d1 := { d with fis := { d.fis with switchAt := 0, levels := levels } }
    let d2 := (((d1.setFld Reg.FIS_STS_PHASE new).setFld Reg.FIS_STS_SWITCHING 0).setFld Reg.FIS_CTL_SERVICE 0).setFld Reg.FIS_PHASE_BEAT_BEAT d.beat
    let d3 := d2.raise 27 old new 0
    if new = 2 then d3.refreshPins
    else
      let bit (n : Nat) : Bool := Nat.testBit levels n
      let d4 := (((d3.setFlag Reg.FOV_STS_PULSE_IN (bit 1)).setFlag Reg.FOV_STS_CLAIM_IN (bit 3)).setFlag Reg.FIS_STS_BUTTON (!bit 13)).holdupChange (bit 7)
      ((d4.setFlag Reg.FOV_STS_FENCE_IN (bit 5)).cond (!bit 6) Dev.pwrFail).refreshPins

def execPhaseChangeDone (levels : Nat) (s : State) : Ans := lift (fun d => d.phaseDone (levels % 2 ^ 16)) s

/-- LED_SHIFT, R615: the low LEN bits of FIS_LED_DATA, most significant first; in SERVICE alone. LEN is 1 to 32: another value acts as the
nearer limit. -/
def Dev.ledShift (d : Dev) : Dev :=
  if d.fld Reg.FIS_STS_PHASE ≠ 1 ∨ d.flag Reg.FIS_STS_SWITCHING then d
  else
    let n := max 1 (min 32 (d.fld Reg.FIS_LED_CFG_LEN))
    d.emit (.led ((List.range n).reverse.map (fun i => Nat.testBit (d.fld Reg.FIS_LED_DATA_DATA) i)))

def execLedShift (s : State) : Ans := lift Dev.ledShift s

/-- SERVICE_BUTTON_PRESS, R616: an edge of the filtered button. The beat of a press is kept for the long press. -/
def Dev.button (d : Dev) (pressed : Bool) : Dev :=
  if d.fld Reg.FIS_STS_PHASE ≠ 1 then d
  else
    let was := d.flag Reg.FIS_STS_BUTTON
    let d1 := { d.setFlag Reg.FIS_STS_BUTTON pressed with fis := { d.fis with pressed := if pressed then d.edges + 1 else 0 } }
    if pressed && !was then d1.raise 30 0 0 0 else if pressed then d else d1

def execServiceButtonPress (pressed : Bool) (s : State) : Ans := lift (fun d => d.button pressed) s

/-- R616: a press held for 4 epochs. -/
def Dev.longPress (d : Dev) : Dev :=
  if d.fis.pressed ≠ 0 ∧ d.edges + 1 = d.fis.pressed + 4 * Config.epochBeats then d.raise 30 1 0 0 else d

end Sys2Proof.Machine
end

