-- ==== Sys2Proof/Machine/RegFile.lean ====
section
/-! DEFINITION. The register file by address (R5 to R8, R15, R16): which fields lie at an offset, how a write sets them, and what a read
returns. BAR2 is numbered after BAR0, from `Reg.bar2` (R529). -/
namespace Sys2Proof.Machine

/-! ### The fields of each block, in the order of its register table -/

/-- The registers of the block at 0x0 that are not repeated per unit. -/
def regsGlb : List Fld :=
  [Reg.GLB_ID_PART, Reg.GLB_ID_STEP, Reg.GLB_BEAT_BEAT, Reg.GLB_CYCLE_CYCLE, Reg.GLB_EPOCH_EPOCH, Reg.GLB_MODE_MODE, Reg.GLB_SYNC_STS_ROLE,
    Reg.GLB_SYNC_STS_LOCKED, Reg.GLB_SYNC_STS_OUT_OF_BOUND, Reg.GLB_SYNC_STS_STEPS, Reg.GLB_SYNC_OFFSET_OFFSET, Reg.GLB_SYNC_STEP_BEATS,
    Reg.GLB_CAL_CTL_FORCE_VAULT, Reg.GLB_CAL_STS_MODE, Reg.GLB_CAL_STS_CATCHUP, Reg.GLB_CAL_STS_COMMIT_HELD, Reg.GLB_CAL_STS_ABOVE_HWM,
    Reg.GLB_CAL_STS_PEER_ABSENT, Reg.GLB_CAL_STS_MIRROR_BROKEN, Reg.GLB_CAL_STS_HOLDUP_LOW, Reg.GLB_CAL_STS_FORCED,
    Reg.GLB_CAL_STS_ONE_VAULT, Reg.GLB_CAL_STS_OVER_BUDGET, Reg.GLB_CAL_HWM_PAGES, Reg.GLB_CAL_DST_MARK_PAGES, Reg.GLB_CAL_OWN_PAGES,
    Reg.GLB_CAL_RESV_PAGES, Reg.GLB_CAL_JRNL_PAGES, Reg.GLB_CAL_MIR_PAGES, Reg.GLB_CAL_VAULT_LAT_BEATS, Reg.GLB_LAY_DATA_GEOM_K,
    Reg.GLB_LAY_DATA_GEOM_M, Reg.GLB_LAY_META_GEOM_K, Reg.GLB_LAY_META_GEOM_M, Reg.GLB_LAY_SEG_AGE_BEATS, Reg.GLB_LAY_VERIFY_TIMEOUT,
    Reg.GLB_LAY_SCRUB_EN, Reg.GLB_LAY_SCRUB_RATE, Reg.GLB_LAY_STS_INFLIGHT, Reg.GLB_LAY_STS_FULL, Reg.GLB_LAY_STS_ID_WAIT,
    Reg.GLB_LAY_STS_DRIVE_WAIT, Reg.GLB_LAY_STS_VERIFY_WAIT, Reg.GLB_LAY_SCRUB_POS_SEGMENT, Reg.GLB_LAY_VERIFIED_COUNT,
    Reg.GLB_LAY_FAILED_COUNT, Reg.GLB_LAY_ABANDONED_COUNT, Reg.GLB_LAY_LATE_COUNT, Reg.GLB_RD_CFG_RESERVE, Reg.GLB_RD_CFG_LOW_EVERY]

/-- The registers of the block at 0x100000 that are not repeated per unit. -/
def regsEvc : List Fld :=
  [Reg.EVC_STS_FAULT, Reg.EVC_STS_ANY, Reg.EVC_STS_PENDING_CNT, Reg.EVC_SUMMARY_GROUP]

/-- The registers of the block at 0x200000 that are not repeated per unit. -/
def regsFum : List Fld :=
  [Reg.FUM_CTL_FLUSH, Reg.FUM_CTL_RESUME, Reg.FUM_CTL_NOR_RETRY, Reg.FUM_STS_SEQ_LOADED, Reg.FUM_STS_FLUSHING, Reg.FUM_STS_FROZEN,
    Reg.FUM_STS_NOR_FAILED, Reg.FUM_STS_LG_VALID, Reg.FUM_STS_PIN_VALID, Reg.FUM_STS_LG_COUNT, Reg.FUM_STS_PIN_COUNT, Reg.FUM_NEWEST_SEQ,
    Reg.FUM_OLDEST_SEQ, Reg.FUM_FLUSHED_SEQ, Reg.FUM_SEQ_NEXT_SEQ, Reg.FUM_PART_BASE_OFFSET, Reg.FUM_UNFLUSHED_RECORDS, Reg.FUM_LOST_COUNT,
    Reg.FUM_DROPPED_COUNT]

/-- The registers of the block at 0x400000 that are not repeated per unit. -/
def regsKey : List Fld :=
  [Reg.KEY_CMD_OP, Reg.KEY_CMD_HWM_VALID, Reg.KEY_CMD_SLOT, Reg.KEY_STS_BUSY, Reg.KEY_STS_CMD_LOST, Reg.KEY_STS_LOCKED, Reg.KEY_STS_HEAD,
    Reg.KEY_STS_STATUS, Reg.KEY_STS_READY_SLOTS, Reg.KEY_CFG_META_ENC, Reg.KEY_LOAD_GEN_GEN, Reg.KEY_LOAD_HWM_HWM, Reg.KEY_TAG_FAIL_COUNT,
    Reg.KEY_ABORTS_COUNT]

/-- The registers of the block at 0x600000 that are not repeated per unit. -/
def regsXpt : List Fld :=
  [Reg.XPT_QP_CTL_INDEX, Reg.XPT_QP_CTL_EN, Reg.XPT_CFG_MP_OFFER, Reg.XPT_STS_QP_ON, Reg.XPT_STS_BMP_FREE, Reg.XPT_DROP_COUNT]

/-- The registers of the block at 0x800000 that are not repeated per unit. -/
def regsNvt : List Fld :=
  [Reg.NVT_CFG_FWD_EN, Reg.NVT_STS_TAGS_USED, Reg.NVT_FWD_SENT_COUNT, Reg.NVT_FWD_RECV_COUNT, Reg.NVT_FWD_FAIL_COUNT]

/-- The registers of the block at 0xA00000 that are not repeated per unit. -/
def regsMde : List Fld :=
  [Reg.MDE_CFG_RELOC_EN, Reg.MDE_CFG_RUN_PAGES, Reg.MDE_CFG_DEL_RATE, Reg.MDE_STS_REPLAY, Reg.MDE_STS_CP_RUN, Reg.MDE_STS_SPILL_BEHIND,
    Reg.MDE_STS_ID_WAIT, Reg.MDE_STS_REMOTE_HELD, Reg.MDE_STS_CP_HELD, Reg.MDE_STS_DELETING, Reg.MDE_CP_CFG_LOG2_RECORDS,
    Reg.MDE_JSEQ_NEXT_SEQ, Reg.MDE_JSEQ_APPLIED_SEQ, Reg.MDE_JSEQ_SPILLED_SEQ, Reg.MDE_CP_NUM_NUM, Reg.MDE_CP_CUT_SEQ,
    Reg.MDE_CP_BEAT_BEAT, Reg.MDE_ID_FREE_IDS, Reg.MDE_RELOC_CMD_SEGMENT, Reg.MDE_RELOC_STS_QUEUED, Reg.MDE_DISCARDED_COUNT,
    Reg.MDE_LOOKUPS_COUNT, Reg.MDE_INSERTS_COUNT, Reg.MDE_COPIES_COUNT, Reg.MDE_FAULTS_COUNT, Reg.MDE_PAGE_WRITES_COUNT,
    Reg.MDE_RELOCATED_COUNT]

/-- The registers of the block at 0xA80000 that are not repeated per unit. -/
def regsTph : List Fld :=
  [Reg.MDE_TPH_CFG_EN, Reg.MDE_TPH_CFG_BATCH_EN, Reg.MDE_TPH_CFG_BATCH_ACCEPT, Reg.MDE_TPH_CFG_LOAD_WAIT, Reg.MDE_TPH_SIZE_LOG2_BUCKETS,
    Reg.MDE_TPH_BASE_BASE, Reg.MDE_TPH_BATCH_MAX_ENTRIES, Reg.MDE_TPH_STS_ACTIVE, Reg.MDE_TPH_STS_LOADING, Reg.MDE_TPH_STS_MC_USED,
    Reg.MDE_TPH_BATCH_SEQ_SEQ, Reg.MDE_TPH_LOOKUPS_COUNT, Reg.MDE_TPH_HOOKS_COUNT, Reg.MDE_TPH_HOOK_HITS_COUNT, Reg.MDE_TPH_LOADS_COUNT,
    Reg.MDE_TPH_MATCHES_COUNT, Reg.MDE_TPH_VERIFY_FAIL_COUNT, Reg.MDE_TPH_INSERTS_COUNT, Reg.MDE_TPH_INSERT_DROP_COUNT,
    Reg.MDE_TPH_BATCH_SENT_COUNT, Reg.MDE_TPH_BATCH_RECV_COUNT, Reg.MDE_TPH_BATCH_LOST_COUNT, Reg.MDE_TPH_LOAD_TIMEOUT_COUNT]

/-- The registers of the block at 0xAC0000 that are not repeated per unit. -/
def regsRep : List Fld :=
  [Reg.MDE_REP_CFG_BATCH_MAX, Reg.MDE_REP_TIMEOUT_TIMEOUT, Reg.MDE_REP_RETRY_RETRY, Reg.MDE_REP_STS_ACTIVE, Reg.MDE_REP_STS_DIFF_BUSY,
    Reg.MDE_REP_ENTRIES_TX_COUNT, Reg.MDE_REP_GRAINS_TX_COUNT, Reg.MDE_REP_BYTES_TX_BYTES, Reg.MDE_REP_ENTRIES_RX_COUNT,
    Reg.MDE_REP_MATCHED_COUNT, Reg.MDE_REP_NEEDED_COUNT]

/-- The registers of the block at 0xB00000 that are not repeated per unit. -/
def regsMdc : List Fld :=
  [Reg.MDC_CTL_EN, Reg.MDC_CTL_PF_EN, Reg.MDC_STS_STATE, Reg.MDC_STS_START_FAIL, Reg.MDC_STS_HW_STOP, Reg.MDC_STS_STOP_LATE,
    Reg.MDC_STS_FAIL_CODE, Reg.MDC_STS_DRAIN_ERROR, Reg.MDC_STS_LOCKED_WAYS, Reg.MDC_CMD_OP, Reg.MDC_CMD_ENTRY, Reg.MDC_CMD_STS_BUSY,
    Reg.MDC_CMD_STS_CMD_LOST, Reg.MDC_CMD_STS_STATUS, Reg.MDC_CMD_STS_PROGRESS, Reg.MDC_CMD_BASE_BASE, Reg.MDC_CMD_LIMIT_LIMIT,
    Reg.MDC_ERR_ADDR_ADDR, Reg.MDC_ERR_ADDR_LO_VALID, Reg.MDC_ERR_COUNT_LINES, Reg.MDC_HITS_COUNT, Reg.MDC_MISSES_COUNT,
    Reg.MDC_PF_ISSUED_COUNT, Reg.MDC_PF_USED_COUNT, Reg.MDC_WRITEBACKS_COUNT, Reg.MDC_ZERO_LINES_COUNT, Reg.MDC_BYPASS_COUNT,
    Reg.MDC_PF_DROP_COUNT, Reg.MDC_PL_SKIP_COUNT, Reg.MDC_LOCK_INV_COUNT, Reg.MDC_DIRTY_DISCARD_COUNT]

/-- The registers of the block at 0xC00000 that are not repeated per unit. -/
def regsDrv : List Fld :=
  [Reg.DRV_CFG_CMD_TIMEOUT, Reg.DRV_CFG_TIMEOUT_LIMIT, Reg.DRV_STS_ATT_ON, Reg.DRV_STS_RETIRED, Reg.DRV_STS_REBUILDING,
    Reg.DRV_STS_PREEMPT_BUSY, Reg.DRV_STRAP_VAULT_MAP, Reg.DRV_STRAP_LANE_SWAP_D, Reg.DRV_ARRAY_TAG_TAG, Reg.DRV_RESV_GEN_GEN,
    Reg.DRV_PREEMPT_TIMEOUT, Reg.DRV_WIT_CFG_VALID, Reg.DRV_WIT_BASE_LOC, Reg.DRV_WIT_STS_REACH, Reg.DRV_WIT_STS_LAST, Reg.DRV_REBUILD_EN,
    Reg.DRV_REBUILD_RATE, Reg.DRV_REBUILD_DELAY_BEATS, Reg.DRV_REBUILD_POS_SEGMENT, Reg.DRV_REBUILD_LEFT_STRIPS]

/-- The registers of the block at 0xE00000 that are not repeated per unit. -/
def regsCdx : List Fld :=
  [Reg.CDX_CTL_AUTO, Reg.CDX_CTL_WIDEN_EN, Reg.CDX_STS_LINK, Reg.CDX_STS_WIDTH, Reg.CDX_STS_FIRST, Reg.CDX_STS_LANES_OK,
    Reg.CDX_PEER_LANES_OK, Reg.CDX_PEER_SLOT, Reg.CDX_TIMERS_ACK_TIMEOUT, Reg.CDX_TIMERS_NAK_RESEND, Reg.CDX_TIMERS_REPLAY_MAX,
    Reg.CDX_TIMERS_LOSS_TIMEOUT, Reg.CDX_LANE_CFG_LANE_ERR_LIMIT, Reg.CDX_LANE_CFG_LANE_TIMEOUT, Reg.CDX_RETRY_STS_UNACKED,
    Reg.CDX_RETRY_STS_LAST_NAK, Reg.CDX_REMOTE_RECORDS, Reg.CDX_FLITS_TX_COUNT, Reg.CDX_FLITS_RX_COUNT, Reg.CDX_RS_CORR_COUNT,
    Reg.CDX_RS_UNCORR_COUNT, Reg.CDX_REPLAYS_COUNT, Reg.CDX_PKT_BAD_COUNT, Reg.CDX_DOWNS_COUNT, Reg.CDX_HB_SEQ_SEQ]

/-- The registers of the block at 0xF00000 that are not repeated per unit. -/
def regsFov : List Fld :=
  [Reg.FOV_CTL_AUTO_FB, Reg.FOV_CTL_HANDOVER, Reg.FOV_CTL_FAILBACK, Reg.FOV_CTL_UNFENCE, Reg.FOV_CTL_ACCEPT_LOSS, Reg.FOV_CTL_LEAVE,
    Reg.FOV_CFG_HOLDOFF, Reg.FOV_CFG_FENCE_RELEASE, Reg.FOV_CFG_PEER_WAIT, Reg.FOV_CFG_WIT_TRIES, Reg.FOV_CFG2_RESYNC_BATCH,
    Reg.FOV_CFG2_HANDOVER_MARK, Reg.FOV_HANDOVER_LIMIT_BEATS, Reg.FOV_STS_STATE, Reg.FOV_STS_VAULT_HOLD, Reg.FOV_STS_WRITE_HOLD,
    Reg.FOV_STS_CLAIM_OUT, Reg.FOV_STS_CLAIM_IN, Reg.FOV_STS_FENCE_OUT, Reg.FOV_STS_FENCE_IN, Reg.FOV_STS_PULSE_IN, Reg.FOV_STS_RESYNC_SRC,
    Reg.FOV_STS_RESYNC_TGT, Reg.FOV_STS_VAULT_NEEDED, Reg.FOV_STS_HEALTHY, Reg.FOV_STS_FENCE_COUNT, Reg.FOV_STS_FENCE_CAUSE,
    Reg.FOV_LAST_HB_BEAT, Reg.FOV_LAST_PULSE_BEAT, Reg.FOV_LINK_DOWN_BEAT, Reg.FOV_HOME_MASK, Reg.FOV_WIT_GEN_OWN_GEN,
    Reg.FOV_WIT_STS_MODE, Reg.FOV_WIT_STS_DOM_HOLDER, Reg.FOV_WIT_STS_VAULT_ONLY, Reg.FOV_WIT_STS_MAJORITY, Reg.FOV_WIT_STS_ATTEMPTS,
    Reg.FOV_PEER_REFRESH_COUNT, Reg.FOV_HOLDOFF_LEFT_EPOCHS, Reg.FOV_RESYNC_BATCH_BATCH, Reg.FOV_RESYNC_LEFT_ENTRIES,
    Reg.FOV_TAKEOVER_BEATS_BEATS, Reg.FOV_TAKEOVERS_COUNT, Reg.FOV_HANDOVERS_COUNT]

/-- The registers of the block at 0x1000000 that are not repeated per unit. -/
def regsMem : List Fld :=
  [Reg.MEM_STS_DDR_CFG, Reg.MEM_STS_START, Reg.MEM_STS_FAIL_CODE, Reg.MEM_STS_HBM_CLASS, Reg.MEM_STS_DDR_CLASS, Reg.MEM_STS_DDR_GIB,
    Reg.MEM_CLASS_MED_PCT, Reg.MEM_CLASS_FULL_PCT, Reg.MEM_RETRAIN_TEMP_DELTA, Reg.MEM_RETRAIN_EPOCHS, Reg.MEM_PATROL_EN,
    Reg.MEM_PATROL_RATE, Reg.MEM_VAULT_CFG_VLOG_GIB, Reg.MEM_CE_COUNT, Reg.MEM_UE_COUNT, Reg.MEM_ERR_ADDR_ADDR, Reg.MEM_ERR_ADDR_VALID,
    Reg.MEM_GEY_STS_STATE, Reg.MEM_GEY_STS_RESULT, Reg.MEM_GEY_STS_RESTORED, Reg.MEM_GEY_BYTES_BYTES, Reg.MEM_GEY_BEAT_BEAT]

/-- The registers of the block at 0x1200000 that are not repeated per unit. -/
def regsFis : List Fld :=
  [Reg.FIS_CTL_SERVICE, Reg.FIS_CTL_ATTN, Reg.FIS_STS_PHASE, Reg.FIS_STS_SWITCHING, Reg.FIS_STS_STRAP_BAD, Reg.FIS_STS_SLOT_CONFLICT,
    Reg.FIS_STS_BUTTON, Reg.FIS_STRAP_VALUE, Reg.FIS_STRAP_DIR, Reg.FIS_LEVEL_LEVEL, Reg.FIS_LEVEL_DRIVEN, Reg.FIS_GPIO_OE14,
    Reg.FIS_GPIO_OE15, Reg.FIS_GPIO_OUT14, Reg.FIS_GPIO_OUT15, Reg.FIS_LED_DATA_DATA, Reg.FIS_LED_CFG_LEN, Reg.FIS_PHASE_BEAT_BEAT,
    Reg.FIS_PRB_CFG_DIV, Reg.FIS_PRB_CFG_EN]

/-- The registers of the block at 0x1400000 that are not repeated per unit. -/
def regsUpd : List Fld :=
  [Reg.UPD_CTL_DISCARD, Reg.UPD_CFG_CARD_EN, Reg.UPD_CFG_LIVE_TIMEOUT, Reg.UPD_CFG_HANDOFF_LIMIT, Reg.UPD_CFG_COMMIT_LIMIT,
    Reg.UPD_BOOT_SEL_VALID, Reg.UPD_BOOT_SEL_SLOT, Reg.UPD_STS_STAGE, Reg.UPD_STS_HOLDER, Reg.UPD_STS_ACT, Reg.UPD_STS_RUN_SLOT,
    Reg.UPD_STS_FALLBACK, Reg.UPD_STS_CARD, Reg.UPD_STS_SOAK, Reg.UPD_STS_RESULT, Reg.UPD_STS_DETAIL, Reg.UPD_ARM_EPOCH_EPOCH,
    Reg.UPD_REL_RUN_REL, Reg.UPD_REL_STAGED_REL, Reg.UPD_ROLLBACK_COUNT, Reg.UPD_SCHEMA_SCHEMA, Reg.UPD_PKG_LEN_BYTES]

/-- The registers of the block at 0x1500000 that are not repeated per unit. -/
def regsSec : List Fld :=
  [Reg.SEC_CTL_ALARM_CLR, Reg.SEC_STS_LOCKED, Reg.SEC_STS_ACTIVE, Reg.SEC_STS_ALARM_LATCH, Reg.SEC_STS_CLR_REFUSED, Reg.SEC_STS_DBG_STATE,
    Reg.SEC_STS_DUK_BLOCKED, Reg.SEC_STS_CHAL_VALID, Reg.SEC_STS_SCOPE, Reg.SEC_TEMP_NOW, Reg.SEC_TEMP_MAX, Reg.SEC_TEMP_ALARM_AT,
    Reg.SEC_FUSE_KEY_PRESENT, Reg.SEC_FUSE_KEY_REVOKED, Reg.SEC_FUSE_DBG_PRESENT, Reg.SEC_FUSE_BOOT_KEY, Reg.SEC_SERIAL_SERIAL,
    Reg.SEC_ALARM_BEAT_BEAT, Reg.SEC_DBG_BEAT_BEAT, Reg.SEC_JTAG_IR, Reg.SEC_JTAG_REFUSED]

/-- The registers of the block at 0x8080000 that are not repeated per unit. -/
def regsMbx : List Fld :=
  [Reg.MBX_GLB_STS_STEWARD, Reg.MBX_GLB_STS_RESTARTS, Reg.MBX_GLB_STS_TICKETS, Reg.MBX_FW_REL_MINOR, Reg.MBX_FW_REL_MAJOR,
    Reg.MBX_WDOG_TIMEOUT, Reg.MBX_KICK_BEAT]

/-- The registers of slice s. -/
def regsSlice1 (s : Nat) : List Fld :=
  [Reg.SLI_ADM_RATE_RATE s, Reg.SLI_ADM_CAP_CAP s, Reg.SLI_ADM_CMD_CMD s, Reg.SLI_ADM_IN_IN s, Reg.SLI_ADM_OUT_OUT s,
    Reg.SLI_ADM_STS_HELD s, Reg.SLI_ADM_STS_DIRTY_HELD s, Reg.SLI_ADM_STS_WAITING s, Reg.SLI_WPE_CFG_DST_AGE s, Reg.SLI_WPE_STS_DIR_USED s,
    Reg.SLI_WPE_STS_DIR_FULL s, Reg.SLI_WPE_STS_ID_WAIT s, Reg.SLI_WPE_PLACED_COUNT s, Reg.SLI_WPE_RMW_COUNT s,
    Reg.SLI_WPE_REWRITE_COUNT s, Reg.SLI_FPU_WAIT_GRAINS s, Reg.SLI_SNC_CTL_PRESSURE_DOWN s, Reg.SLI_SNC_SLICE_STS_PRESSURED s,
    Reg.SLI_SNC_SLICE_STS_WAITING s, Reg.SLI_ECU_STS_BUSY s, Reg.SLI_ECU_STS_FAULT s, Reg.SLI_ECU_OPEN_SEG_SEGMENT s,
    Reg.SLI_ECU_PARITY_BYTES s, Reg.SLI_ECU_RECON_COUNT s, Reg.SLI_ECU_ROUNDS_COUNT s, Reg.SLI_ECU_UNRECOV_COUNT s,
    Reg.SLI_ECU_RETRY_COUNT s, Reg.SLI_RD_CFG_HEDGE s, Reg.SLI_RD_CFG_REPAIR_EN s, Reg.SLI_RD_STS_INFLIGHT s, Reg.SLI_RD_STS_RBUF_WAIT s,
    Reg.SLI_RD_RBUF_FREE s, Reg.SLI_RD_CAL_HITS_COUNT s, Reg.SLI_RD_FLASH_COUNT s, Reg.SLI_RD_ZERO_COUNT s, Reg.SLI_RD_BYTES_BYTES s,
    Reg.SLI_RD_RECON_COUNT s, Reg.SLI_RD_HEDGED_COUNT s, Reg.SLI_RD_HEDGE_WON_COUNT s, Reg.SLI_RD_FAILED_COUNT s,
    Reg.SLI_RD_REPAIR_COUNT s, Reg.SLI_CTL_EN s, Reg.SLI_STS_STATE s, Reg.SLI_STS_START_FAIL s, Reg.SLI_STS_HW_STOP s,
    Reg.SLI_STS_STOP_LATE s, Reg.SLI_STS_FAIL_CODE s]

/-- The registers of counter block b (R582). -/
def regsPmc1 (b : Nat) : List Fld :=
  [Reg.PMC_BLK_CTL_FREEZE b, Reg.PMC_BLK_CTL_USER_EN b, Reg.PMC_BLK_STS_WRAPPED b, Reg.PMC_BLK_STS_OVF b, Reg.PMC_BLK_STS_LOST_CARRY b,
    Reg.PMC_CYCLE_CYCLE b, Reg.PMC_SMP_STS_SAMPLE_VALID b, Reg.PMC_SMP_STS_COUNTER b, Reg.PMC_SMP_STS_SAMPLE_LOST b, Reg.PMC_SMP_STS_TAG b,
    Reg.PMC_SMP_QP_QP b, Reg.PMC_SMP_OVF_OVF_BEAT b, Reg.PMC_SMP_DLV_DLV_BEAT b, Reg.PMC_SNAP_EPOCH_EPOCH b, Reg.PMC_SNAP_CYCLE_CYCLE b]

/-- The registers of counter n of block b. -/
def regsPmc2 (b n : Nat) : List Fld :=
  [Reg.PMC_CFG_EVENT b n, Reg.PMC_CFG_EN b n, Reg.PMC_CFG_CHAIN b n, Reg.PMC_CFG_SAMPLE b n, Reg.PMC_CFG_THRESH b n, Reg.PMC_CNT_COUNT b n,
    Reg.PMC_RELOAD_RELOAD b n, Reg.PMC_SNAP_CNT_COUNT b n]

/-- The registers of host port p (R70). -/
def regsPort (p : Nat) : List Fld :=
  [Reg.HPT_CTL_EN p, Reg.HPT_CTL_AN_EN p, Reg.HPT_CTL_LT_EN p, Reg.HPT_CTL_LOOP p, Reg.HPT_STS_STATE p, Reg.HPT_STS_START_FAIL p,
    Reg.HPT_STS_HW_STOP p, Reg.HPT_STS_STOP_LATE p, Reg.HPT_STS_FAIL_CODE p, Reg.HPT_STS_LINK p, Reg.HPT_STS_SPEED p, Reg.HPT_CFG_PMD p,
    Reg.HPT_CFG_LINK_TIMEOUT p, Reg.HPT_MTU_MAX_FRAME p, Reg.HPT_MAC_MAC p, Reg.HPT_PFC_PFC_EN p, Reg.HPT_PFC_PRIO_A p,
    Reg.HPT_PFC_PRIO_B_EN p, Reg.HPT_PFC_PRIO_B p, Reg.HPT_PFC_XOFF_KIB p, Reg.HPT_PFC_XON_KIB p, Reg.HPT_PFC_TIME_PAUSE_QUANTA p,
    Reg.HPT_PFC_TIME_REFRESH p, Reg.HPT_PFC_WD_PFC_WD p, Reg.HPT_FEC_CORR_COUNT p, Reg.HPT_FEC_UNCORR_COUNT p, Reg.HPT_RX_DROP_COUNT p,
    Reg.HPT_ICRC_DROP_COUNT p]

/-- The registers of drive port p (R411). -/
def regsDrvPort (p : Nat) : List Fld :=
  [Reg.DRV_PORT_CTL_MODE p, Reg.DRV_PORT_CTL_PERST p, Reg.DRV_PORT_STS_PERST_ASSERTED p, Reg.DRV_PORT_STS_VAULT p,
    Reg.DRV_PORT_STS_PERST_REFUSED p, Reg.DRV_PORT_CFG_SRIS p, Reg.DRV_PORT_CFG_PERST_HOLD p, Reg.DRV_PORT_LINK_LINK_TIMEOUT p]

/-- The registers of attach point a (R412). -/
def regsAtt (a : Nat) : List Fld :=
  [Reg.DRV_ATT_CTL_EN a, Reg.DRV_ATT_CTL_DATA_EN a, Reg.DRV_ATT_CTL_META_EN a, Reg.DRV_ATT_CTL_PLACEMENT a, Reg.DRV_ATT_CTL_RETIRE a,
    Reg.DRV_ATT_CTL_OPEN_ZONES a, Reg.DRV_ATT_STS_STATE a, Reg.DRV_ATT_STS_START_FAIL a, Reg.DRV_ATT_STS_HW_STOP a,
    Reg.DRV_ATT_STS_STOP_LATE a, Reg.DRV_ATT_STS_FAIL_CODE a, Reg.DRV_ATT_STS_PRESENT a, Reg.DRV_ATT_STS_RETIRED a,
    Reg.DRV_ATT_STS_REBUILT a, Reg.DRV_ATT_STS_FLIT a, Reg.DRV_ATT_STS_SPEED a, Reg.DRV_ATT_STS_WIDTH a, Reg.DRV_ATT_STS_RESV_OK a,
    Reg.DRV_ATT_NSID_NSID a, Reg.DRV_ATT_INFL_INFLIGHT a, Reg.DRV_ATT_INFL_IOQ a, Reg.DRV_ATT_STRIPS_TOTAL a, Reg.DRV_ATT_FREE_FREE a,
    Reg.DRV_ATT_CMDS_COUNT a, Reg.DRV_ATT_TIMEOUTS_COUNT a, Reg.DRV_ATT_READ_ERR_COUNT a, Reg.DRV_ATT_WRITE_ERR_COUNT a]

/-- The registers of lane l (R464). -/
def regsLane (l : Nat) : List Fld :=
  [Reg.CDX_LANE_CTL_EN l, Reg.CDX_LANE_STS_STATE l, Reg.CDX_LANE_STS_START_FAIL l, Reg.CDX_LANE_STS_HW_STOP l,
    Reg.CDX_LANE_STS_STOP_LATE l, Reg.CDX_LANE_STS_FAIL_CODE l, Reg.CDX_LANE_STS_SIGNAL l, Reg.CDX_LANE_STS_ALIGNED l,
    Reg.CDX_LANE_STS_USED l, Reg.CDX_LANE_STS_INVERTED l, Reg.CDX_LANE_CORR_COUNT l]

/-- The registers of lock entry n (R359). -/
def regsLock (n : Nat) : List Fld :=
  [Reg.MDC_LOCK_BASE_BASE n, Reg.MDC_LOCK_LIMIT_LIMIT n, Reg.MDC_LOCK_WAYS_WAYS n, Reg.MDC_LOCK_STS_ACTIVE n]

/-- The registers of mailbox channel c (R530). -/
def regsChan (c : Nat) : List Fld :=
  [Reg.MBX_DB_SEQ c, Reg.MBX_STS_STATE c, Reg.MBX_STS_DB_LOST c, Reg.MBX_STS_WR_LOST c, Reg.MBX_STS_RESTARTED c, Reg.MBX_REQ_SEQ_SEQ c,
    Reg.MBX_RESP_SEQ_SEQ c, Reg.MBX_CTL_IRQ_EN c, Reg.MBX_DB_BEAT_BEAT c]

/-- The routing register of event source n (R579). -/
def regsRoute (n : Nat) : List Fld :=
  [Reg.EVC_ROUTE_MSIX_EN n, Reg.EVC_ROUTE_STEW_EN n, Reg.EVC_ROUTE_FUM_EN n, Reg.EVC_ROUTE_FAULT_EN n, Reg.EVC_ROUTE_SEV n,
    Reg.EVC_ROUTE_VECTOR n]

/-- The registers of unit u of slice s, FPU. -/
def regsFpu (s u : Nat) : List Fld :=
  [Reg.SLI_FPU_STS_BUSY s u, Reg.SLI_FPU_STS_FAULT s u, Reg.SLI_FPU_GRAINS_COUNT s u]

/-- The registers of unit u of slice s, SNC. -/
def regsSnc (s u : Nat) : List Fld :=
  [Reg.SLI_SNC_STS_BUSY s u, Reg.SLI_SNC_STS_FAULT s u, Reg.SLI_SNC_STS_LEVEL s u, Reg.SLI_SNC_IN_BYTES s u, Reg.SLI_SNC_OUT_BYTES s u,
    Reg.SLI_SNC_RAW_COUNT s u]

/-- The registers of unit u of slice s, SND. -/
def regsSnd (s u : Nat) : List Fld :=
  [Reg.SLI_SND_STS_BUSY s u, Reg.SLI_SND_STS_FAULT s u, Reg.SLI_SND_OUT_BYTES s u, Reg.SLI_SND_CRC_FAIL_COUNT s u,
    Reg.SLI_SND_MALFORMED_COUNT s u]

/-- The registers of unit u of slice s, GCM. -/
def regsGcm (s u : Nat) : List Fld :=
  [Reg.SLI_GCM_STS_BUSY s u, Reg.SLI_GCM_STS_FAULT s u, Reg.SLI_GCM_STS_SERVING_BOTH s u, Reg.SLI_GCM_BYTES_BYTES s u,
    Reg.SLI_GCM_JOBS_COUNT s u, Reg.SLI_GCM_TAG_FAIL_COUNT s u, Reg.SLI_GCM_ABORTED_COUNT s u, Reg.SLI_GCM_RETRY_COUNT s u]

/-! ### The fields at an address (R15, R16) -/

/-- Which of a row of units `n`, `size` bytes each from `base`, holds offset `a`; `f` gives its fields. -/
def unitAt (a base size n : Nat) (f : Nat → List Fld) : List Fld :=
  if base ≤ a ∧ a < base + size * n then f ((a - base) / size) else []

/-- R16: the fields of slice s that lie near offset `o` of its range. -/
def sliceFields (s o : Nat) : List Fld :=
  unitAt o 0x04_0000 0x1000 16 (regsFpu s) ++ unitAt o 0x06_0000 0x4000 4 (regsSnc s) ++ unitAt o 0x08_0000 0x4000 4 (regsSnd s) ++
    unitAt o 0x0A_0000 0x8000 2 (regsGcm s) ++ unitAt o 0x18_0100 0x10 8 (regsPmc2 (1 + s)) ++
    (if 0x18_0000 ≤ o then regsPmc1 (1 + s) ++ unitAt o 0x18_0410 4 8 (fun n => [Reg.PMC_SNAP_CNT_COUNT (1 + s) n]) else regsSlice1 s)

/-- R15: the fields of the register blocks of BAR0, and of BAR2 after it, among which are all those that hold a bit at offset `a`. -/
def fieldsAt (a : Nat) : List Fld :=
  if 0x200_0000 ≤ a ∧ a < 0x300_0000 then sliceFields ((a - 0x200_0000) / 0x20_0000) ((a - 0x200_0000) % 0x20_0000)
  else if a < 0x1000 then regsGlb
  else if a < 0x010_0000 then []
  else if a < 0x010_1000 then
    regsEvc ++ unitAt a 0x010_0100 4 64 (fun i => (List.range 32).map (fun j => Reg.EVC_PEND (32 * i + j)))
  else if a < 0x020_0000 then unitAt a 0x010_1000 4 2048 regsRoute
  else if a < 0x030_0000 then regsFum
  else if a < 0x040_0000 then
    regsPmc1 0 ++ unitAt a 0x030_0100 0x10 8 (regsPmc2 0) ++ unitAt a 0x030_0410 4 8 (fun n => [Reg.PMC_SNAP_CNT_COUNT 0 n])
  else if a < 0x050_0000 then regsKey ++ unitAt a 0x040_0010 4 8 (fun i => [Reg.KEY_LOAD_K i])
  else if a < 0x060_0000 then
    (List.range 4).map Reg.HPT_QUAD_MODE ++ unitAt a 0x050_1000 0x1000 16 regsPort
  else if a < 0x080_0000 then regsXpt
  else if a < 0x0A0_0000 then
    regsNvt ++ unitAt a 0x080_0010 4 8 (fun i => (List.range 8).map (fun j => Reg.NVT_ANA (8 * i + j))) ++
      unitAt a 0x080_0030 4 2 (fun i => (List.range 32).map (fun j => Reg.NVT_ANA_OWN (32 * i + j)))
  else if a < 0x0A8_0000 then regsMde
  else if a < 0x0AC_0000 then regsTph
  else if a < 0x0B0_0000 then regsRep
  else if a < 0x0C0_0000 then regsMdc ++ unitAt a 0x0B0_0100 0x20 12 regsLock
  else if a < 0x0E0_0000 then
    (if a < 0x0C0_1000 then regsDrv ++ (List.range 3).map Reg.DRV_WIT_CFG_WIT else []) ++ unitAt a 0x0C0_1000 0x40 32 regsDrvPort ++
      unitAt a 0x0C4_0000 0x400 128 regsAtt
  else if a < 0x0F0_0000 then regsCdx ++ unitAt a 0x0E0_1000 0x40 16 regsLane
  else if a < 0x100_0000 then regsFov
  else if a < 0x120_0000 then regsMem
  else if a < 0x140_0000 then regsFis ++ unitAt a 0x120_0100 4 6 (fun n => [Reg.FIS_PRB_SEL_POINT n])
  else if a < 0x150_0000 then
    regsUpd ++ unitAt a 0x140_0040 4 12 (fun i => [Reg.UPD_DIGEST i]) ++ unitAt a 0x140_0080 4 12 (fun i => [Reg.UPD_PEER_DIGEST i])
  else if a < 0x160_0000 then regsSec ++ unitAt a 0x150_0030 4 4 (fun i => [Reg.SEC_CHAL i])
  else if a < Reg.bar2 then []
  else if a < Reg.bar2 + 0x8_0000 then unitAt a Reg.bar2 0x1_0000 8 regsChan
  else if a < Reg.bar2 + 0xC_0000 then regsMbx
  else if a < Reg.bar2 + 0xD_0000 then
    unitAt a (Reg.bar2 + 0xC_0000) 16 2048 (fun v => [msixAddr v, msixData v, msixMask v])
  else unitAt a (Reg.bar2 + 0xD_0000) 4 64 (fun i => (List.range 32).map (fun j => msixPba (32 * i + j)))

/-! ### A 32-bit access -/

/-- The bits that field f shares with the 32-bit register at offset `a`: their lowest bit in the field and in the register, and how many. -/
def Fld.share (f : Fld) (a : Nat) : Nat × Nat × Nat :=
  let lo := max f.key (8 * a)
  let hi := min (f.key + f.w) (8 * a + 32)
  (lo - f.key, lo - 8 * a, hi - lo)

/-- Field f has bits in the 32-bit register at offset `a`. -/
def Fld.inWord (f : Fld) (a : Nat) : Bool := decide (f.key < 8 * a + 32) && decide (8 * a < f.key + f.w)

/-- R5: the value of a field of width n after the bits `v` are written to it where `m` is set, by its access type. -/
def Acc.write (t : Acc) (old v m : Nat) : Nat :=
  match t with
  | .ro => old
  | .rw => (old - Nat.land old m) + Nat.land v m
  | .wo => (old - Nat.land old m) + Nat.land v m
  | .w1c => old - Nat.land old (Nat.land v m)
  | .w1s => Nat.lor old (Nat.land v m)

/-- R5: what a write of `val` at offset `a`, where the bits of `mask` count, does to field f. -/
def Dev.writeField (d : Dev) (a val mask : Nat) (f : Fld) : Dev :=
  let x := f.share a
  let part (v : Nat) : Nat := v / 2 ^ x.2.1 % 2 ^ x.2.2 * 2 ^ x.1
  d.setFld f (f.acc.write (d.fld f) (part val) (part mask))

/-- R5: a 32-bit write to the register at offset `a`. An offset that holds no register is ignored (R7). -/
def Dev.writeWord (d : Dev) (a val mask : Nat) : Dev :=
  d.each ((fieldsAt a).filter (fun f => f.inWord a)) (fun f d => d.writeField a val mask f)

/-- The value of the register at offset `a` as its fields hold it. A WO field returns 0 (R5). -/
def Dev.fieldWord (d : Dev) (a : Nat) : Nat :=
  ((fieldsAt a).filter (fun f => f.inWord a && decide (f.acc ≠ .wo))).foldl
    (fun v f => v + d.fld f / 2 ^ (f.share a).1 % 2 ^ (f.share a).2.2 * 2 ^ (f.share a).2.1) 0

end Sys2Proof.Machine
end

