-- ==== Sys2Proof/Machine/Windows.lean ====
section
/-! DEFINITION. The register windows of R25 to R27: which entry each one reads, and how it is captured. -/
namespace Sys2Proof.Machine

/-- Where a window's registers begin, the offset of its first data register from there, and the width of INDEX. -/
def winPlace (w : WinId) : Nat × Nat × Nat :=
  match w with
  | .ctx => (0x060_0000, 0x40, 14)
  | .bmp => (0x060_0200, 0x40, 14)
  | .mr => (0x060_0300, 0x40, 10)
  | .tag => (0x080_0100, 0x40, 16)
  | .ns => (0x080_0200, 0x40, 15)
  | .dir s => (Reg.sliceBase s + 0x02_0100, 0x40, 20)
  | .red => (0x0A8_0200, 0x40, 15)
  | .keySlot => (0x040_0100, 0x40, 12)
  | .layout => (0x330, 0x10, 12)
  | .tree => (0x0A0_0100, 0x40, 21)
  | .grainRec => (0x0A0_0200, 0x40, 32)
  | .seg => (0x0A0_0300, 0x40, 32)
  | .hwm => (0x0A0_0500, 0x40, 13)
  | .mdcTag => (0x0B0_0300, 0x40, 18)
  | .drvCmd => (0x0C8_0000, 0x40, 15)
  | .drvPreempt => (0x0C9_0000, 0x40, 7)
  | .rep => (0x0AC_0100, 0x40, 8)
  | .memCh => (0x100_0100, 0x40, 7)

/-- The windows, with one directory window for each slice. -/
def allWins : List WinId :=
  [.ctx, .bmp, .mr, .tag, .ns, .red, .keySlot, .layout, .tree, .grainRec, .seg, .hwm, .mdcTag, .drvCmd, .drvPreempt, .rep, .memCh] ++
    (List.range 8).map WinId.dir

/-- A window's registers are kept under the offset at which they begin. -/
def Dev.win (d : Dev) (w : WinId) : WinRec := tget {} d.wins (winPlace w).1
def Dev.updWin (d : Dev) (w : WinId) (f : WinRec → WinRec) : Dev := { d with wins := tupd {} d.wins (winPlace w).1 f }

/-! ### The entries -/

/-- A number as two words, low word first. -/
def words2 (n : Nat) : List Nat := [n % 2 ^ 32, n / 2 ^ 32 % 2 ^ 32]

/-- The 32-bit words of a byte string. -/
def wordsOf (bs : List Byte) : List Nat := (List.range (bs.length / 4)).map (fun i => leField bs (4 * i) 4)

def bitAt (b : Bool) (n : Nat) : Nat := if b then 2 ^ n else 0

/-- R17: STATE to FAIL_CODE as a status register holds them. -/
def UnitRec.sts (u : UnitRec) : Nat := u.state.code + bitAt u.startFail 4 + bitAt u.hwStop 5 + bitAt u.stopLate 6 + 2 ^ 8 * u.failCode

def XState.code : XState → Nat
  | .reset => 0 | .init => 1 | .rtr => 2 | .rts => 3 | .error => 6

/-- R100: one path's three words. -/
def PathRec.words (p : PathRec) : List Nat :=
  [p.txNext.toNat + 2 ^ 24 * p.port + bitAt p.up 28, p.txUna.toNat + 2 ^ 24 * p.retryLeft, p.rxEpsn.toNat]

/-- R100: a context entry. -/
def Dev.ctxWords (d : Dev) (q : Nat) : List Nat :=
  let c := d.ctx q
  let wait := (d.work q).sendQ.head?.bind (fun (w : WorkItem) => w.wait)
  let held := match wait with
    | some (m, n) => !waitHolds (d.ctx m).cc n
    | none => false
  [bitAt c.unit.en 0 + 2 * c.cls + 2 ^ 4 * home q + 2 ^ 8 * c.port + bitAt c.mp 12 + 2 ^ 13 * c.npath + bitAt c.attrValid 15 + 2 ^ 16 * c.incarn,
   c.unit.sts + 2 ^ 16 * c.xstate.code + bitAt held 20,
   c.destQpn.toNat + 2 ^ 24 * c.pmtu,
   c.ackTo + 2 ^ 5 * c.retryCnt + 2 ^ 8 * c.rnrRetry + 2 ^ 11 * c.rnrTimer + 2 ^ 16 * (c.rdMax % 16) + 2 ^ 20 * c.pd,
   c.sqPsn.toNat, c.sqUna.toNat + 2 ^ 24 * c.retryLeft + 2 ^ 27 * c.rnrLeft, c.rqEpsn.toNat, c.creditTx + 2 ^ 16 * c.rqFree,
   c.rqSlots + 2 ^ 16 * c.rdOut, c.cc.toNat, (wait.map (fun (x : Nat × Word) => x.2.toNat)).getD 0,
   (wait.map (fun (x : Nat × Word) => x.1)).getD 0 + bitAt wait.isSome 15, c.msn.toNat,
   c.msgTxNext.toNat + 2 ^ 16 * c.msgTxAck.toNat, c.msgRxBase.toNat + 2 ^ 16 * c.msgRxInfl, c.rate] ++
    c.path0.words ++ c.path1.words ++ c.path2.words ++ c.path3.words ++ [0, 0, 0, 0]

def MrState.code : MrState → Nat
  | .free => 0 | .valid => 1 | .revoking => 2

def TagState.code : TagState → Nat
  | .free => 0 | .running => 1 | .completing => 2

/-- R141: a tag entry. NLB is zero-based. -/
def Dev.tagEntry (d : Dev) (t : Nat) : List Nat :=
  let x := d.tag t
  let c (f : HostCmd → Nat) : Nat := (x.cmd.map f).getD 0
  [x.state.code + bitAt x.fwdOut 2 + bitAt x.fwdIn 3 + 2 ^ 8 * c (fun c => c.opcode % 256) + 2 ^ 16 * c (fun c => c.cid.toNat),
   (if x.fwdIn then 0 else c (fun c => c.qp % 2 ^ 14)) + 2 ^ 16 * x.vol] ++ words2 x.beat ++ words2 (c (fun c => c.slba)) ++
    [c (fun c => (c.nlb - 1) % 2 ^ 32)]

/-- R141: a namespace entry, 28 bytes. -/
def Dev.nsWords (d : Dev) (v : Nat) : List Nat :=
  let n := d.vol v
  [bitAt n.valid 0 + bitAt n.lbaf 1 + bitAt n.roVol 2 + 2 ^ 4 * n.anaGrp + 2 ^ 16 * n.subsys, n.nsid] ++ words2 n.size ++
    [n.resv.rtype + bitAt n.resv.ptpl 3 + 2 ^ 16 * n.resv.holder, n.resv.regs.length, n.resv.gen.toNat]

/-- R215: the RED byte of a volume's reduction settings. -/
def VolRed.code (v : VolRed) : Nat := bitAt v.dedup 0 + bitAt v.verify 1 + bitAt v.comp 2 + 2 ^ 4 * v.level

def LState.code : LState → Nat
  | .opened => 0 | .closed => 1 | .writing => 2 | .written => 3

/-- R303: an in-flight entry. A strip has 512 units. -/
def Dev.layWords (d : Dev) (i : Nat) : List Nat :=
  let x := tget {} d.lay.segs i
  if x.seg = 0 then [0, 0, 0, 0, 0, 0]
  else
    [x.seg, x.state.code + bitAt x.ownPass 3 + 2 ^ 4 * x.k + 2 ^ 9 * x.m + bitAt x.isMeta 12 + 2 ^ 13 * x.slice + 2 ^ 16 * (512 * x.strip + x.unit)] ++
      words2 x.openBeat ++ words2 x.stateBeat

def SegState.code : SegState → Nat
  | .free => 0 | .live => 1 | .relocating => 2 | .reclaiming => 3

def DState.code : DState → Nat
  | .waiting => 1 | .issued => 2 | .timedOut => 3

/-- R413: the command in slot i of drive a; a waiting command stands in a slot that no command issued holds, in the order in which the
commands wait. -/
def Dev.cmdAt (d : Dev) (a i : Nat) : Option DrvCmd :=
  match d.slotCmd a i with
  | some c => some c
  | none =>
    let before := ((List.range i).filter (fun j => (d.slotCmd a j).isNone)).length
    ((d.drv.queue.filter (fun e => decide (e.1 = a)))[before]?).map (·.2)

/-- R413: a command entry. -/
def Dev.cmdWords (d : Dev) (k : Nat) : List Nat :=
  match d.cmdAt (k / 256) (k % 256) with
  | none => [0, 0, 0, 0, 0, 0]
  | some c =>
    [c.state.code + 2 ^ 2 * (if c.cls ≤ 5 then c.cls else 0) + 2 ^ 5 * c.queue + 2 ^ 8 * c.op + 2 ^ 16 * c.cid] ++ words2 c.issued ++
      words2 c.lba ++ [c.nlb - 1]

/-- R435: a session entry. -/
def Dev.repWords (d : Dev) (i : Nat) : List Nat :=
  let s := d.sess i
  [s.state.code + bitAt s.target 3 + 2 ^ 16 * s.qp, s.srcVol + 2 ^ 16 * s.dstVol] ++ words2 s.session ++ words2 s.baseGen ++ words2 s.newGen ++
    words2 s.cursor ++ [s.batch, s.slots.length + 2 ^ 16 * s.reason]

/-- The entry that a window's INDEX names, or none beyond the table (R25). -/
def Dev.winEntry (d : Dev) (w : WinId) (i hi : Nat) : Option (List Nat) :=
  match w with
  | .ctx => some (d.ctxWords i)
  | .bmp =>
    let b := d.bitmap i
    some ([b.qp + bitAt b.valid 15 + 2 ^ 16 * b.msgId.toNat, b.pktLast] ++ (List.range 8).map (fun k => b.bits / 2 ^ (32 * k) % 2 ^ 32))
  | .mr =>
    let r := d.region i
    some ([r.state.code + bitAt r.write 2 + 2 ^ 8 * r.tag + 2 ^ 16 * r.pd] ++ words2 r.base ++ [r.len, r.inflight % 256])
  | .tag => some (d.tagEntry i)
  | .ns => some (d.nsWords i)
  | .dir s => some (dirWords (d.dir s i))
  | .red => some [(d.volRed i).code]
  | .keySlot => some (d.slotWords i)
  | .layout => some (d.layWords i)
  | .tree => if i < 32768 + 1048576 then some (wordsOf (d.treeBytes i)) else none
  | .grainRec => some (wordsOf (d.grec (2 ^ 32 * hi + i)).bytes)
  | .seg =>
    let x := d.segEnt i
    some ((x.state.code + 2 ^ 16 * x.live) :: (List.range 64).map (fun k => leField x.desc (4 * k) 4))
  | .hwm =>
    let m := tget {} d.mde.marks i
    some (m.gen :: words2 m.mark)
  | .mdcTag => some (d.tagWords i)
  | .drvCmd => some (d.cmdWords i)
  | .drvPreempt =>
    let p := tget {} d.drv.pre i
    some ((p.result + 2 ^ 8 * p.status) :: words2 p.key)
  | .rep => some (d.repWords i)
  | .memCh =>
    let c := d.memCh i
    if i < 76 then
      some [c.state + 2 ^ 2 * c.cls + 2 ^ 8 * (c.temp % 256) + 2 ^ 16 * (c.now % 256) + 2 ^ 24 * c.fails, c.epoch % 2 ^ 32, c.ce, c.cal % 256 + 2 ^ 8 * c.repairs]
    else none

/-! ### The commands (R26) -/

/-- WIN_IDX_WRITE, R26: READY and BAD_INDEX are cleared, and a capture of this index is due at the next edge. The bits above INDEX
are RSV. -/
def Dev.winIdx (d : Dev) (w : WinId) (idx : Nat) : Dev :=
  d.updWin w (fun r => { r with idx := idx % 2 ^ (winPlace w).2.2, req := true, ready := false, bad := false })

def execWinIdxWrite (w : WinId) (idx : Word) (s : State) : Ans := lift (fun d => d.winIdx w idx.toNat) s

/-- WINDOW_CAPTURE, R26: the entry as it stands is copied; beyond the table READY and BAD_INDEX are set together and the data
registers read 0. -/
def Dev.winCapture (d : Dev) (w : WinId) : Dev :=
  let r := d.win w
  if !r.req then d
  else
    let e := d.winEntry w r.idx r.idxHi
    d.updWin w (fun r => { r with req := false, ready := true, bad := e.isNone, beat := d.beat, data := e.getD [] })

def execWindowCapture (w : WinId) (s : State) : Ans := lift (fun d => d.winCapture w) s

end Sys2Proof.Machine
end

