-- ==== Sys2Proof/Machine/RegWrite.lean ====
section
/-! DEFINITION. REGISTER_WRITE (R5, R7): what a 32-bit or 64-bit write through a base address register does, register by register. -/
namespace Sys2Proof.Machine

/-- Bit n of a value. -/
def wbit (v n : Nat) : Bool := Nat.testBit v n

/-! ### Registers that are more than their fields -/

/-- R57: a write of SLI_ADM_CAP clips a budget above it at the same edge. Budgets are 32-bit two's complement. -/
def Dev.clipBudgets (d : Dev) (s : Nat) : Dev :=
  let cap := d.fld (Reg.SLI_ADM_CAP_CAP s)
  d.each [Reg.SLI_ADM_IN_IN s, Reg.SLI_ADM_OUT_OUT s] (fun f d => d.cond (decide (d.fld f < 2 ^ 31 ∧ cap < d.fld f)) (fun d => d.setFld f cap))

/-- The unit whose control register lies at offset `a`. -/
def unitCtlAt (a : Nat) : Option UnitId :=
  if 0x200_0000 ≤ a ∧ a < 0x300_0000 ∧ (a - 0x200_0000) % 0x20_0000 = 0 then some (.slice ((a - 0x200_0000) / 0x20_0000))
  else if 0x050_1000 ≤ a ∧ a < 0x051_1000 ∧ a % 0x1000 = 0 then some (.port ((a - 0x050_1000) / 0x1000))
  else if a = 0x0B0_0000 then some .mdc
  else if 0x0C4_0000 ≤ a ∧ a < 0x0C6_0000 ∧ a % 0x400 = 0 then some (.att ((a - 0x0C4_0000) / 0x400))
  else if 0x0E0_1000 ≤ a ∧ a < 0x0E0_1400 ∧ a % 0x40 = 0 then some (.lane ((a - 0x0E0_1000) / 0x40))
  else none

/-- A unit's control register: EN and its other fields (R18), and for an attach point RETIRE (R407). -/
def Dev.ctlWord (d : Dev) (u : UnitId) (v : Nat) : Dev :=
  let d1 := d.writeCtl u v
  match u with
  | .att a => d1.cond (wbit v 12 != d1.flag (Reg.DRV_ATT_CTL_RETIRE a)) (fun d => d.retireWrite a (wbit v 12))
  | _ => d1

/-- The window whose WIN_IDX lies at offset `a`. -/
def winIdxAt (a : Nat) : Option WinId := allWins.find? (fun w => decide ((winPlace w).1 = a))

/-- The commands of the metadata cache (R351). -/
def mdcOps : List MdcOp := [.flush, .flushInv, .invalidate, .prefetchLock, .lockSet, .lockClear, .zeroLine]

/-- FOV_CTL: AUTO_FB and the five commands (R485, R483, R493, R494). -/
def Dev.fovCtlWord (d : Dev) (v : Nat) : Dev :=
  let d1 := d.setFlag Reg.FOV_CTL_AUTO_FB (wbit v 0)
  let d2 := d1.cond (wbit v 1) Dev.handoverCtl
  let d3 := d2.cond (wbit v 2) Dev.failback
  let d4 := d3.cond (wbit v 3) (fun d => d.fenceRelease 1)
  let d5 := d4.cond (wbit v 4) Dev.acceptLoss
  d5.cond (wbit v 5) Dev.fovLeave

/-- FUM_CTL: FLUSH, RESUME and NOR_RETRY (R572, R576, R577). -/
def Dev.fumCtlWord (d : Dev) (v : Nat) : Dev :=
  let d1 := d.cond (wbit v 0) (fun d => (d.setFld Reg.FUM_CTL_FLUSH 1).fumTrigger)
  (d1.cond (wbit v 1) Dev.fumResume).cond (wbit v 2) Dev.norRetry

/-- FUM_STS: clearing LG_VALID frees the last-gasp bank, and PIN_VALID the pin store (R576, R577, R580). -/
def Dev.fumStsWord (d : Dev) (v : Nat) : Dev :=
  let d1 := d.cond (wbit v 4) (fun d => { d.setFld Reg.FUM_STS_LG_VALID 0 with fum := { d.fum with lg := [] } })
  (d1.cond (wbit v 5) (fun d => { d.setFld Reg.FUM_STS_PIN_VALID 0 with fum := { d.fum with pin := [] } })).fumMark

/-- R302: a geometry that is out of range is ignored: K is 1 to 28, and M 1 to 4. -/
def geomOk (v : Nat) : Bool := decide (1 ≤ v % 32 ∧ v % 32 ≤ 28 ∧ 1 ≤ v / 2 ^ 8 % 8 ∧ v / 2 ^ 8 % 8 ≤ 4)

/-- The counter block that holds offset `a`, and the offset in it (R582). -/
def pmcAt (a : Nat) : Option (Nat × Nat) :=
  if 0x030_0000 ≤ a ∧ a < 0x030_1000 then some (0, a - 0x030_0000)
  else if 0x200_0000 ≤ a ∧ a < 0x300_0000 ∧ 0x18_0000 ≤ (a - 0x200_0000) % 0x20_0000 ∧ (a - 0x200_0000) % 0x20_0000 < 0x18_1000 then
    some (1 + (a - 0x200_0000) / 0x20_0000, (a - 0x200_0000) % 0x20_0000 - 0x18_0000)
  else none

/-- A counter, itself or as half of a pair register, at offset `o` of its block (R590, R591). -/
def pmcCounterAt (o : Nat) : Option Nat :=
  if 0x100 ≤ o ∧ o < 0x180 ∧ o % 16 = 4 then some ((o - 0x100) / 16)
  else if 0x200 ≤ o ∧ o < 0x220 ∧ o % 4 = 0 then some ((o - 0x200) / 4)
  else none

/-- A drive port's control register: MODE and PERST (R387, R392). -/
def Dev.drvPortWord (d : Dev) (p v : Nat) : Dev := (d.portMode p (v % 4)).cond (wbit v 4) (fun d => d.perst p)

/-- R217: a table size that cannot be used raises its event. -/
def Dev.tphSizeWord (d : Dev) (v : Nat) : Dev :=
  let n := v % 64
  (d.setFld Reg.MDE_TPH_SIZE_LOG2_BUCKETS n).cond (decide (n < 16 ∨ 32 < n)) (fun d => d.raise 1027 n 0 0)

/-- R529, R537: bytes written to a request buffer are stored, or ignored with WR_LOST while the channel is QUEUED or RUNNING. A buffer has
4 KiB. -/
def Dev.requestBuf (d : Dev) (off : Nat) (bs : List Byte) : Dev :=
  let c := off / 0x1_0000
  if 8 ≤ c ∨ 0x1000 < off % 0x1_0000 + bs.length then d
  else if d.fld (Reg.MBX_STS_STATE c) = 1 ∨ d.fld (Reg.MBX_STS_STATE c) = 2 then d.setFld (Reg.MBX_STS_WR_LOST c) 1
  else { d with mbx := { d.mbx with mem := writeBytes d.mbx.mem off bs } }

/-- REQUEST_BUFFER_WRITE, R537. -/
def execRequestBufferWrite (off : Nat) (bs : List Byte) (s : State) : Ans := lift (fun d => d.requestBuf off bs) s

/-- DOORBELL, R535: a write to MBX_DB takes effect at the next beat edge; of several in one beat the last counts. -/
def Dev.doorbell (d : Dev) (c seq : Nat) : Dev :=
  { d with
    edge := d.edge.filter (fun x => match x with
      | .doorbell c' _ => decide (c' ≠ c)
      | _ => true) ++ [EdgeAct.doorbell c seq] }

def execDoorbell (c : Nat) (seq : Word) (s : State) : Ans := lift (fun d => d.doorbell (c % 8) seq.toNat) s

/-- The MSI-X table: a message is sent once its vector is unmasked (R564). -/
def Dev.msixWord (d : Dev) (a v : Nat) : Dev :=
  let n := (a - (Reg.bar2 + 0xC_0000)) / 16
  let d1 := d.writeWord a v (2 ^ 32 - 1)
  d1.cond (decide (a % 16 = 12) && !wbit v 0) (fun d => d.vectorUnmask n)

/-! ### One 32-bit write -/

/-- Registers whose write takes effect at the next beat edge: GLB_MODE (R588), SLI_ADM_RATE, CAP and CMD (R57), GLB_RD_CFG (R381), the
routing registers (R565), and the probe selects (R651). -/
def edgeReg (a : Nat) : Bool :=
  decide (a = 0x030) || decide (a = 0x400) || (decide (0x010_1000 ≤ a) && decide (a < 0x010_3000)) ||
    (decide (0x120_0100 ≤ a) && decide (a < 0x120_0124)) ||
    (decide (0x200_0000 ≤ a) && decide (a < 0x300_0000) && decide (0x100 ≤ (a - 0x200_0000) % 0x20_0000) &&
      decide ((a - 0x200_0000) % 0x20_0000 < 0x10C))

/-- What a write of v to the register at offset `a` of BAR0 does, now. -/
def Dev.regNow (d : Dev) (a v : Nat) : Dev :=
  match unitCtlAt a, winIdxAt a, pmcAt a with
  | some u, _, _ => d.ctlWord u v
  | _, some w, _ => d.winIdx w v
  | _, _, some (b, o) =>
    match pmcCounterAt o with
    | some n => d.counterWrite b n v false
    | none => d.writeWord a v (2 ^ 32 - 1)
  | _, _, _ =>
    -- the KEY_CMD and KEY_LOAD registers, R238
    if a = 0x040_0000 ∨ (0x040_0010 ≤ a ∧ a < 0x040_003C) then d
    else if a = 0x050_0000 then d.quadModeWrite v
    else if a = 0x060_0100 then d.qpCtlWrite v
    else if a = 0x0A0_0044 then d.relocCmd v
    else if a = 0x0A0_0210 then d.updWin .grainRec (fun r => { r with idxHi := v % 2 ^ 16 })
    else if a = 0x0A8_0004 then d.tphSizeWord v
    else if a = 0x0B0_0010 then
      (if v % 8 = 0 then d.mdcIdle (v / 16 % 16) else (mdcOps[v % 8 - 1]?).elim d (fun op => d.mdcCmd op (v / 16 % 16)))
    else if a = 0x0B0_0004 then
      (d.writeWord a v (2 ^ 32 - 1)).cond (wbit v 16) (fun d => (d.setFld Reg.MDC_ERR_ADDR_ADDR 0).setFld Reg.MDC_ERR_ADDR_LO_VALID 0)
    else if 0x0C0_1000 ≤ a ∧ a < 0x0C0_1800 ∧ a % 0x40 = 0 then d.drvPortWord ((a - 0x0C0_1000) / 0x40) v
    else if a = 0x0F0_0000 then d.fovCtlWord v
    else if a = 0x0F0_0004 then (if v % 2 ^ 16 = 0 then d.writeWord a v (2 ^ 32 - 2 ^ 16) else d.writeWord a v (2 ^ 32 - 1))
    else if a = 0x100_0034 then (d.writeWord a v (2 ^ 32 - 1)).cond (wbit v 31) (fun d => d.setFld Reg.MEM_ERR_ADDR_ADDR 0)
    else if a = 0x020_0000 then d.fumCtlWord v
    else if a = 0x020_0004 then d.fumStsWord v
    else if a = 0x200 then (d.writeWord a v (2 ^ 32 - 1)).setFld Reg.GLB_CAL_STS_FORCED (v % 2)
    else if a = 0x300 ∨ a = 0x304 then (if geomOk v then d.writeWord a v (2 ^ 32 - 1) else d)
    else if a = 0x120_0000 then d.setFlag Reg.FIS_CTL_ATTN (wbit v 1)
    else if a = 0x120_0014 then (d.writeWord a v (2 ^ 32 - 1)).ledShift
    else if a = 0x140_0000 then d.cond (wbit v 0) Dev.discardSlot
    else if a = 0x150_0000 then d.cond (wbit v 0) Dev.alarmClr
    else
      let d1 := d.writeWord a v (2 ^ 32 - 1)
      if 0x200_0000 ≤ a ∧ a < 0x300_0000 ∧ (a - 0x200_0000) % 0x20_0000 = 0x104 then d1.clipBudgets ((a - 0x200_0000) / 0x20_0000) else d1

/-- A 32-bit write at an aligned offset of BAR0. -/
def Dev.regWrite (d : Dev) (a v : Nat) : Dev :=
  if 0x400_0000 ≤ a then d
  else if edgeReg a then { d with edge := d.edge ++ [EdgeAct.write a v] }
  else d.regNow a v

/-- R529 to R531: a 32-bit write at an aligned offset of BAR2. Response buffers and the PBA are read only. -/
def Dev.mbxWrite (d : Dev) (a v : Nat) : Dev :=
  if 0x10_0000 ≤ a then d
  else if a < 0x8_0000 then
    let o := a % 0x1_0000
    if o < 0x1000 then d.requestBuf a (leBytes 4 v)
    else if o = 0x2000 then d.doorbell (a / 0x1_0000) v
    else d.writeWord (Reg.bar2 + a) v (2 ^ 32 - 1)
  else if 0xC_0000 ≤ a ∧ a < 0xC_8000 then d.msixWord (Reg.bar2 + a) v
  else d.writeWord (Reg.bar2 + a) v (2 ^ 32 - 1)

/-- One aligned 32-bit write; BAR4 is read only (R597). -/
def Dev.barWrite (d : Dev) (bar : Bar) (a v : Nat) : Dev :=
  match bar with
  | .bar0 => d.regWrite a v
  | .bar2 => d.mbxWrite a v
  | .bar4 => d

/-- R7: a 64-bit write is two 32-bit ones, the lower address first; a narrower or an unaligned one has no effect. -/
def Dev.busWrite (d : Dev) (bar : Bar) (off size val : Nat) : Dev :=
  if size = 4 ∧ off % 4 = 0 then d.barWrite bar off (val % 2 ^ 32)
  else if size = 8 ∧ off % 8 = 0 then (d.barWrite bar off (val % 2 ^ 32)).barWrite bar (off + 4) (val / 2 ^ 32)
  else d

/-- The W1C bits of the 32-bit register at offset `a` (R5). -/
def w1cMask (a : Nat) : Nat :=
  ((fieldsAt a).filter (fun f => f.inWord a && decide (f.acc = .w1c))).foldl (fun v f => Nat.lor v ((2 ^ (f.share a).2.2 - 1) * 2 ^ (f.share a).2.1)) 0

/-- The offset by which the register file numbers a register of a base address register. -/
def fileOff (bar : Bar) (off : Nat) : Nat := if bar = .bar2 then Reg.bar2 + off else off

/-- REGISTER_WRITE, R5 to R7. A W1C bit that the hardware sets in the core cycle of the write (`race`) is not cleared by it: the bit stays
set, and the event that set it is not lost (R6). -/
def Dev.registerWrite (d : Dev) (bar : Bar) (off size val race : Nat) : Dev :=
  let a := fileOff bar off
  let kept := Nat.land race (Nat.land val (w1cMask a + 2 ^ 32 * w1cMask (a + 4)))
  d.busWrite bar off size (val - kept)

def execRegisterWrite (bar : Bar) (off size : Nat) (w : WriteData) (s : State) : Ans :=
  lift (fun d => d.registerWrite bar off size w.val.toNat w.race.toNat) s

end Sys2Proof.Machine
end

