-- ==== Sys2Proof/Machine/Startup.lean ====
section
/-! DEFINITION. Power-on reset, the boot ROM's first steps and the start-up of the steward firmware (R600 to R624). -/
namespace Sys2Proof.Machine

/-! ### Power-on reset (R601) -/

/-- POWER_ON_RESET, R601: every register at its reset value, every table and buffer empty. The fuses and the boot flash keep what they
hold: image slots, settings copies, the log partition, and the settings region, in which this model keeps the subsystems, hosts, volumes with
their reduction settings, the KEK and the two system keys. A reservation outlives it with PTPL. An activation that was not committed
leaves nothing (R641, cause 5): its settings copy is erased, and the peer is told when the link is UP. What has left the chip has left it. -/
def Dev.powerOnReset (d : Dev) : Dev :=
  let resv (r : Resv) : Resv := if r.ptpl then r else {}
  let pend := d.upd.copies.any (fun e => decide (e.2.state = .pending))
  { out := d.out
    free := d.free
    sec := { fuses := d.sec.fuses }
    fum := { nor := d.fum.nor }
    upd := {
      slots := d.upd.slots
      copies := d.upd.copies.map (fun e => if e.2.state = .pending then (e.1, { e.2 with state := .erased }) else e)
      tell := if pend then 5 else 0 }
    mbx := { kek := d.mbx.kek, sysKeys := d.mbx.sysKeys, hostCfg := d.mbx.hostCfg }
    nvt := { subsys := d.nvt.subsys, hosts := d.nvt.hosts, ns := d.nvt.ns.map (fun e => (e.1, { e.2 with resv := resv e.2.resv, resvNext := [], resvIn := none })) }
    tph := { vols := d.tph.vols } }

def execPowerOnReset (s : State) : Ans := lift Dev.powerOnReset s

/-! ### The straps (R606 to R610, R618) -/

/-- R606: the pins whose pull is down, and those whose pull is up. -/
def pullDown : List Nat := [2, 4, 7, 12, 14, 15]
def pullUp : List Nat := [6, 8, 9, 13]

/-- R610: a reserved strap reads 1, or a pin's direction is not the one of R606. -/
def strapBad (value dir : Nat) : Bool :=
  [12, 13, 14, 15].any (fun n => Nat.testBit value n) || pullDown.any (fun n => Nat.testBit dir n) || pullUp.any (fun n => !Nat.testBit dir n)

/-- R388: the vault ports of a VAULT_MAP value. -/
def vaultPorts (map : Nat) : List Nat :=
  match map with
  | 0 => [30, 31]
  | 1 => [14, 15]
  | 2 => [0, 1]
  | _ => [15, 16]

/-- R662: which hashes of a row of fuses are programmed. -/
def programmed (l : List (List Byte)) : Nat :=
  (l.zipIdx.map (fun (x : List Byte × Nat) => if x.1.any (fun b => decide (b ≠ 0)) then 2 ^ x.2 else 0)).sum

/-- What the fuses show in their registers (R643, R646, R658, R662). -/
def Dev.readFuses (d : Dev) : Dev :=
  let f := d.sec.fuses
  (((((d.setFld Reg.SEC_FUSE_KEY_PRESENT (programmed f.keys)).setFld Reg.SEC_FUSE_KEY_REVOKED f.revoked).setFld Reg.SEC_FUSE_DBG_PRESENT
    (programmed f.dbg)).setFld Reg.SEC_SERIAL_SERIAL f.serial).setFld Reg.UPD_ROLLBACK_COUNT f.rollback).setFld Reg.SEC_TEMP_ALARM_AT
      (tempByte (f.tjMax + (if d.strap 11 then 5 else 10)))

/-- BOOT_ROM_START, R618 steps 1 to 4: the straps are sampled, the fuses read, and the Fumarole's sequence number is loaded. It happens once
after a power-on reset. -/
def Dev.bootRom (d : Dev) (value dir : Nat) : Dev :=
  if d.flag Reg.FUM_STS_SEQ_LOADED ∨ d.steward ≠ stBoot then d
  else
    let d1 := (d.setFld Reg.FIS_STRAP_VALUE value).setFld Reg.FIS_STRAP_DIR dir
    let bit (n : Nat) : Nat := value / 2 ^ n % 2
    let map := bit 6 + 2 * bit 7
    let d2 := (((d1.setFld Reg.KEY_STS_HEAD (bit 0)).setFld Reg.DRV_STRAP_VAULT_MAP map).setFld Reg.DRV_STRAP_LANE_SWAP_D (bit 4)).setFld
      Reg.MEM_STS_DDR_CFG (bit 8 + 2 * bit 9)
    let d3 := d2.each (vaultPorts map) (fun p d => d.setFld (Reg.DRV_PORT_STS_VAULT p) 1)
    let d4 := ((d3.readFuses.setFlag Reg.FIS_STS_STRAP_BAD (strapBad value dir)).setFld Reg.FUM_PART_BASE_OFFSET 0x0E80_0000).seqLoad
    d4.cond (strapBad value dir) (fun d => d.raise 28 value dir 0)

def execBootRomStart (value dir : Nat) (s : State) : Ans := lift (fun d => d.bootRom (value % 2 ^ 16) (dir % 2 ^ 16)) s

/-! ### Persisted settings (R546, R565) -/

/-- R546: the fields that SETTING_SET may write: RW fields of the GLB, HPT, XPT, NVT, MDE, MDC, DRV, CDX, FOV, MEM and SLI registers, but for EN
fields of units and command registers. -/
def settableBlock (a : Nat) : Bool :=
  decide (a < 0x1000) || (decide (0x050_0000 ≤ a) && decide (a < 0x120_0000)) ||
    (decide (0x200_0000 ≤ a) && decide (a < 0x300_0000) && decide ((a - 0x200_0000) % 0x20_0000 < 0x18_0000))

/-- The command registers among them, and the fields named EN. -/
def notSettable : List Fld :=
  [Reg.XPT_QP_CTL_INDEX, Reg.XPT_QP_CTL_EN, Reg.MDE_RELOC_CMD_SEGMENT, Reg.MDC_CMD_OP, Reg.MDC_CMD_ENTRY, Reg.MDC_CTL_EN, Reg.MDE_TPH_CFG_EN,
    Reg.GLB_LAY_SCRUB_EN, Reg.DRV_REBUILD_EN, Reg.MEM_PATROL_EN] ++
    (List.range 8).map Reg.SLI_CTL_EN

/-- A field that R546 lets SETTING_SET write. -/
def settable (f : Fld) : Bool :=
  decide (f.acc = .rw) && settableBlock f.off && !(decide (f ∈ notSettable)) &&
    !(decide (0x050_1000 ≤ f.off) && decide (f.off < 0x051_1000) && decide (f.off % 0x1000 = 0) && decide (f.lo = 0)) &&
    !(decide (0x0C4_0000 ≤ f.off) && decide (f.off < 0x0C6_0000) && decide (f.off % 0x400 = 0) && decide (f.lo = 0)) &&
    !(decide (0x0E0_1000 ≤ f.off) && decide (f.off < 0x0E0_1400) && decide (f.off % 0x40 = 0))

/-- The settable fields of the register at offset `a`. -/
def settableAt (a : Nat) : List Fld := if a % 4 = 0 then (fieldsAt a).filter (fun f => f.inWord a && settable f) else []

/-- R546: what a register takes when the bits of `val` that `mask` selects are written to its settable fields: its other RW fields keep
their values, and no W1C or W1S bit is written. -/
def Dev.mergeSetting (d : Dev) (a val mask : Nat) : Nat :=
  ((fieldsAt a).filter (fun f => f.inWord a && decide (f.acc = .rw))).foldl
    (fun v f =>
      let x := f.share a
      let old := d.fld f / 2 ^ x.1 % 2 ^ x.2.2
      let part (u : Nat) : Nat := u / 2 ^ x.2.1 % 2 ^ x.2.2
      v + (if settable f then Acc.rw.write old (part val) (part mask) else old) * 2 ^ x.2.1) 0

/-- R546: the settable fields of a register are written, with all that a write of the register does. -/
def Dev.putSetting (d : Dev) (a val mask : Nat) : Dev :=
  let v := d.mergeSetting a val mask
  if edgeReg a then { d with edge := d.edge ++ [EdgeAct.write a v] } else d.regNow a v

/-- R619 step 1: persisted settings, and the routing that EVT_ROUTE has set, are applied. -/
def Dev.applySettings (d : Dev) : Dev :=
  match d.settingsCopy with
  | none => d
  | some i =>
    d.each (d.flashCopy i).vals (fun x d =>
      if settableAt x.1 = [] then d.writeWord x.1 x.2 (2 ^ 32 - 1) else d.putSetting x.1 x.2 (2 ^ 32 - 1))

/-- R546: keep a register's value in the settings copy in use. -/
def Dev.persist (d : Dev) (a val : Nat) : Dev :=
  match d.settingsCopy with
  | none => d
  | some i => d.updCopy i (fun c => { c with vals := (c.vals.filter (fun x => decide (x.1 ≠ a))) ++ [(a, val)] })

/-! ### Key loading by the steward (R252, R552) -/

/-- R552: the mark with which the steward loads a slot: the metadata engine's, or the Geyser image's, whichever is higher, for this generation;
0 for a key that neither has seen once this head's journal and the peer's are in (R252); else none is known. -/
def Dev.keyMark (d : Dev) (slot gen : Nat) : Option Nat :=
  let a := tget {} d.mde.marks (markKey slot d.slotId)
  let b := tget {} d.mem.nonces slot
  let own := (if a.gen = gen ∧ a ≠ {} then [a.mark] else []) ++ (if b.gen = gen ∧ b ≠ {} then [b.mark] else [])
  match own with
  | [] => if d.fov.replayDone ∧ a.gen < gen + 1 ∧ (d.fovState = fsPaired ∨ d.fovState = fsSole ∨ d.strap 5 = false) then some 0 else none
  | x :: t => some (t.foldl max x)

/-- KEY_LOAD's work, R552: the steward puts key and generation into the KEY_LOAD registers, and loads with HWM_VALID when it knows a mark. -/
def Dev.stewardLoad (d : Dev) (slot gen : Nat) (key : List Byte) : Dev :=
  let d1 := (d.each (List.range 8) (fun i d => d.setFld (Reg.KEY_LOAD_K i) (leField key (4 * i) 4))).setFld Reg.KEY_LOAD_GEN_GEN gen
  match d1.keyMark slot gen with
  | some m => (d1.setFld Reg.KEY_LOAD_HWM_HWM m).keyLoad slot true
  | none => d1.keyLoad slot false

/-- R252: the steward gives its mark to every slot that waits for one and whose mark is now known. -/
def Dev.stewardMarks (d : Dev) : Dev :=
  d.each (d.key.slots.filter (fun e => decide (e.2.state = .unsealed))) (fun e d =>
    match d.keyMark e.1 e.2.gen with
    | some m => (d.setFld Reg.KEY_LOAD_HWM_HWM m).keyCounter e.1
    | none => d)

/-- R619 step 6: with a KEK, slots 4,094 and 4,095 are loaded from the settings region. -/
def Dev.loadSysKeys (d : Dev) : Dev :=
  if d.mbx.kek.isNone ∨ d.flag Reg.SEC_STS_DUK_BLOCKED then d
  else d.each d.mbx.sysKeys (fun x d => if (d.kslot x.1).state = .empty then d.stewardLoad x.1 x.2.1 x.2.2 else d)

/-! ### The start-up steps (R619) -/

/-- EN of a unit is set. -/
def Dev.turnOn (d : Dev) (u : UnitId) : Dev := d.setUnit u { d.unit u with en := true }

/-- A unit whose start was asked for has neither failed nor reached ON. -/
def Dev.onWay (d : Dev) (u : UnitId) : Bool := (d.unit u).en && decide (d.ustate u ≠ .on)

/-- The attach points of the vault ports, of the witness drives, and the others that their ports' modes make valid. -/
def Dev.vaultPoints (d : Dev) : List Nat := (List.range 128).filter (fun a => d.isVault a && attValid (d.drvMode (a / 4)) a)
def Dev.witPoints (d : Dev) : List Nat :=
  if d.flag Reg.DRV_WIT_CFG_VALID then (List.range 3).map (fun i => d.fld (Reg.DRV_WIT_CFG_WIT i)) else []
def Dev.sharedPoints (d : Dev) : List Nat := (List.range 128).filter (fun a => !d.isVault a && attValid (d.drvMode (a / 4)) a)

/-- R194, R504, R217: the steward lays out the Tephra table after the memory start. Unless a setting gives it, its size is a free value of 16 to
32, and its base a free value. -/
def Dev.layTephra (d : Dev) : Dev :=
  if d.fld Reg.MDE_TPH_SIZE_LOG2_BUCKETS ≠ 0 then d
  else
    let (k, d1) := d.draw
    (d1.setFld Reg.MDE_TPH_SIZE_LOG2_BUCKETS (16 + Config.freeNat k % 17)).setFld Reg.MDE_TPH_BASE_BASE (Config.freeNat k / 17)

/-- R96, R146: the steward registers the Caldera mirror window for the peer once memory runs. DESIGN CHOICE (log 165): as region 0 of both heads, so each
head posts its puts under the key that its own firmware gave. -/
def Dev.mirrorWindow (d : Dev) : Dev :=
  let d1 := d.mrRegister 0 mirrorBase (2 ^ 34) 0 true
  { d1 with cal := { d1.cal with winKey := rkeyOf 0 (d1.region 0).tag } }

/-- R619: what the steward does when step n begins; step 1, which begins with the image, does its work when it ends. -/
def Dev.stepBegin (d : Dev) (n : Nat) : Dev :=
  match n with
  | 2 => d.service
  | 3 => d.cond (decide (d.fld Reg.MEM_STS_START = 0)) (fun d => d.setFld Reg.MEM_STS_START 1)
  | 4 => d.mirrorWindow.layTephra.each (List.range 16) (fun l d => d.turnOn (.lane l))
  | 5 => d.each d.vaultPoints (fun a d => d.turnOn (.att a))
  | 6 => d.loadSysKeys
  | 7 => (d.each (List.range 8) (fun s d => d.turnOn (.slice s))).regWrite 0x030 3
  | 8 => d.each d.witPoints (fun a d => d.turnOn (.att a))
  | 10 => d.each d.sharedPoints (fun a d => d.turnOn (.att a))
  | 11 => d.setFlag Reg.MDE_STS_REPLAY (!d.fov.replayDone)
  | 12 => d.stewardMarks
  | 13 =>
    (d.each ((List.range 16).filter (fun p => portValid (d.fld (Reg.HPT_QUAD_MODE (p / 4))) p)) (fun p d => d.turnOn (.port p))).regWrite
      0x030 0
  | _ => d

/-- R619: step n is over. -/
def Dev.stepOver (d : Dev) (n : Nat) : Bool :=
  match n with
  | 3 => decide (d.fld Reg.MEM_STS_START = 2)
  | 5 => !d.vaultPoints.any (fun a => d.onWay (.att a))
  | 7 => !(List.range 8).any (fun s => d.onWay (.slice s))
  | 8 => !d.witPoints.any (fun a => d.onWay (.att a))
  | 9 => d.fis.restored || d.vaultsOn.isEmpty
  | 11 => d.fov.replayDone
  | 12 => decide (d.fovState ≠ fsStart)
  | _ => true

/-- START_UP_STEP_DONE, R619: the step at which the steward stands is over, and the next begins. After step 13 the start-up is done. -/
def Dev.startUp (d : Dev) : Dev :=
  let n := d.fis.step
  if n = 0 ∨ d.steward ≠ stRunning ∨ d.stepOver n = false then d
  else if 13 ≤ n then { d with fis := { d.fis with step := 0 } }
  else
    let d1 := d.cond (decide (n = 1)) Dev.applySettings
    { d1 with fis := { d1.fis with step := n + 1 } }.stepBegin (n + 1)

def execStartUpStepDone (s : State) : Ans := lift Dev.startUp s

end Sys2Proof.Machine
end

