-- ==== Sys2Proof/Machine/Mailbox.lean ====
section
/-! DEFINITION. The mailbox channels: envelopes, doorbells, the order in which requests are applied, tickets, and array-wide changes (R529 to
R543, R556). -/
namespace Sys2Proof.Machine

/-! ### Buffers and envelopes (R529, R532, R533) -/

/-- Where channel c's request and response buffers begin in BAR2. -/
def reqBase (c : Nat) : Nat := c * 0x1_0000
def respBase (c : Nat) : Nat := c * 0x1_0000 + 0x1000

/-- `n` bytes of channel c's request from offset `o`, and the number that they form. -/
def Dev.reqBytes (d : Dev) (c o n : Nat) : List Byte := readBytes d.mbx.mem (reqBase c + o) n
def Dev.req (d : Dev) (c o n : Nat) : Nat := leNat (d.reqBytes c o n)

def Dev.setMbx (d : Dev) (f : MbxSt → MbxSt) : Dev := { d with mbx := f d.mbx }

/-- What a command answers (R533): STATUS, DETAIL, the ticket with PENDING, and the results from offset 32. -/
structure Reply where
  st : Nat
  detail : Nat := 0
  ticket : Nat := 0
  body : List Byte := []
deriving DecidableEq, Repr

/-- OK with results, and an ending with a status of R541. -/
def replyOk (body : List Byte) : Reply := { st := 0, body := body }
def replyNo (st detail : Nat) : Reply := { st := st, detail := detail }

/-- R541. -/
def msBusy : Nat := 0x01
def msBadEnvelope : Nat := 0x02
def msUnknown : Nat := 0x03
def msBadArg : Nat := 0x04
def msNotOwner : Nat := 0x05
def msNoResource : Nat := 0x06
def msStagingBusy : Nat := 0x07
def msKeyErased : Nat := 0x08
def msPeerAbsent : Nat := 0x0B
def msLocked : Nat := 0x0C
def msPending : Nat := 0x0D

/-- Results are filled up with zero bytes to a multiple of 4. -/
def fill4 (bs : List Byte) : List Byte := bs ++ List.replicate ((4 - bs.length % 4) % 4) 0

/-- R533: the bytes of a response. -/
def respBytes (code flags seq : Nat) (r : Reply) : List Byte :=
  let body := fill4 r.body
  let crc := if body.isEmpty then 0 else (crc32c body).toNat
  withCrc (leBytes 2 code ++ leBytes 2 flags ++ leBytes 4 seq ++ leBytes 4 (32 + body.length) ++ leBytes 1 1 ++ leBytes 1 r.st ++ leBytes 2 r.detail ++
    leBytes 4 crc ++ leBytes 4 r.ticket ++ leBytes 4 0) ++ body

/-- R537, R538: the response in the buffer is complete: RESP_SEQ, DONE, and the completion event unless IRQ_EN is 0 or the request set NO_IRQ. -/
def Dev.channelDone (d : Dev) (c : Nat) : Dev :=
  let f (o n : Nat) : Nat := leNat (readBytes d.mbx.mem (respBase c + o) n)
  let quiet := !d.flag (Reg.MBX_CTL_IRQ_EN c) || decide (d.req c 2 1 % 2 = 1)
  (((d.setFld (Reg.MBX_RESP_SEQ_SEQ c) (f 4 4)).setFld (Reg.MBX_STS_STATE c) 3).setMbx (fun m => { m with again := m.again.filter (· ≠ c) })).cond
    (!quiet) (fun d => d.raise (1856 + c) c (f 4 4) (f 13 1))

/-- R533, R556: channel c's request is answered. -/
def Dev.respond (d : Dev) (c : Nat) (r : Reply) : Dev :=
  let flags := if d.mbx.again.contains c then 2 else 0
  let bs := respBytes (d.req c 0 2) flags (d.req c 4 4) r
  (d.setMbx (fun m => { m with mem := writeBytes m.mem (respBase c) bs })).channelDone c

/-- R536: the response stands as it is, with REPLAYED. -/
def Dev.replayResp (d : Dev) (c : Nat) : Dev :=
  let h := readBytes d.mbx.mem (respBase c) 28
  let h1 := h.take 2 ++ leBytes 1 (Nat.lor (leField h 2 1) 1) ++ h.drop 3
  (d.setMbx (fun m => { m with mem := writeBytes m.mem (respBase c) (withCrc h1) })).channelDone c

/-! ### Commands by code (R539, R543 to R555) -/

/-- The codes of release 3.2. -/
def mbxCodes : List Nat :=
  [0x0101, 0x0102, 0x0103, 0x0104, 0x0201, 0x0202, 0x0203, 0x0204, 0x0205] ++ (List.range 9).map (0x0301 + ·) ++ (List.range 4).map (0x0401 + ·) ++
    (List.range 5).map (0x0501 + ·) ++ (List.range 4).map (0x0601 + ·) ++ (List.range 4).map (0x0701 + ·) ++
    [0x0801, 0x0802, 0x0803, 0x0901, 0x0902, 0x0903] ++ (List.range 6).map (0x0A01 + ·) ++ (List.range 5).map (0x0B01 + ·)

/-- Commands that only read (R539). -/
def mbxReads : List Nat :=
  [0x0101, 0x0102, 0x0103, 0x0104, 0x0201, 0x0308, 0x0404, 0x0603, 0x0701, 0x0802, 0x0901, 0x0902, 0x0A06, 0x0B01, 0x0B03]

/-! ### Doorbells and taking a request (R534 to R536) -/

/-- R535: what a doorbell does at the edge. One that finds the channel QUEUED or RUNNING is dropped: MBX_DB keeps its SEQ. -/
def Dev.doorbellEdge (d : Dev) (c seq : Nat) : Dev :=
  let st := d.fld (Reg.MBX_STS_STATE c)
  if st = 1 ∨ st = 2 then (d.setFld (Reg.MBX_STS_DB_LOST c) 1).raise 1868 c seq 0
  else ((d.setFld (Reg.MBX_DB_SEQ c) seq).setFld (Reg.MBX_STS_STATE c) 1).setFld (Reg.MBX_DB_BEAT_BEAT c) d.beat

/-- R534. -/
def nextSeq (s : Nat) : Nat := if s = 2 ^ 32 - 1 then 1 else s + 1

/-- R536: the first check that channel c's request fails, by its DETAIL. -/
def Dev.envelopeBad (d : Dev) (c : Nat) : Option Nat :=
  let h := d.reqBytes c 0 32
  let seq := d.req c 4 4
  let len := d.req c 8 4
  let last := d.fld (Reg.MBX_REQ_SEQ_SEQ c)
  if (crc32c (h.take 28)).toNat ≠ d.req c 28 4 then some 1
  else if d.req c 12 1 ≠ 1 ∨ d.req c 13 3 ≠ 0 ∨ d.req c 20 8 ≠ 0 then some 2
  else if len < 32 ∨ 4096 < len ∨ len % 4 ≠ 0 then some 3
  else if seq ≠ d.fld (Reg.MBX_DB_SEQ c) then some 4
  else if seq = 0 ∨ (seq ≠ nextSeq last ∧ seq ≠ last) then some 5
  else if (if len = 32 then 0 else (crc32c (d.reqBytes c 32 (len - 32))).toNat) ≠ d.req c 16 4 then some 6
  else none

/-- R549: another request on the channel discards its run of parts. -/
def Dev.dropRun (d : Dev) (c : Nat) : Dev :=
  d.setMbx (fun m => { m with snapRuns := m.snapRuns.map (fun r => if r.chan = c then { r with dead := true } else r) })

/-- REQUEST_TAKE, R536. -/
def Dev.requestTake (d : Dev) (c : Nat) : Dev :=
  if 8 ≤ c ∨ d.steward ≠ stRunning ∨ d.fld (Reg.MBX_STS_STATE c) ≠ 1 then d
  else
    let d1 := d.setFld (Reg.MBX_STS_STATE c) 2
    let seq := d1.req c 4 4
    match d1.envelopeBad c with
    | some n => (d1.raiseOnce (1867 * 16 + c) 1867 c n seq).respond c (replyNo msBadEnvelope n)
    | none =>
      if seq = d1.fld (Reg.MBX_REQ_SEQ_SEQ c) then d1.replayResp c
      else
        let d2 := (d1.setFld (Reg.MBX_REQ_SEQ_SEQ c) seq).cond (decide (d1.req c 0 2 ≠ 0x0401)) (fun d => d.dropRun c)
        d2.cond (!mbxCodes.contains (d2.req c 0 2)) (fun d => d.respond c (replyNo msUnknown 0))

def execRequestTake (c : Nat) (s : State) : Ans := lift (fun d => d.requestTake c) s

/-! ### The order of requests (R539), and a command's run (R542, R556) -/

/-- Channel a's doorbell came before channel b's. -/
def Dev.rangBefore (d : Dev) (a b : Nat) : Bool :=
  decide (d.fld (Reg.MBX_DB_BEAT_BEAT a) < d.fld (Reg.MBX_DB_BEAT_BEAT b)) ||
    (decide (d.fld (Reg.MBX_DB_BEAT_BEAT a) = d.fld (Reg.MBX_DB_BEAT_BEAT b)) && decide (a < b))

/-- A request that changes state waits for those before it, whether taken or still queued. -/
def Dev.mayChange (d : Dev) (c : Nat) : Bool :=
  (List.range 8).all (fun a =>
    !(d.rangBefore a c && (decide (d.fld (Reg.MBX_STS_STATE a) = 1) ||
      (decide (d.fld (Reg.MBX_STS_STATE a) = 2) && !mbxReads.contains (d.req a 0 2)))))

/-- The channel on which a command of this code runs next. -/
def Dev.mbxChannel (d : Dev) (code : Nat) : Option Nat :=
  let cs := (List.range 8).filter (fun c => decide (d.fld (Reg.MBX_STS_STATE c) = 2) && decide (d.req c 0 2 = code) &&
    (mbxReads.contains code || d.mayChange c))
  cs.find? (fun c => cs.all (fun a => !d.rangBefore a c))

/-- R556: the STEWARD records that a command has begun, and that it is complete. -/
def begunWhat : Nat := 7
def doneWhat : Nat := 8

/-- A mailbox command. `lens` tells whether LENGTH fits the command's layout (R542); `f` is the command on its channel: it answers, or waits. A
command that changes state is enclosed in its two STEWARD records. -/
def Dev.mbxRun (d : Dev) (code : Nat) (lens : Nat → Dev → Nat → Bool) (f : Nat → Dev → Option Reply × Dev) : Dev :=
  if d.steward ≠ stRunning then d
  else match d.mbxChannel code with
    | none => d
    | some c =>
      if !lens c d (d.req c 8 4) then d.respond c (replyNo msBadArg 8)
      else
        let reads := mbxReads.contains code
        let n := d.fld Reg.MDE_JSEQ_NEXT_SEQ
        let seq := d.req c 4 4
        let d1 := d.cond (!reads && decide (d.mbx.lock ≠ c + 1)) (fun d => d.journal (.steward begunWhat c seq 0))
        match f c d1 with
        | (none, d2) => if d2.mbx.lock = c + 1 then d2 else d
        | (some r, d2) =>
          let d3 := d2.cond (!reads) (fun d => (d.journal (.steward doneWhat c seq r.st)).mirrorSince n)
          d3.respond c r

/-- LENGTH is exactly `n`, rounded up to a multiple of 4. -/
def lenIs (n : Nat) (_ : Nat) (_ : Dev) (len : Nat) : Bool := decide (len = (n + 3) / 4 * 4)

/-! ### Tickets (R540) -/

/-- A new ticket for a command, unless 256 are open. -/
def Dev.newTicket (d : Dev) (code : Nat) : Option (Nat × Dev) :=
  if 256 ≤ (d.mbx.tickets.filter (fun t => decide (t.done = 0))).length then none
  else
    let n := d.mbx.nextTicket
    some (n, (d.setMbx (fun m => { m with tickets := m.tickets ++ [{ num := n, code := code }], nextTicket := nextSeq n })).setFld
      Reg.MBX_GLB_STS_TICKETS ((d.mbx.tickets.filter (fun t => decide (t.done = 0))).length + 1))

/-- R540: an Epoch command is accepted: PENDING, its ticket, and results known at once. -/
def Dev.pend (d : Dev) (code : Nat) (f : Nat → Dev → List Byte × Dev) : Option Reply × Dev :=
  match d.newTicket code with
  | none => (some (replyNo msNoResource 0), d)
  | some (n, d1) =>
    let (body, d2) := f n d1
    (some { st := msPending, ticket := n, body := body }, d2)

/-- An Epoch command whose work is over with its acceptance. -/
def Dev.pendNow (d : Dev) (code : Nat) (f : Dev → Dev) : Option Reply × Dev :=
  d.pend code (fun n d => ([], (f d).ticketEnd n 0 0))

/-- The end of work that other blocks do: snapshots READY, trees freed, homes changed, and hand-overs. Where a hand-over ended without
moving the groups, the final status is not given: a free value. -/
def Dev.ticketWork (d : Dev) : Dev :=
  let snaps := (d.mbx.snapTickets.map (·.2)).eraseDups
  let d1 := d.each snaps (fun n d =>
    d.cond ((d.mbx.snapTickets.filter (fun x => decide (x.2 = n))).all (fun x => decide ((d.tree x.1).state ≠ .pending))) (fun d =>
      (d.ticketEnd n 0 0).setMbx (fun m => { m with snapTickets := m.snapTickets.filter (fun x => decide (x.2 ≠ n)) })))
  let ovr (d : Dev) (t : Nat) : Bool :=
    if t < 2 ^ 21 then decide ((d.tree t).state = .free)
    else bitOf (d.fld Reg.FOV_HOME_MASK) ((t - 2 ^ 21) / 2) == decide (t % 2 = 1)
  let d2 := d1.each d1.mbx.treeTickets (fun x d => d.cond (ovr d x.1) (fun d =>
    (d.ticketEnd x.2 0 0).setMbx (fun m => { m with treeTickets := m.treeTickets.filter (fun y => decide (y ≠ x)) })))
  d2.cond (decide (d2.mbx.handTicket ≠ 0) && decide (d2.fov.handStep = 0)) (fun d =>
    let gone := (List.range 64).all (fun g => !bitOf d.fov.handMask g || !d.flag (Reg.NVT_ANA_OWN g))
    (if gone then d.ticketEnd d.mbx.handTicket 0 0 else d.ticketOpen d.mbx.handTicket).setMbx (fun m => { m with handTicket := 0 }))

/-- TICKET_DONE, R540: at an epoch edge the status of each ticket whose work has ended is fixed, with its event; results are kept for 64
epochs. -/
def Dev.ticketsDone (d : Dev) : Dev :=
  if d.newEpoch = false then d
  else
    let d0 := d.ticketWork
    let ready := d0.mbx.tickets.filter (fun t => t.result.isSome && decide (t.done = 0))
    let d1 := d0.each ready (fun t d => d.raise 1864 t.num ((t.result.map (·.1)).getD 0) t.code)
    let d2 := d1.setMbx (fun m => { m with
      tickets := (m.tickets.map (fun t => if t.result.isSome ∧ t.done = 0 then { t with done := d.epoch + 1 } else t)).filter
        (fun t => decide (t.done = 0 ∨ d.epoch < t.done - 1 + 64)) })
    d2.setFld Reg.MBX_GLB_STS_TICKETS ((d2.mbx.tickets.filter (fun t => decide (t.done = 0))).length)

def execTicketDone (s : State) : Ans := lift Dev.ticketsDone s

/-! ### Array-wide changes (R543) -/

/-- R543: this head holds domain 0 in the last majority record. -/
def Dev.holdsDom0 (d : Dev) : Bool := (d.fov.witness.map (fun w => w.holdsDom d.slotId 0)).getD false

/-- A command that changes an array-wide object: NOT_OWNER where this head does not hold domain 0. -/
def Dev.arrayCmd (d : Dev) (f : Dev → Option Reply × Dev) : Option Reply × Dev :=
  if d.holdsDom0 then f d else (some (replyNo msNotOwner d.peerSlot), d)

/-- The whole changes out of the parts received, and each with its code and its arguments. -/
def changesOf : List (Nat × Nat × Nat × Nat) → Nat → List Byte → List (Nat × List Byte)
  | [], _, _ => []
  | (what, a, b, c) :: t, next, acc =>
    let i := what / 2 ^ 8 % 2 ^ 8
    let n := what / 2 ^ 16 % 2 ^ 8
    let bs := (if i = 0 then [] else acc) ++ leBytes 8 a ++ leBytes 8 b ++ leBytes 8 c
    if i ≠ 0 ∧ i ≠ next then changesOf t 0 []
    else if i + 1 = n then (leField bs 0 2, (bs.drop 4).take (leField bs 2 2)) :: changesOf t 0 []
    else changesOf t (i + 1) bs

end Sys2Proof.Machine
end

