-- ==== Sys2Proof/Machine/MboxConfig.lean ====
section
/-! DEFINITION. Mailbox commands of groups 0x01 to 0x05: identity, configuration, volumes, snapshots and replication (R544 to R550). -/
namespace Sys2Proof.Machine

/-! ### Group 0x01 (R544) -/

/-- IDENTIFY. -/
def Dev.identifyBody (d : Dev) : List Byte :=
  leBytes 2 (d.fld Reg.GLB_ID_PART) ++ leBytes 1 (d.fld Reg.GLB_ID_STEP) ++ leBytes 1 d.slotId ++ leBytes 8 (d.fld Reg.SEC_SERIAL_SERIAL) ++
    leBytes 4 (d.fld Reg.MBX_FW_REL_MINOR + 2 ^ 16 * d.fld Reg.MBX_FW_REL_MAJOR) ++ leBytes 4 (d.fld Reg.UPD_SCHEMA_SCHEMA) ++
    leBytes 4 (d.fld Reg.DRV_ARRAY_TAG_TAG) ++ leBytes 1 (d.fld Reg.UPD_STS_RUN_SLOT)

def execIdentify (s : State) : Ans := lift (fun d => d.mbxRun 0x0101 (lenIs 32) (fun _ d => (some (replyOk d.identifyBody), d))) s

/-- STATUS. -/
def Dev.statusBody (d : Dev) : List Byte :=
  leBytes 1 d.fovState ++ leBytes 1 (d.fld Reg.GLB_MODE_MODE) ++ leBytes 1 (d.fld Reg.GLB_CAL_STS_MODE) ++ leBytes 1 (d.fld Reg.CDX_STS_LINK) ++
    leBytes 8 d.ownMask ++ leBytes 8 d.epoch ++ leBytes 4 d.ownDirty

def execStatus (s : State) : Ans := lift (fun d => d.mbxRun 0x0102 (lenIs 32) (fun _ d => (some (replyOk d.statusBody), d))) s

/-- PORT_ADDRS. -/
def Dev.portAddrs (c : Nat) (d : Dev) : Option Reply × Dev :=
  let p := d.req c 32 1
  if 16 ≤ p then (some (replyNo msBadArg 32), d)
  else
    let r := d.port p
    (some (replyOk (leBytes 6 (d.fld (Reg.HPT_MAC_MAC p)) ++ leBytes 2 0 ++ leBytes 4 r.ip4.toNat ++ leBytes 1 r.ip6.length ++ leBytes 3 0 ++
      (List.range 4).flatMap (fun i => padTo 16 (r.ip6.getD i [])))), d)

def execPortAddrs (s : State) : Ans := lift (fun d => d.mbxRun 0x0103 (lenIs 33) Dev.portAddrs) s

/-- TICKET_STATUS. -/
def Dev.ticketStatus (c : Nat) (d : Dev) : Option Reply × Dev :=
  match d.mbx.tickets.find? (fun t => decide (t.num = d.req c 32 4)) with
  | none => (some (replyNo msBadArg 32), d)
  | some t =>
    if t.done = 0 then (some (replyOk (leBytes 1 0 ++ leBytes 1 msPending ++ leBytes 2 0 ++ leBytes 2 t.code ++ leBytes 10 0)), d)
    else
      let r := t.result.getD (0, 0)
      (some (replyOk (leBytes 1 1 ++ leBytes 1 r.1 ++ leBytes 2 r.2 ++ leBytes 2 t.code ++ leBytes 2 0 ++ leBytes 8 (t.done - 1))), d)

def execTicketStatus (s : State) : Ans := lift (fun d => d.mbxRun 0x0104 (lenIs 36) Dev.ticketStatus) s

/-! ### Group 0x02 (R545, R546) -/

/-- SETTING_GET: the value as it is persisted. -/
def Dev.settingGet (c : Nat) (d : Dev) : Option Reply × Dev :=
  let a := d.req c 32 4
  if a % 4 ≠ 0 ∨ 0x400_0000 ≤ a then (some (replyNo msBadArg 32), d)
  else
    let v := d.settingsCopy.bind (fun i => ((d.flashCopy i).vals.find? (fun x => decide (x.1 = a))).map (·.2))
    (some (replyOk (leBytes 4 (v.getD 0) ++ leBytes 1 (if v.isSome then 1 else 0))), d)

def execSettingGet (s : State) : Ans := lift (fun d => d.mbxRun 0x0201 (lenIs 36) Dev.settingGet) s

/-- SETTING_SET, R546: the write waits for the next epoch edge. -/
def Dev.settingSet (c : Nat) (d : Dev) : Option Reply × Dev :=
  let a := d.req c 32 4
  if settableAt a = [] then (some (replyNo msBadArg 32), d)
  else d.pend 0x0202 (fun n d =>
    ([], d.setMbx (fun m => { m with sets := m.sets ++ [(a, d.req c 36 4, d.req c 40 4, 2 * n + d.req c 44 1 % 2)] })))

def execSettingSet (s : State) : Ans := lift (fun d => d.mbxRun 0x0202 (lenIs 45) Dev.settingSet) s

/-- R546: at the epoch edge the settings are written, and those with PERSIST are recorded as the register then stands. -/
def Dev.applySets (d : Dev) : Dev :=
  (d.each d.mbx.sets (fun x d =>
    let d1 := d.putSetting x.1 x.2.2.1 x.2.1
    (d1.cond (decide (x.2.2.2 % 2 = 1)) (fun d => d.persist x.1 (d.fieldWord x.1))).ticketEnd (x.2.2.2 / 2) 0 0)).setMbx (fun m => { m with sets := [] })

/-- PORT_SET. -/
def Dev.portSet (c : Nat) (d : Dev) : Option Reply × Dev :=
  let p := d.req c 32 1
  let n := d.req c 40 1
  if 16 ≤ p then (some (replyNo msBadArg 32), d)
  else if 4 < n then (some (replyNo msBadArg 40), d)
  else if d.ustate (.port p) ≠ .off then (some (replyNo msBusy 0), d)
  else (some (replyOk []), d.updPort p (fun r => { r with
    ip4 := BitVec.ofNat 32 (d.req c 36 4), ip6 := (List.range n).map (fun i => d.reqBytes c (48 + 16 * i) 16) }))

/-- LENGTH of PORT_SET: at least NV6 addresses of at most 4. -/
def portSetLen (c : Nat) (d : Dev) (len : Nat) : Bool :=
  decide (48 + 16 * min 4 (d.req c 40 1) ≤ len ∧ len ≤ 112 ∧ len % 16 = 0)

def execPortSet (s : State) : Ans := lift (fun d => d.mbxRun 0x0203 portSetLen Dev.portSet) s

/-- LOCK_ENTRY: the steward writes the lock entry's registers and gives the cache its command, and answers when it is over. -/
def Dev.lockEntry (c : Nat) (d : Dev) : Option Reply × Dev :=
  let n := d.req c 32 1
  let op := d.req c 33 1
  if d.mbx.lock = c + 1 then
    if d.flag Reg.MDC_CMD_STS_BUSY then (none, d)
    else
      let st := d.fld Reg.MDC_CMD_STS_STATUS
      (some { st := st, detail := if st = msBadArg then 36 else 0, body := leBytes 1 st }, d.setMbx (fun m => { m with lock := 0 }))
  else if 12 ≤ n then (some (replyNo msBadArg 32), d)
  else if op ≠ 1 ∧ op ≠ 2 then (some (replyNo msBadArg 33), d)
  else if d.isOn .mdc = false then (some (replyNo msBusy 0), d)
  else if d.flag Reg.MDC_CMD_STS_BUSY then (none, d)
  else
    let d1 := if op = 1 then ((d.setFld (Reg.MDC_LOCK_WAYS_WAYS n) (d.req c 36 2)).setFld (Reg.MDC_LOCK_BASE_BASE n) (d.req c 40 8 / 256)).setFld
      (Reg.MDC_LOCK_LIMIT_LIMIT n) (d.req c 48 8 / 256) else d
    (none, (d1.mdcCmd (if op = 1 then .lockSet else .lockClear) n).setMbx (fun m => { m with lock := c + 1 }))

def execLockEntry (s : State) : Ans := lift (fun d => d.mbxRun 0x0204 (lenIs 56) Dev.lockEntry) s

/-- The segments whose manifests a rebuild of the Tephra table has to read. -/
def Dev.manifestSegs (d : Dev) : List Nat :=
  (d.mde.segs.filter (fun e => decide (e.2.state ≠ .free) && !e.2.hooks.isEmpty)).map (·.1)

/-- TEPHRA_REBUILD, R198: the rate; a rebuild begins with every segment, and 0 stops it. -/
def Dev.tephraRebuild (c : Nat) (d : Dev) : Option Reply × Dev :=
  let rate := d.req c 32 4
  let left := if rate = 0 ∨ d.mbx.rebuild.2 ≠ [] then d.mbx.rebuild.2 else d.manifestSegs
  (some (replyOk (leBytes 4 left.length)), d.setMbx (fun m => { m with rebuild := (rate, left) }))

def execTephraRebuild (s : State) : Ans := lift (fun d => d.mbxRun 0x0205 (lenIs 36) Dev.tephraRebuild) s

/-- R198: at each epoch edge the hooks of the next segments enter the table, at the rate set. -/
def Dev.rebuildEdge (d : Dev) : Dev :=
  let (rate, left) := d.mbx.rebuild
  let d1 := d.each (left.take rate) (fun seg d => d.each (d.segEnt seg).hooks (fun h d => d.tphOwn h.1 h.2 seg))
  d1.setMbx (fun m => { m with rebuild := (rate, left.drop rate) })

/-! ### Group 0x03 (R547) -/

/-- R543: what an array-wide or volume change does on this head, by its code and arguments (bytes from offset 32). Both heads apply it: the one
that serves the command, and the one that learns it from the journal. A volume is created with the reduction settings of R215; those that the command brings
take effect at the next edge, as every change of them does (R216; DEDUCED, log 199). -/
def Dev.applyChange (d : Dev) (code : Nat) (a : List Byte) : Dev :=
  let f (o n : Nat) : Nat := leField a (o - 32) n
  match code with
  | 0x0301 => d.updSubsys (f 32 1) (fun _ => { valid := true, nqn := (a.drop 4).take 224 })
  | 0x0302 => d.updSubsys (f 32 1) (fun _ => {})
  | 0x0303 =>
    let idx := f 34 2
    let nqn := (a.drop 4).take 224
    let d1 := d.updSubsys (f 32 1) (fun x => { x with
      hosts := if f 33 1 = 1 then x.hosts.filter (fun h => decide (h ≠ idx)) ++ [idx] else x.hosts.filter (fun h => decide (h ≠ idx)) })
    if f 33 1 = 1 then
      (d1.setHost idx (leNat nqn)).setMbx (fun m => { m with hostCfg := tput ([], 0) m.hostCfg idx (nqn, f 260 4) })
    else d1
  | 0x03FF => d.setHost (leField a 0 2) (leField a 2 224)
  | 0x0304 =>
    let v := f 32 2
    let d1 := d.updVol v (fun _ => {
      valid := true, lbaf := decide (f 35 1 = 1), anaGrp := f 48 1, subsys := f 34 1, nsid := f 36 4, size := f 40 8 })
    let d2 := (d1.updVolRed v (fun _ => { dedup := true, verify := false, comp := true, level := 2, kslot := f 50 2 })).updTree v (fun t =>
      if t.state = .free then { t with state := .ready } else t)
    { d2 with edge := d2.edge ++ [EdgeAct.red v (f 49 1)] }
  | 0x0305 => d.updVol (f 32 2) (fun v => { v with size := f 40 8 })
  | 0x0306 =>
    let d1 := d.updVol (f 32 2) (fun v => { v with roVol := decide (f 34 1 = 1) })
    { d1 with edge := d1.edge ++ [EdgeAct.red (f 32 2) (f 35 1)] }
  | 0x0307 => d.updVol (f 32 2) (fun v => { v with valid := false, deleting := true })
  | 0x0604 => d.setMbx (fun m => { m with
      kek := if f 32 1 = 0 then some ((a.drop 8).take 32) else
        match m.kek with
        | some k => (kwUnwrap k ((a.drop 8).take 40)).orElse (fun _ => m.kek)
        | none => none })
  | 0x0702 =>
    let d1 := d.each (List.range 3) (fun i d => d.setFld (Reg.DRV_WIT_CFG_WIT i) (f (32 + i) 1))
    ((d1.setFld Reg.DRV_WIT_CFG_VALID 1).setFld Reg.DRV_WIT_BASE_LOC (f 36 4)).setFld Reg.DRV_ARRAY_TAG_TAG (f 40 4)
  | _ => d

/-- A change is journaled and applied. -/
def Dev.change (d : Dev) (code : Nat) (args : List Byte) : Dev := (d.journalChange code args).applyChange code args

/-- The arguments of channel c's request. -/
def Dev.args (d : Dev) (c : Nat) : List Byte := d.reqBytes c 32 (d.req c 8 4 - 32)

/-- R543: the steward applies the changes that the peer's journal records brought. -/
def Dev.stewardLearn (d : Dev) : Dev :=
  if d.mbx.inbox.isEmpty ∨ d.steward ≠ stRunning then d
  else (d.setMbx (fun m => { m with inbox := [] })).each (changesOf d.mbx.inbox 0 []) (fun x d => d.applyChange x.1 x.2)

/-- NVMe's Namespace Attribute Changed notice, to every controller of a subsystem that enabled it, and its Changed Namespace List. -/
def Dev.nsNotice (d : Dev) (sub nsid : Nat) : Dev :=
  d.each (d.liveCtrls.filter (fun c => decide ((d.ctrl c).subsys = sub))) (fun c d =>
    (d.updCtrl c (fun x => { x with changedNs := if x.changedNs.contains nsid then x.changedNs else x.changedNs ++ [nsid] })).cond
      (decide ((d.ctrl c).asyncConfig.toNat / 2 ^ 8 % 2 = 1)) (fun d => d.asyncEvent c 0x00040002#32))

/-- SUBSYS_CREATE. -/
def Dev.subsysCreate (c : Nat) (d : Dev) : Option Reply × Dev :=
  d.arrayCmd (fun d =>
    if (d.subsystem (d.req c 32 1)).valid then (some (replyNo msNoResource 0), d)
    else d.pendNow 0x0301 (fun d => d.change 0x0301 (d.args c)))

def execSubsysCreate (s : State) : Ans := lift (fun d => d.mbxRun 0x0301 (lenIs 260) Dev.subsysCreate) s

/-- SUBSYS_DELETE. -/
def Dev.subsysDelete (c : Nat) (d : Dev) : Option Reply × Dev :=
  d.arrayCmd (fun d =>
    let i := d.req c 32 1
    if (d.subsystem i).valid = false then (some (replyNo msBadArg 32), d)
    else if d.nvt.ns.any (fun e => (e.2.valid || e.2.deleting) && decide (e.2.subsys = i)) ∨ d.nvt.ctrls.any (fun e => e.2.valid && decide (e.2.subsys = i)) then
      (some (replyNo msBusy 0), d)
    else d.pendNow 0x0302 (fun d => d.change 0x0302 (d.args c)))

def execSubsysDelete (s : State) : Ans := lift (fun d => d.mbxRun 0x0302 (lenIs 33) Dev.subsysDelete) s

/-- HOST_SET: host indices are 12 bits (R132). -/
def Dev.hostSet (c : Nat) (d : Dev) : Option Reply × Dev :=
  d.arrayCmd (fun d =>
    let op := d.req c 33 1
    let idx := d.req c 34 2
    if (d.subsystem (d.req c 32 1)).valid = false then (some (replyNo msBadArg 32), d)
    else if op ≠ 1 ∧ op ≠ 2 then (some (replyNo msBadArg 33), d)
    else if 4096 ≤ idx then (some (replyNo msNoResource 0), d)
    else d.pendNow 0x0303 (fun d => d.change 0x0303 (d.args c)))

def execHostSet (s : State) : Ans := lift (fun d => d.mbxRun 0x0303 (lenIs 264) Dev.hostSet) s

/-- R547: the checks of a volume named at offset 32: it exists, and this head owns its group. -/
def Dev.withVol (d : Dev) (c : Nat) (f : Nat → Option Reply × Dev) : Option Reply × Dev :=
  let v := d.req c 32 2
  if 32768 ≤ v ∨ (d.vol v).valid = false then (some (replyNo msBadArg 32), d)
  else if d.ownsVol v = false then (some (replyNo msNotOwner d.peerSlot), d)
  else f v

/-- The volume or the NSID is in use. -/
def Dev.volTaken (d : Dev) (v sub nsid : Nat) : Bool :=
  (d.vol v).valid || (d.vol v).deleting || decide ((d.tree v).state ≠ .free) || (d.volumeOf sub nsid).isSome

/-- VOL_CREATE, R104, R105. -/
def Dev.volCreate (c : Nat) (d : Dev) : Option Reply × Dev :=
  let f := d.req c
  let slot := f 50 2
  if 32768 ≤ f 32 2 then (some (replyNo msBadArg 32), d)
  else if (d.subsystem (f 34 1)).valid = false then (some (replyNo msBadArg 34), d)
  else if 2 ≤ f 35 1 then (some (replyNo msBadArg 35), d)
  else if f 36 4 = 0 ∨ 32768 < f 36 4 then (some (replyNo msBadArg 36), d)
  else if 2 ^ 35 < f 40 8 then (some (replyNo msBadArg 40), d)
  else if 64 ≤ f 48 1 then (some (replyNo msBadArg 48), d)
  else if bitOf (f 49 1) 3 ∨ bitOf (f 49 1) 7 then (some (replyNo msBadArg 49), d)
  else if 4094 ≤ slot then (some (replyNo msBadArg 50), d)
  else if d.flag (Reg.NVT_ANA_OWN (f 48 1)) = false then (some (replyNo msNotOwner d.peerSlot), d)
  else if d.volTaken (f 32 2) (f 34 1) (f 36 4) then (some (replyNo msNoResource 0), d)
  else if (d.kslot slot).state = .empty then (some (replyNo msKeyErased slot), d)
  else (some (replyOk []), (d.change 0x0304 (d.args c)).nsNotice (f 34 1) (f 36 4))

def execVolCreate (s : State) : Ans := lift (fun d => d.mbxRun 0x0304 (lenIs 52) Dev.volCreate) s

/-- VOL_RESIZE. -/
def Dev.volResize (c : Nat) (d : Dev) : Option Reply × Dev :=
  d.withVol c (fun v =>
    let n := d.req c 40 8
    if n < (d.vol v).size ∨ 2 ^ 35 < n then (some (replyNo msBadArg 40), d)
    else (some (replyOk []), (d.change 0x0305 (d.args c)).nsNotice (d.vol v).subsys (d.vol v).nsid))

def execVolResize (s : State) : Ans := lift (fun d => d.mbxRun 0x0305 (lenIs 48) Dev.volResize) s

/-- VOL_SET: RO_VOL at once, the reduction settings at the next edge (R216). -/
def Dev.volSet (c : Nat) (d : Dev) : Option Reply × Dev :=
  d.withVol c (fun v =>
    if 2 ≤ d.req c 34 1 then (some (replyNo msBadArg 34), d)
    else if bitOf (d.req c 35 1) 3 ∨ bitOf (d.req c 35 1) 7 then (some (replyNo msBadArg 35), d)
    else (some (replyOk []), (d.change 0x0306 (d.args c)).nsNotice (d.vol v).subsys (d.vol v).nsid))

def execVolSet (s : State) : Ans := lift (fun d => d.mbxRun 0x0306 (lenIs 36) Dev.volSet) s

/-- A volume of which a clone's source snapshot was taken, and the clone is still there. -/
def Dev.cloneSource (d : Dev) (v : Nat) : Bool :=
  d.mde.trees.any (fun e => decide (e.1 < 32768) && decide (e.2.state ≠ .free) && decide (32768 ≤ e.2.source ∧ e.2.source < 0x1F_FFFF) &&
    decide ((d.tree e.2.source).source = v))

/-- VOL_DELETE, R324. -/
def Dev.volDelete (c : Nat) (d : Dev) : Option Reply × Dev :=
  d.withVol c (fun v =>
    if d.rep.sess.any (fun e => (decide (e.2.state ≠ .free) || decide (e.2.session ≠ 0)) && decide ((if e.2.target then e.2.dstVol else e.2.srcVol) = v)) ∨
        d.cloneSource v then
      (some (replyNo msBusy 0), d)
    else d.pend 0x0307 (fun n d =>
      let d1 := ((d.change 0x0307 (d.args c)).deleteTree v).nsNotice (d.vol v).subsys (d.vol v).nsid
      ([], d1.setMbx (fun m => { m with treeTickets := m.treeTickets ++ [(v, n)] }))))

def execVolDelete (s : State) : Ans := lift (fun d => d.mbxRun 0x0307 (lenIs 34) Dev.volDelete) s

/-- VOL_QUERY. -/
def Dev.volQuery (c : Nat) (d : Dev) : Option Reply × Dev :=
  d.withVol c (fun v =>
    (some (replyOk ((d.nsWords v).flatMap (leBytes 4) ++ leBytes 1 (d.volRed v).code ++ leBytes 1 0 ++ leBytes 2 (d.volRed v).kslot ++
      leBytes 1 (d.tree v).state.code)), d))

def execVolQuery (s : State) : Ans := lift (fun d => d.mbxRun 0x0308 (lenIs 34) Dev.volQuery) s

/-- GROUP_HOME, R468: the home map of the witness record is to change. -/
def Dev.groupHome (c : Nat) (d : Dev) : Option Reply × Dev :=
  d.arrayCmd (fun d =>
    let g := d.req c 32 1
    let slot := d.req c 33 1
    if 64 ≤ g then (some (replyNo msBadArg 32), d)
    else if 2 ≤ slot then (some (replyNo msBadArg 33), d)
    else if d.nvt.ns.any (fun e => (e.2.valid || e.2.deleting) && decide (e.2.anaGrp = g)) then (some (replyNo msBusy 0), d)
    else d.pend 0x0309 (fun n d =>
      let d1 := (d.journalChange 0x0309 (d.args c)).want (.home (bitPut (d.fld Reg.FOV_HOME_MASK) g (decide (slot = 1))))
      ([], d1.setMbx (fun m => { m with treeTickets := m.treeTickets ++ [(2 ^ 21 + 2 * g + slot, n)] }))))

def execGroupHome (s : State) : Ans := lift (fun d => d.mbxRun 0x0309 (lenIs 34) Dev.groupHome) s

/-! ### Group 0x04 (R320, R548, R549) -/

/-- The volumes and snapshot numbers of a part. -/
def Dev.snapPart (d : Dev) (c : Nat) : List (Nat × Nat) := (List.range (d.req c 32 2)).map (fun i => (d.req c (48 + 8 * i) 2, d.req c (52 + 8 * i) 4))

/-- The first reason why a part, or the whole group, cannot be taken. `base`: the offset at which the pairs lie in this request. -/
def Dev.snapRefused (d : Dev) (l : List (Nat × Nat)) (base : Option Nat) : Option Reply :=
  let at_ (i o : Nat) : Nat := match base with
    | some b => b + 8 * i + o
    | none => 32
  (l.zipIdx.findSome? (fun (x : (Nat × Nat) × Nat) =>
    if 32768 ≤ x.1.1 ∨ (d.vol x.1.1).valid = false then some (replyNo msBadArg (at_ x.2 0))
    else if 1048576 ≤ x.1.2 then some (replyNo msBadArg (at_ x.2 4))
    -- R335, log 200: of a DAMAGED tree no snapshot is taken
    else if (d.tree x.1.1).state = .damaged then some (replyNo msBadArg (at_ x.2 0))
    else none)).orElse (fun _ =>
  (if l.any (fun x => d.ownsVol x.1 = false) then some (replyNo msNotOwner d.peerSlot)
   else if l.any (fun x => decide ((d.tree (32768 + x.2)).state ≠ .free)) ∨ ¬(l.map (·.2)).Nodup then some (replyNo msNoResource 0)
   else none))

/-- R320: the group takes effect: one effect beat, a snapshot of each volume. -/
def Dev.snapGroup (d : Dev) (l : List (Nat × Nat)) (grp gen ticket : Nat) : Nat × Dev :=
  let d1 := d.each l (fun x d =>
    let d2 := (d.snapTake (32768 + x.2) x.1 grp).2
    (d2.setGen (32768 + x.2) gen).setMbx (fun m => { m with
      snapTickets := m.snapTickets ++ [(32768 + x.2, ticket)] }))
  (d.nextBeatNo, d1)

/-- SNAP_CREATE, R548, R549. -/
def Dev.snapCreate (c : Nat) (d : Dev) : Option Reply × Dev :=
  let grp := d.req c 34 2
  let gen := d.req c 40 8
  let more := decide (d.req c 36 1 % 2 = 1)
  let run := d.mbx.snapRuns.find? (fun r => decide (r.chan = c))
  let part := d.snapPart c
  let held := ((run.map (·.vols)).getD []) ++ part
  let clear (d : Dev) : Dev := d.setMbx (fun m => { m with snapRuns := m.snapRuns.filter (fun r => decide (r.chan ≠ c)) })
  if (run.map (·.dead)).getD false then (some (replyNo msBadArg 36), clear d)
  else if part = [] ∨ 506 < part.length ∨ 1024 < held.length then (some (replyNo msBadArg 32), d)
  else if 2 ≤ d.req c 36 1 then (some (replyNo msBadArg 36), d)
  else if (run.map (fun r => decide (r.grp ≠ grp))).getD false then (some (replyNo msBadArg 34), d)
  else if (run.map (fun r => decide (r.gen ≠ gen))).getD false then (some (replyNo msBadArg 40), d)
  else match (d.snapRefused part (some 48)).orElse (fun _ => d.snapRefused held none) with
    | some r => (some r, d)
    | none =>
      if more then
        (some (replyOk (leBytes 8 0 ++ leBytes 2 held.length)),
          (clear d).setMbx (fun m => { m with snapRuns := m.snapRuns ++ [{ chan := c, vols := held, grp := grp, gen := gen, beat := d.fld (Reg.MBX_DB_BEAT_BEAT c) }] }))
      else (clear d).pend 0x0401 (fun n d =>
        let (b, d1) := d.snapGroup held grp gen n
        (leBytes 8 b ++ leBytes 2 held.length, d1))

/-- LENGTH of SNAP_CREATE. -/
def snapLen (c : Nat) (d : Dev) (len : Nat) : Bool := decide (len = 48 + 8 * d.req c 32 2)

def execSnapCreate (s : State) : Ans := lift (fun d => d.mbxRun 0x0401 snapLen Dev.snapCreate) s

/-- SNAP_RUN_TIMEOUT, R549: the next part has not come within 2^20 beats of the previous part's doorbell. -/
def Dev.snapRunTimeout (d : Dev) : Dev :=
  d.setMbx (fun m => { m with snapRuns := m.snapRuns.map (fun r => if 2 ^ 20 < d.since r.beat then { r with dead := true } else r) })

def execSnapRunTimeout (s : State) : Ans := lift Dev.snapRunTimeout s

/-- R418: a session holds a snapshot as its BASE_GEN or NEW_GEN. -/
def Dev.snapHeld (d : Dev) (t : Nat) : Bool :=
  let gen := tget 0 d.rep.gens t
  decide (gen ≠ 0) && d.rep.sess.any (fun e => (decide (e.2.state ≠ .free) || decide (e.2.session ≠ 0)) &&
    decide ((if e.2.target then e.2.dstVol else e.2.srcVol) = (d.tree t).source) && (decide (e.2.baseGen = gen) || decide (e.2.newGen = gen)))

/-- SNAP_DELETE. -/
def Dev.snapDelete (c : Nat) (d : Dev) : Option Reply × Dev :=
  let s := d.req c 32 4
  let t := 32768 + s
  if 1048576 ≤ s ∨ (d.tree t).state = .free then (some (replyNo msBadArg 32), d)
  else if d.ownsVol (d.tree t).source = false then (some (replyNo msNotOwner d.peerSlot), d)
  else if d.snapHeld t ∨ (d.tree t).state = .pending ∨ (d.tree t).state = .deleting then (some (replyNo msBusy 0), d)
  else d.pend 0x0402 (fun n d =>
    ([], ((d.deleteTree t).setGen t 0).setMbx (fun m => { m with treeTickets := m.treeTickets ++ [(t, n)] })))

def execSnapDelete (s : State) : Ans := lift (fun d => d.mbxRun 0x0402 (lenIs 36) Dev.snapDelete) s

/-- CLONE_CREATE, R323: a volume whose tree shares the snapshot's root; it takes its source volume's size, key slot and reduction settings. -/
def Dev.cloneCreate (c : Nat) (d : Dev) : Option Reply × Dev :=
  let f := d.req c
  let t := 32768 + f 32 4
  let src := (d.tree t).source
  let v := f 36 2
  if 1048576 ≤ f 32 4 ∨ (d.tree t).state = .free then (some (replyNo msBadArg 32), d)
  else if 32768 ≤ v then (some (replyNo msBadArg 36), d)
  else if (d.subsystem (f 38 1)).valid = false then (some (replyNo msBadArg 38), d)
  else if 64 ≤ f 39 1 then (some (replyNo msBadArg 39), d)
  else if f 40 4 = 0 ∨ 32768 < f 40 4 then (some (replyNo msBadArg 40), d)
  else if d.flag (Reg.NVT_ANA_OWN (f 39 1)) = false then (some (replyNo msNotOwner d.peerSlot), d)
  else if d.volTaken v (f 38 1) (f 40 4) then (some (replyNo msNoResource 0), d)
  else if (d.tree t).state ≠ .ready then (some (replyNo msBusy 0), d)
  else
    let r := d.volRed src
    let x := d.vol src
    let d1 := d.change 0x0304 (leBytes 2 v ++ leBytes 1 (f 38 1) ++ leBytes 1 (if x.lbaf then 1 else 0) ++ leBytes 4 (f 40 4) ++ leBytes 8 x.size ++
      leBytes 1 (f 39 1) ++ leBytes 1 r.code ++ leBytes 2 r.kslot)
    (some (replyOk []), ((d1.journal (.snapshot v t 0 d.beat)).shareRoot v t).nsNotice (f 38 1) (f 40 4))

def execCloneCreate (s : State) : Ans := lift (fun d => d.mbxRun 0x0403 (lenIs 44) Dev.cloneCreate) s

/-- The snapshots from number `start` on, in order. -/
def Dev.snapsFrom (d : Dev) (start : Nat) : List Nat :=
  (d.mde.trees.filter (fun e => decide (32768 + start ≤ e.1) && decide (e.2.state ≠ .free))).map (·.1)

/-- SNAP_LIST. -/
def Dev.snapList (c : Nat) (d : Dev) : Option Reply × Dev :=
  let l := (d.snapsFrom (d.req c 32 4)).take 253
  (some (replyOk (leBytes 2 l.length ++ leBytes 6 0 ++ l.flatMap (fun t =>
    leBytes 4 (t - 32768) ++ leBytes 2 (d.tree t).source ++ leBytes 1 (d.tree t).state.code ++ leBytes 1 0 ++ leBytes 8 (tget 0 d.rep.gens t)))), d)

def execSnapList (s : State) : Ans := lift (fun d => d.mbxRun 0x0404 (lenIs 36) Dev.snapList) s

/-! ### Group 0x05 (R416, R417, R550) -/

/-- The session whose INDEX a request names. -/
def Dev.withSess (d : Dev) (c : Nat) (f : Nat → Option Reply × Dev) : Option Reply × Dev :=
  let i := d.req c 32 1
  if (d.sess i).state = .free ∧ (d.sess i).session = 0 then (some (replyNo msBadArg 32), d) else f i

/-- REP_CREATE. The head that owns the session's volume runs it. -/
def Dev.repCreate (c : Nat) (d : Dev) : Option Reply × Dev :=
  let f := d.req c
  let role := f 32 1
  let v := if role = 0 then f 34 2 else f 36 2
  if 2 ≤ role then (some (replyNo msBadArg 32), d)
  else if 16 ≤ f 33 1 then (some (replyNo msBadArg 33), d)
  else if 32768 ≤ f 34 2 ∨ (role = 0 ∧ (d.vol (f 34 2)).valid = false) then (some (replyNo msBadArg 34), d)
  else if 32768 ≤ f 36 2 ∨ (role = 1 ∧ (d.vol (f 36 2)).valid = false) then (some (replyNo msBadArg 36), d)
  else if role = 1 ∧ (f 38 2 = 0 ∨ 2048 < f 38 2) then (some (replyNo msBadArg 38), d)
  else if f 40 8 = 0 ∨ d.rep.sess.any (fun e => decide (e.2.session = f 40 8)) then (some (replyNo msBadArg 40), d)
  else if d.ownsVol v = false then (some (replyNo msNotOwner d.peerSlot), d)
  else match d.freeSess with
    | none => (some (replyNo msNoResource 0), d)
    | some i => (some (replyOk (leBytes 1 i)), d.updSess i (fun _ => {
        target := decide (role = 1), port := f 33 1, srcVol := f 34 2, dstVol := f 36 2, want := f 38 2, session := f 40 8
        addr0 := d.reqBytes c 48 16, addr1 := d.reqBytes c 64 16 }))

def execRepCreate (s : State) : Ans := lift (fun d => d.mbxRun 0x0501 (lenIs 80) Dev.repCreate) s

/-- REP_START, R416, R431: a cycle from BASE_GEN to a higher NEW_GEN, on the source. -/
def Dev.repBegin (c : Nat) (d : Dev) : Option Reply × Dev :=
  d.withSess c (fun i =>
    let s := d.sess i
    let base := d.req c 40 8
    let new := d.req c 48 8
    if s.state ≠ .free ∧ s.state ≠ .done ∧ s.state ≠ .failed then (some (replyNo msBusy 0), d)
    else if base ≠ 0 ∧ s.target = false ∧ (d.genTree s.srcVol base).isNone then (some (replyNo msBadArg 40), d)
    else if new ≤ base ∨ (s.target = false ∧ (d.genTree s.srcVol new).isNone) then (some (replyNo msBadArg 48), d)
    else d.pend 0x0502 (fun n d =>
      ([], (d.updSess i (fun s => { s with baseGen := base, newGen := new, ticket := n, cursor := 0 })).repStart i)))

def execRepStart (s : State) : Ans := lift (fun d => d.mbxRun 0x0502 (lenIs 56) Dev.repBegin) s

/-- R550: the ticket of a cycle ends OK at DONE; at FAILED it is INTERNAL with the last code of R424. -/
def Dev.repTickets (d : Dev) : Dev :=
  d.each (d.rep.sess.filter (fun e => decide (e.2.ticket ≠ 0))) (fun e d =>
    if e.2.state = .done then (d.ticketEnd e.2.ticket 0 0).updSess e.1 (fun s => { s with ticket := 0 })
    else if e.2.state = .failed then (d.ticketEnd e.2.ticket 0xFF e.2.reason).updSess e.1 (fun s => { s with ticket := 0 })
    else d)

/-- REP_SUSPEND, R424, R431: the session is suspended with CANCELLED. The suspended event has no cause for it, and is not raised. -/
def Dev.repSuspendCmd (c : Nat) (d : Dev) : Option Reply × Dev :=
  d.withSess c (fun i => (some (replyOk []),
    if (d.sess i).state ∈ [RepState.opening, .streaming, .committing] then
      (d.updSess i (fun s => { s.drop with state := .suspended, reason := rcCancelled })).arm (tmRep i)
    else d))

def execRepSuspend (s : State) : Ans := lift (fun d => d.mbxRun 0x0503 (lenIs 33) Dev.repSuspendCmd) s

/-- REP_RESUME. -/
def Dev.repResumeCmd (c : Nat) (d : Dev) : Option Reply × Dev :=
  d.withSess c (fun i =>
    if (d.sess i).state ≠ .suspended then (some (replyNo msBusy 0), d)
    else (some (replyOk []), d.repStart i))

def execRepResume (s : State) : Ans := lift (fun d => d.mbxRun 0x0504 (lenIs 33) Dev.repResumeCmd) s

/-- REP_DELETE: an active session is cancelled first (R424, R431). -/
def Dev.repDeleteCmd (c : Nat) (d : Dev) : Option Reply × Dev :=
  d.withSess c (fun i =>
    let d1 := if (d.sess i).active then (d.repFail i rcCancelled 0 true).repTickets else d
    (some (replyOk []), (d1.journal (.steward (repWhatA + 256 * i + 2 ^ 17) (d1.sess i).session 0 0)).updSess i (fun _ => {})))

def execRepDelete (s : State) : Ans := lift (fun d => d.mbxRun 0x0505 (lenIs 33) Dev.repDeleteCmd) s

end Sys2Proof.Machine
end

