-- ==== Sys2Proof/Machine/MboxMore.lean ====
section
/-! DEFINITION. Mailbox commands of groups 0x06 to 0x0B: keys, ownership, events, counters, updates and diagnostics (R551 to R555), and the
restart of the steward (R556, R557). -/
namespace Sys2Proof.Machine

/-! ### Group 0x06 (R551, R552) -/

/-- R541: why the key store is locked: 2 by a debug opening, 1 by an alarm. -/
def Dev.lockCause (d : Dev) : Nat := if d.dbgActive then 2 else 1

/-- KEY_LOAD, R551, R552. The two system keys are kept in the settings region. -/
def Dev.keyLoadCmd (c : Nat) (d : Dev) : Option Reply × Dev :=
  let slot := d.req c 32 2
  let gen := d.req c 34 2
  if d.flag Reg.KEY_STS_BUSY then (none, d)
  else if 4096 ≤ slot then (some (replyNo msBadArg 32), d)
  else if 2 ^ 15 ≤ gen then (some (replyNo msBadArg 34), d)
  else if d.flag Reg.KEY_STS_LOCKED then (some (replyNo msLocked d.lockCause), d)
  else if d.flag Reg.SEC_STS_DUK_BLOCKED then (some (replyNo msLocked 3), d)
  else match d.mbx.kek with
    | none => (some (replyNo msLocked 3), d)
    | some kek =>
      match kwUnwrap kek (d.reqBytes c 40 40) with
      | none => (some (replyNo msBadArg 40), d)
      | some key =>
        if (d.kslot slot).state ≠ .empty ∧ (d.kslot slot).gen = gen then (some (replyNo msBadArg 34), d)
        else
          let d1 := (d.stewardLoad slot gen key).cond (decide (4094 ≤ slot)) (fun d =>
            d.setMbx (fun m => { m with sysKeys := tput (0, []) m.sysKeys slot (gen, key) }))
          (some (replyOk (leBytes 4 (d1.kslot slot).kcv ++ leBytes 1 (d1.kslot slot).state.code)), d1)

def execKeyLoad (s : State) : Ans := lift (fun d => d.mbxRun 0x0601 (lenIs 80) Dev.keyLoadCmd) s

/-- KEY_ZEROISE: one slot, or every slot. An erased system key leaves the settings region too. -/
def Dev.keyZeroiseCmd (c : Nat) (d : Dev) : Option Reply × Dev :=
  let slot := d.req c 32 2
  let before := d.fld Reg.KEY_ABORTS_COUNT
  let drop (d : Dev) : Dev := d.setMbx (fun m => { m with sysKeys := m.sysKeys.filter (fun x => decide (slot ≠ 0xFFFF ∧ x.1 ≠ slot)) })
  if d.flag Reg.KEY_STS_BUSY then (none, d)
  else if slot = 0xFFFF then
    let d1 := drop ((d.zeroiseAll 0).keyEnd 4 0 ksOk)
    (some (replyOk (leBytes 4 (d1.fld Reg.KEY_ABORTS_COUNT - before))), d1)
  else if 4096 ≤ slot then (some (replyNo msBadArg 32), d)
  else
    let d1 := drop ((d.zeroise slot).keyEnd 3 slot ksOk)
    (some (replyOk (leBytes 4 (d1.fld Reg.KEY_ABORTS_COUNT - before))), d1)

def execKeyZeroise (s : State) : Ans := lift (fun d => d.mbxRun 0x0602 (lenIs 34) Dev.keyZeroiseCmd) s

/-- KEY_QUERY. -/
def Dev.keyQueryCmd (c : Nat) (d : Dev) : Option Reply × Dev :=
  let slot := d.req c 32 2
  if 4096 ≤ slot then (some (replyNo msBadArg 32), d) else (some (replyOk ((d.slotWords slot).flatMap (leBytes 4))), d)

def execKeyQuery (s : State) : Ans := lift (fun d => d.mbxRun 0x0603 (lenIs 34) Dev.keyQueryCmd) s

/-- KEK_SET. -/
def Dev.kekSet (c : Nat) (d : Dev) : Option Reply × Dev :=
  d.arrayCmd (fun d =>
    let form := d.req c 32 1
    let done (kek : List Byte) : Option Reply × Dev := (some (replyOk (leBytes 4 (Machine.keyCheck kek))), d.change 0x0604 (d.args c))
    if d.flag Reg.SEC_STS_DUK_BLOCKED then (some (replyNo msLocked 3), d)
    else if 2 ≤ form ∨ (form = 0 ∧ d.mbx.kek.isSome) then (some (replyNo msBadArg 32), d)
    else if form = 0 then done (d.reqBytes c 40 32)
    else match d.mbx.kek with
      | none => (some (replyNo msLocked 3), d)
      | some k =>
        match kwUnwrap k (d.reqBytes c 40 40) with
        | none => (some (replyNo msBadArg 40), d)
        | some kek => done kek)

/-- LENGTH of KEK_SET, by FORM. -/
def kekLen (c : Nat) (d : Dev) (len : Nat) : Bool := decide (len = (if d.req c 32 1 = 0 then 72 else 80))

def execKekSet (s : State) : Ans := lift (fun d => d.mbxRun 0x0604 kekLen Dev.kekSet) s

/-! ### Group 0x07 (R553) -/

/-- WITNESS_READ. -/
def Dev.witnessBody (d : Dev) : List Byte := padTo 80 d.fov.raw ++ leBytes 1 (d.fld Reg.FOV_WIT_STS_MAJORITY)

def execWitnessRead (s : State) : Ans := lift (fun d => d.mbxRun 0x0701 (lenIs 32) (fun _ d => (some (replyOk d.witnessBody), d))) s

/-- WITNESS_SET. -/
def Dev.witnessSet (c : Nat) (d : Dev) : Option Reply × Dev :=
  d.arrayCmd (fun d =>
    match (List.range 3).find? (fun i => decide (128 ≤ d.req c (32 + i) 1)) with
    | some i => (some (replyNo msBadArg (32 + i)), d)
    | none =>
      if (List.range 3).any (fun i => d.isOn (.att (d.req c (32 + i) 1)) = false) then (some (replyNo msBusy 0), d)
      else d.pendNow 0x0702 (fun d => d.change 0x0702 (d.args c)))

def execWitnessSet (s : State) : Ans := lift (fun d => d.mbxRun 0x0702 (lenIs 44) Dev.witnessSet) s

/-- HANDOVER: groups, or with 0 the whole head (R493). -/
def Dev.mbxHandover (c : Nat) (d : Dev) : Option Reply × Dev :=
  let mask := d.req c 32 8
  if d.fovState ≠ fsPaired then (some (replyNo msPeerAbsent d.fovState), d)
  else if (List.range 64).any (fun g => bitOf mask g && !d.flag (Reg.NVT_ANA_OWN g)) then (some (replyNo msNotOwner d.peerSlot), d)
  else if mask = 0 ∧ d.ownMask = 0 then d.pendNow 0x0703 (fun d => d)
  else d.pend 0x0703 (fun n d =>
    let d1 := if mask = 0 then d.handoverCtl else d.handoverBegin mask false false false
    ([], d1.setMbx (fun m => { m with handTicket := n })))

def execMbxHandover (s : State) : Ans := lift (fun d => d.mbxRun 0x0703 (lenIs 40) Dev.mbxHandover) s

/-- FOV_ACTION. -/
def Dev.fovAction (c : Nat) (d : Dev) : Option Reply × Dev :=
  match d.req c 32 1 with
  | 1 => (some (replyOk []), d.failback)
  | 2 => (some (replyOk []), d.fenceRelease 1)
  | 3 => (some (replyOk []), d.acceptLoss)
  | 4 => if d.ownMask ≠ 0 then (some (replyNo msBusy 0), d) else (some (replyOk []), d.fovLeave)
  | _ => (some (replyNo msBadArg 32), d)

def execFovAction (s : State) : Ans := lift (fun d => d.mbxRun 0x0704 (lenIs 33) Dev.fovAction) s

/-! ### Groups 0x08 and 0x09 (R554, R565, R575, R597) -/

/-- The routing register of source n with DEST and VECTOR; SEV stays. -/
def Dev.routeWord (d : Dev) (n dest vec : Nat) : Nat := dest + 16 * d.fld (Reg.EVC_ROUTE_SEV n) + 2 ^ 16 * vec

/-- EVT_ROUTE: the routing registers are written, and applied again at every start. -/
def Dev.evtRoute (c : Nat) (d : Dev) : Option Reply × Dev :=
  let first := d.req c 32 2
  let n := d.req c 34 2
  let dest := d.req c 36 1
  let vec := d.req c 38 2
  if 2048 ≤ first then (some (replyNo msBadArg 32), d)
  else if 2048 < first + n then (some (replyNo msBadArg 34), d)
  else if 16 ≤ dest then (some (replyNo msBadArg 36), d)
  else if 2048 ≤ vec then (some (replyNo msBadArg 38), d)
  else (some (replyOk []), d.each ((List.range n).map (first + ·)) (fun s d =>
    let a := 0x010_1000 + 4 * s
    (d.regWrite a (d.routeWord s dest vec)).persist a (d.routeWord s dest vec)))

def execEvtRoute (s : State) : Ans := lift (fun d => d.mbxRun 0x0801 (lenIs 40) Dev.evtRoute) s

/-- FUM_READ, R575: records from a SEQ on; those no longer in the ring come from the partition. -/
def Dev.fumFrom (d : Dev) (from_ : Nat) : List (List Byte) :=
  let sinceFrom (s : Nat) : Bool := decide (s = from_) || seqNewer s from_
  let old := (d.fum.nor.filter (fun e => crcGood e.2 && decide (e.2.length = 32) && sinceFrom (fumSeq e.2) &&
    seqNewer (d.fld Reg.FUM_OLDEST_SEQ) (fumSeq e.2))).map (·.2)
  let part := old.foldl (fun (l : List (List Byte)) r =>
    l.filter (fun x => seqNewer (fumSeq r) (fumSeq x)) ++ [r] ++ l.filter (fun x => seqNewer (fumSeq x) (fumSeq r))) []
  part ++ (d.fum.ring.filter (fun e => sinceFrom e.1 && !d.fum.bad.contains (e.1 % ringRecs))).map (·.2)

def Dev.fumReadCmd (c : Nat) (d : Dev) : Option Reply × Dev :=
  if 126 < d.req c 36 1 then (some (replyNo msBadArg 36), d)
  else
    let l := (d.fumFrom (d.req c 32 4)).take (d.req c 36 1)
    (some (replyOk (leBytes 1 l.length ++ leBytes 3 0 ++ leBytes 4 (d.fld Reg.FUM_OLDEST_SEQ) ++ List.replicate 24 0 ++ l.flatMap (padTo 32))), d)

def execFumRead (s : State) : Ans := lift (fun d => d.mbxRun 0x0802 (lenIs 37) Dev.fumReadCmd) s

/-- FUM_FLUSH. -/
def Dev.fumFlushCmd (_ : Nat) (d : Dev) : Option Reply × Dev :=
  if d.flag Reg.FUM_STS_NOR_FAILED then (some (replyNo msBusy 0), d) else (some (replyOk []), (d.setFld Reg.FUM_CTL_FLUSH 1).fumTrigger)

def execFumFlush (s : State) : Ans := lift (fun d => d.mbxRun 0x0803 (lenIs 32) Dev.fumFlushCmd) s

/-- PMC_EVENTS: the events of a block from number START on. Their names are not given: free bytes. -/
def Dev.pmcEventsCmd (c : Nat) (d : Dev) : Option Reply × Dev :=
  let b := d.req c 32 1
  if 9 ≤ b then (some (replyNo msBadArg 32), d)
  else
    let l := ((pmcEvents b).filter (fun e => decide (d.req c 34 2 ≤ e))).take 253
    let (body, d1) := l.foldl (fun (acc : List Byte × Dev) e =>
      let (name, d) := acc.2.freeBlock 12
      (acc.1 ++ leBytes 2 e ++ leBytes 2 (if pmcOccupancy e then 1 else 0) ++ name, d)) ([], d)
    (some (replyOk (leBytes 2 l.length ++ List.replicate 14 0 ++ body)), d1)

def execPmcEvents (s : State) : Ans := lift (fun d => d.mbxRun 0x0901 (lenIs 36) Dev.pmcEventsCmd) s

/-- PMC_SNAPSHOT: a block's snapshot of the last epoch edge (R593). -/
def Dev.pmcSnapshotCmd (c : Nat) (d : Dev) : Option Reply × Dev :=
  let b := d.req c 32 1
  if 9 ≤ b then (some (replyNo msBadArg 32), d)
  else (some (replyOk (leBytes 8 (d.fld (Reg.PMC_SNAP_EPOCH_EPOCH b)) ++ leBytes 8 (d.fld (Reg.PMC_SNAP_CYCLE_CYCLE b)) ++
    (List.range 8).flatMap (fun n => leBytes 8 (d.fld (Reg.PMC_SNAP_CNT_COUNT b n))))), d)

def execPmcSnapshot (s : State) : Ans := lift (fun d => d.mbxRun 0x0902 (lenIs 33) Dev.pmcSnapshotCmd) s

/-- PMC_USER. -/
def Dev.pmcUserCmd (c : Nat) (d : Dev) : Option Reply × Dev :=
  if 2 ≤ d.req c 32 1 then (some (replyNo msBadArg 32), d) else (some (replyOk []), d.setFld (Reg.PMC_BLK_CTL_USER_EN 0) (d.req c 32 1))

def execPmcUser (s : State) : Ans := lift (fun d => d.mbxRun 0x0903 (lenIs 33) Dev.pmcUserCmd) s

/-! ### Group 0x0A (R554, R631, R634, R635) -/

/-- STAGE_BEGIN. A staging buffer is 128 MiB. -/
def Dev.stageBegin (c : Nat) (d : Dev) : Option Reply × Dev :=
  let size := d.req c 40 8
  if d.slotHeld then (some (replyNo msStagingBusy (d.fld Reg.UPD_STS_HOLDER)), d.stageRefuse 1 msStagingBusy (d.fld Reg.UPD_STS_HOLDER))
  else if 2 ^ 27 < size then (some (replyNo msBadArg 40), d)
  else (some (replyOk []), (d.setFld Reg.UPD_STS_STAGE 1).setUpd (fun u => { u with buf := some (size, []) }))

def execStageBegin (s : State) : Ans := lift (fun d => d.mbxRun 0x0A01 (lenIs 48) Dev.stageBegin) s

/-- STAGE_DATA: the chunk begins where the previous one ended. -/
def Dev.stageData (c : Nat) (d : Dev) : Option Reply × Dev :=
  let len := d.req c 40 4
  match d.upd.buf with
  | none => (some (replyNo msBadArg 32), d)
  | some (size, bs) =>
    if d.req c 32 8 ≠ bs.length then (some (replyNo msBadArg 32), d)
    else if 4048 < len ∨ size < bs.length + len then (some (replyNo msBadArg 40), d)
    else (some (replyOk []), d.setUpd (fun u => { u with buf := some (size, bs ++ d.reqBytes c 48 len) }))

/-- LENGTH of STAGE_DATA. -/
def stageLen (c : Nat) (d : Dev) (len : Nat) : Bool := lenIs (48 + d.req c 40 4) c d len

def execStageData (s : State) : Ans := lift (fun d => d.mbxRun 0x0A02 stageLen Dev.stageData) s

/-- STAGE_END: the package is verified and takes the slot. Data that do not cover SIZE are no package: they fail the first check of R630. -/
def Dev.stageEnd (_ : Nat) (d : Dev) : Option Reply × Dev :=
  if (d.newTicket 0x0A03).isNone then (some (replyNo msNoResource 0), d)
  else
    let m := match d.upd.buf with
      | some (size, bs) => if bs.length = size then bs else []
      | none => []
    let (r, d1) := d.stage 1 m
    let d2 := d1.setUpd (fun u => { u with buf := none })
    if r.1 ≠ 0 then (some (replyNo r.1 r.2), d2)
    else d2.pend 0x0A03 (fun n d => (d.ownDigest, d.ticketEnd n 0 0))

def execStageEnd (s : State) : Ans := lift (fun d => d.mbxRun 0x0A03 (lenIs 32) Dev.stageEnd) s

/-- ACTIVATE_ARM, R634. -/
def Dev.activateArm (c : Nat) (d : Dev) : Option Reply × Dev :=
  let e := d.req c 40 8
  if e < d.epoch + 2 then (some (replyNo msBadArg 40), d)
  else if d.slotHeld = false then (some (replyNo msStagingBusy (d.fld Reg.UPD_STS_HOLDER)), d)
  else if d.activates = false then (some (replyNo msPeerAbsent d.fovState), d)
  else if d.act ≠ actIdle ∨ d.upd.armSent then (some (replyNo msBusy 0), d)
  else d.pend 0x0A04 (fun n d =>
    let d1 := (d.setFld Reg.UPD_ARM_EPOCH_EPOCH e).setUpd (fun u => { u with ticket := n, prev := d.fld Reg.UPD_STS_HOLDER })
    ([], if d.strap 5 then (d1.setUpd (fun u => { u with armSent := true })).updMsg 2 e d.ownDigest else d1.armFor e))

def execActivateArm (s : State) : Ans := lift (fun d => d.mbxRun 0x0A04 (lenIs 48) Dev.activateArm) s

/-- ACTIVATE_CANCEL, R635. -/
def Dev.activateCancel (_ : Nat) (d : Dev) : Option Reply × Dev :=
  if actLive ≤ d.act ∨ (d.act = actArmed ∧ d.fld Reg.UPD_ARM_EPOCH_EPOCH ≤ d.epoch) then (some (replyNo msBusy 0), d)
  else if d.act = actArmed ∨ d.upd.armSent then (some (replyOk []), d.disarmUpd.updMsg 5 0 zeroDigest)
  else (some (replyOk []), d)

def execActivateCancel (s : State) : Ans := lift (fun d => d.mbxRun 0x0A05 (lenIs 32) Dev.activateCancel) s

/-- UPDATE_STATUS. -/
def Dev.updateBody (d : Dev) : List Byte := (List.range 8).flatMap (fun i => leBytes 4 (d.fieldWord (0x140_0010 + 4 * i)))

def execUpdateStatus (s : State) : Ans := lift (fun d => d.mbxRun 0x0A06 (lenIs 32) (fun _ d => (some (replyOk d.updateBody), d))) s

/-! ### Group 0x0B (R555, R653, R655) -/

/-- ECHO. -/
def execEcho (s : State) : Ans := lift (fun d => d.mbxRun 0x0B01 (fun _ _ _ => true) (fun c d => (some (replyOk (d.args c)), d))) s

/-- STEWARD_RESTART. -/
def Dev.restartCmd (_ : Nat) (d : Dev) : Option Reply × Dev :=
  d.pend 0x0B02 (fun n d => ([], (d.setMbx (fun m => { m with restartTicket := n })).atEdge (.stewardRestart 1)))

def execStewardRestart (s : State) : Ans := lift (fun d => d.mbxRun 0x0B02 (lenIs 32) Dev.restartCmd) s

/-- LANE_MARGIN: what the margining measures is a free value. -/
def Dev.laneMargin (c : Nat) (d : Dev) : Option Reply × Dev :=
  if 128 ≤ d.req c 32 1 then (some (replyNo msBadArg 32), d)
  else if 4 ≤ d.req c 33 1 then (some (replyNo msBadArg 33), d)
  else if d.isOn (.att (d.req c 32 1)) = false then (some (replyNo msBusy 0), d)
  else
    let (k, d1) := d.draw
    (some (replyOk (leBytes 2 (Config.freeNat k) ++ leBytes 2 (Config.freeNat k / 2 ^ 16))), d1)

def execLaneMargin (s : State) : Ans := lift (fun d => d.mbxRun 0x0B03 (lenIs 34) Dev.laneMargin) s

/-- DEBUG_CHALLENGE, R653. -/
def Dev.debugChallenge (_ : Nat) (d : Dev) : Option Reply × Dev :=
  if d.ownMask ≠ 0 then (some (replyNo msNotOwner d.peerSlot), d)
  else
    let (ch, d1) := d.drawChallenge
    (some (replyOk ch), d1)

def execDebugChallenge (s : State) : Ans := lift (fun d => d.mbxRun 0x0B04 (lenIs 32) Dev.debugChallenge) s

/-- DEBUG_OPEN, R655, R656. A LENGTH that does not fit (R542) refuses it like any other ending, and the challenge goes. -/
def Dev.debugOpen (c : Nat) (d : Dev) : Option Reply × Dev :=
  let len := d.req c 32 2
  let tok := d.reqBytes c 40 len
  if !lenIs (40 + len) c d (d.req c 8 4) then (some (replyNo msBadArg 8), d.debugRefuse msBadArg 8)
  else match d.debugCheck len tok with
  | some (st, det) => (some (replyNo st det), d.debugRefuse st det)
  | none =>
    if (d.newTicket 0x0B05).isNone then (some (replyNo msNoResource 0), d.debugRefuse msNoResource 0)
    else d.pend 0x0B05 (fun n d => ([], d.debugAccept tok n))

def execDebugOpen (s : State) : Ans := lift (fun d => d.mbxRun 0x0B05 (fun _ _ _ => true) Dev.debugOpen) s

/-! ### Restart of the steward (R556, R557) and of the management function (R528) -/

/-- R556: requests that were RUNNING are run again, and their responses carry RESTARTED. -/
def Dev.runAgain (d : Dev) : Dev :=
  let cs := (List.range 8).filter (fun c => decide (d.fld (Reg.MBX_STS_STATE c) = 2))
  (d.each cs (fun c d => d.setFld (Reg.MBX_STS_RESTARTED c) 1)).setMbx (fun m => { m with again := cs })

/-- STEWARD_RESTART_DONE, R557: the fifth restart within 16 epochs halts the steward; otherwise an image is verified and started. -/
def Dev.restartDone (d : Dev) (card : Option (List Byte)) (convert : Bool) : Dev :=
  if d.steward ≠ stRestarting then d
  else if 5 ≤ d.mbx.restarts.length then d.stewardHalt 1
  else
    let was := d.mbx.restart.getD (1, d.beat)
    let d1 := (d.bootSteward card).2
    if d1.steward ≠ stRunning then d1
    else
      let d2 := (d1.setFld Reg.MBX_KICK_BEAT d1.beat).raise 1865 was.1 (d1.fld Reg.MBX_GLB_STS_RESTARTS) (d1.beat - was.2)
      let d3 := (d2.runAgain.ticketEnd d2.mbx.restartTicket 0 0).setMbx (fun m => { m with restart := none, restartTicket := 0 })
      d3.cond (decide (was.1 = 2)) (fun d => d.liveDone convert)

def execStewardRestartDone (card : Option (List Byte)) (convert : Bool) (s : State) : Ans := lift (fun d => d.restartDone card convert) s

/-- MANAGEMENT_RESET, R528: only the MSI-X table and the PBA are reset. -/
def Dev.managementReset (d : Dev) (kind : Nat) : Dev :=
  { d with fields := d.fields.filter (fun e => decide (¬(8 * (Reg.bar2 + 0xC_0000) ≤ e.1 ∧ e.1 < 8 * (Reg.bar2 + 0xD_0100)))) }.raise 1869 kind 0 0

def execManagementReset (kind : Nat) (s : State) : Ans := lift (fun d => d.managementReset kind) s

end Sys2Proof.Machine
end

