-- ==== Sys2Proof/Machine/Dispatch.lean ====
section
/-! DEFINITION. One arm per command: each calls its meaning. -/
namespace Sys2Proof.Machine

-- One arm per row of spec/opcode_table.json, in the order of the constructors of Instr.
def exec (i : Instr) (s : State) : Host.Outcome State Fault Refusal :=
  match i with
  | .registerWrite bar off size w => Sys2Proof.Machine.execRegisterWrite bar off size w s
  | .unitEnWrite u val => Sys2Proof.Machine.execUnitEnWrite u val s
  | .unitStateEdge u ev hw => Sys2Proof.Machine.execUnitStateEdge u ev hw s
  | .startDone u => Sys2Proof.Machine.execStartDone u s
  | .startFail u code => Sys2Proof.Machine.execStartFail u code s
  | .stopDone u => Sys2Proof.Machine.execStopDone u s
  | .hwStop u code => Sys2Proof.Machine.execHwStop u code s
  | .stopLate u => Sys2Proof.Machine.execStopLate u s
  | .winIdxWrite w idx => Sys2Proof.Machine.execWinIdxWrite w idx s
  | .windowCapture w => Sys2Proof.Machine.execWindowCapture w s
  | .engineSchedule sl => Sys2Proof.Machine.execEngineSchedule sl s
  | .admitCommand sl => Sys2Proof.Machine.execAdmitCommand sl s
  | .tagFree t => Sys2Proof.Machine.execTagFree t s
  | .syncReq id hold => Sys2Proof.Machine.execSyncReq id hold s
  | .syncResp id refBeat refCycle hold => Sys2Proof.Machine.execSyncResp id refBeat refCycle hold s
  | .quadModeWrite val => Sys2Proof.Machine.execQuadModeWrite val s
  | .portLinkTimeout p => Sys2Proof.Machine.execPortLinkTimeout p s
  | .portLinkLost p => Sys2Proof.Machine.execPortLinkLost p s
  | .frameReceive p f => Sys2Proof.Machine.execFrameReceive p f s
  | .rocePacketReceive p pkt fill => Sys2Proof.Machine.execRocePacketReceive p pkt fill s
  | .cnpReceive dest => Sys2Proof.Machine.execCnpReceive dest s
  | .rateLimitRecover q => Sys2Proof.Machine.execRateLimitRecover q s
  | .pfcRefresh p pr => Sys2Proof.Machine.execPfcRefresh p pr s
  | .pfcFrameReceive p prio pause => Sys2Proof.Machine.execPfcFrameReceive p prio pause s
  | .pfcWatchdog p pr => Sys2Proof.Machine.execPfcWatchdog p pr s
  | .cmDatagram p m => Sys2Proof.Machine.execCmDatagram p m s
  | .hostDisconnect q => Sys2Proof.Machine.execHostDisconnect q s
  | .qpCtlWrite val => Sys2Proof.Machine.execQpCtlWrite val s
  | .workItemPost q w => Sys2Proof.Machine.execWorkItemPost q w s
  | .workItemFlushed q => Sys2Proof.Machine.execWorkItemFlushed q s
  | .waitConditionMet q => Sys2Proof.Machine.execWaitConditionMet q s
  | .waitBroken q => Sys2Proof.Machine.execWaitBroken q s
  | .ackReceive dest path psn credit msgAck => Sys2Proof.Machine.execAckReceive dest path psn credit msgAck s
  | .ackTimeout q path => Sys2Proof.Machine.execAckTimeout q path s
  | .nakReceive dest path psn k => Sys2Proof.Machine.execNakReceive dest path psn k s
  | .rnrNakReceive dest path nak => Sys2Proof.Machine.execRnrNakReceive dest path nak s
  | .rnrTimerExpire qp => Sys2Proof.Machine.execRnrTimerExpire qp s
  | .mpPacketReceive p pkt => Sys2Proof.Machine.execMpPacketReceive p pkt s
  | .messageComplete q => Sys2Proof.Machine.execMessageComplete q s
  | .mrRegister r base len pd write => Sys2Proof.Machine.execMrRegister r base len pd write s
  | .mrRevoke r => Sys2Proof.Machine.execMrRevoke r s
  | .revocationDone r => Sys2Proof.Machine.execRevocationDone r s
  | .flush t => Sys2Proof.Machine.execFlush t s
  | .write t => Sys2Proof.Machine.execWrite t s
  | .read t => Sys2Proof.Machine.execRead t s
  | .compare t => Sys2Proof.Machine.execCompare t s
  | .writeZeroes t => Sys2Proof.Machine.execWriteZeroes t s
  | .datasetManagement t => Sys2Proof.Machine.execDatasetManagement t s
  | .verify t => Sys2Proof.Machine.execVerify t s
  | .copy t => Sys2Proof.Machine.execCopy t s
  | .reservationRegister t a cur new ptpl => Sys2Proof.Machine.execReservationRegister t a cur new ptpl s
  | .reservationReport t => Sys2Proof.Machine.execReservationReport t s
  | .reservationAcquire t a rtype cur pre => Sys2Proof.Machine.execReservationAcquire t a rtype cur pre s
  | .reservationRelease t a cur => Sys2Proof.Machine.execReservationRelease t a cur s
  | .reservationEffect vol => Sys2Proof.Machine.execReservationEffect vol s
  | .connect q cid qid sqsize subsys host cntlid noFlow kato => Sys2Proof.Machine.execConnect q cid qid sqsize subsys host cntlid noFlow kato s
  | .propertyGet q cid p => Sys2Proof.Machine.execPropertyGet q cid p s
  | .propertySet q cid p v => Sys2Proof.Machine.execPropertySet q cid p v s
  | .authenticationSend q cid msg => Sys2Proof.Machine.execAuthenticationSend q cid msg s
  | .authenticationReceive q cid buf => Sys2Proof.Machine.execAuthenticationReceive q cid buf s
  | .disconnect q cid => Sys2Proof.Machine.execDisconnect q cid s
  | .nvmeIdentify q cid cns nsid buf => Sys2Proof.Machine.execNvmeIdentify q cid cns nsid buf s
  | .getLogPage q cid page buf => Sys2Proof.Machine.execGetLogPage q cid page buf s
  | .setFeatures q cid f v => Sys2Proof.Machine.execSetFeatures q cid f v s
  | .getFeatures q cid f => Sys2Proof.Machine.execGetFeatures q cid f s
  | .asynchronousEventRequest q cid => Sys2Proof.Machine.execAsynchronousEventRequest q cid s
  | .keepAlive q cid => Sys2Proof.Machine.execKeepAlive q cid s
  | .abort q cid victimQp victimCid => Sys2Proof.Machine.execAbort q cid victimQp victimCid s
  | .keepAliveExpire cntlid => Sys2Proof.Machine.execKeepAliveExpire cntlid s
  | .fwdCmd m rtag slice c => Sys2Proof.Machine.execFwdCmd m rtag slice c s
  | .fwdData t off bs => Sys2Proof.Machine.execFwdData t off bs s
  | .fwdCpl t sct sc => Sys2Proof.Machine.execFwdCpl t sct sc s
  | .forwardFail t => Sys2Proof.Machine.execForwardFail t s
  | .anaChange grp stt => Sys2Proof.Machine.execAnaChange grp stt s
  | .anaChangeDrained grp => Sys2Proof.Machine.execAnaChangeDrained grp s
  | .regionGroupPlace sl => Sys2Proof.Machine.execRegionGroupPlace sl s
  | .placedWrite m put => Sys2Proof.Machine.execPlacedWrite m put s
  | .rmwMerge sl g => Sys2Proof.Machine.execRmwMerge sl g s
  | .vaultWriteComplete g ok => Sys2Proof.Machine.execVaultWriteComplete g ok s
  | .catchupWrite sl idx ok => Sys2Proof.Machine.execCatchupWrite sl idx ok s
  | .destageStart sl idx => Sys2Proof.Machine.execDestageStart sl idx s
  | .destagePlaced sl idx => Sys2Proof.Machine.execDestagePlaced sl idx s
  | .releasePut sl idx => Sys2Proof.Machine.execReleasePut sl idx s
  | .grainRelease seg => Sys2Proof.Machine.execGrainRelease seg s
  | .fingerprintDone sl u => Sys2Proof.Machine.execFingerprintDone sl u s
  | .fpuFault sl u => Sys2Proof.Machine.execFpuFault sl u s
  | .tephraCheck sl idx => Sys2Proof.Machine.execTephraCheck sl idx s
  | .manifestLoadDone seg parts => Sys2Proof.Machine.execManifestLoadDone seg parts s
  | .loadWaitTimeout sl idx => Sys2Proof.Machine.execLoadWaitTimeout sl idx s
  | .verifyCompareDone sl idx flash => Sys2Proof.Machine.execVerifyCompareDone sl idx flash s
  | .tephraBatch seq part last entries => Sys2Proof.Machine.execTephraBatch seq part last entries s
  | .compressDone sl c frame => Sys2Proof.Machine.execCompressDone sl c frame s
  | .decompressDone sl u => Sys2Proof.Machine.execDecompressDone sl u s
  | .decompressorFault sl u => Sys2Proof.Machine.execDecompressorFault sl u s
  | .load slot hwmValid => Sys2Proof.Machine.execLoad slot hwmValid s
  | .loadCounter slot => Sys2Proof.Machine.execLoadCounter slot s
  | .zeroise slot => Sys2Proof.Machine.execZeroise slot s
  | .nonceDraw sl e => Sys2Proof.Machine.execNonceDraw sl e s
  | .hwmRecordCommit slot gen value => Sys2Proof.Machine.execHwmRecordCommit slot gen value s
  | .gcmJobDone sl e => Sys2Proof.Machine.execGcmJobDone sl e s
  | .gcmParityFault sl e => Sys2Proof.Machine.execGcmParityFault sl e s
  | .segmentOpen sl meta_ => Sys2Proof.Machine.execSegmentOpen sl meta_ s
  | .segmentClose seg => Sys2Proof.Machine.execSegmentClose seg s
  | .parityDone seg => Sys2Proof.Machine.execParityDone seg s
  | .segmentWritten seg => Sys2Proof.Machine.execSegmentWritten seg s
  | .segmentAbandon seg => Sys2Proof.Machine.execSegmentAbandon seg s
  | .verifyReq desc strips => Sys2Proof.Machine.execVerifyReq desc strips s
  | .verifyReport seg result strip drive => Sys2Proof.Machine.execVerifyReport seg result strip drive s
  | .verifyTimeout seg => Sys2Proof.Machine.execVerifyTimeout seg s
  | .ownVerifyDone seg strips => Sys2Proof.Machine.execOwnVerifyDone seg strips s
  | .reconstructionRound sl rd => Sys2Proof.Machine.execReconstructionRound sl rd s
  | .scrub found => Sys2Proof.Machine.execScrub found s
  | .erasureUnitFault sl => Sys2Proof.Machine.execErasureUnitFault sl s
  | .treeDeleteDone tree => Sys2Proof.Machine.execTreeDeleteDone tree s
  | .idPoolRefill sl => Sys2Proof.Machine.execIdPoolRefill sl s
  | .journalReplay peer load => Sys2Proof.Machine.execJournalReplay peer load s
  | .pageFaultDone page r => Sys2Proof.Machine.execPageFaultDone page r s
  | .relocCmdWrite val => Sys2Proof.Machine.execRelocCmdWrite val s
  | .relocationDone sl seg => Sys2Proof.Machine.execRelocationDone sl seg s
  | .segmentReclaim seg => Sys2Proof.Machine.execSegmentReclaim seg s
  | .refcount rseq entries => Sys2Proof.Machine.execRefcount rseq entries s
  | .refcountAck rseq => Sys2Proof.Machine.execRefcountAck rseq s
  | .cacheAccess line wr err pfErr => Sys2Proof.Machine.execCacheAccess line wr err pfErr s
  | .writebackFailed key => Sys2Proof.Machine.execWritebackFailed key s
  | .prefetchLock n => Sys2Proof.Machine.execPrefetchLock n s
  | .lockSet n => Sys2Proof.Machine.execLockSet n s
  | .lockClear n => Sys2Proof.Machine.execLockClear n s
  | .readBufferGrant sl => Sys2Proof.Machine.execReadBufferGrant sl s
  | .hedgeTimeout rd => Sys2Proof.Machine.execHedgeTimeout rd s
  | .readReferenceDrop rd => Sys2Proof.Machine.execReadReferenceDrop rd s
  | .drvPortModeWrite p mode => Sys2Proof.Machine.execDrvPortModeWrite p mode s
  | .perst p => Sys2Proof.Machine.execPerst p s
  | .perstRelease p => Sys2Proof.Machine.execPerstRelease p s
  | .presenceChange a present => Sys2Proof.Machine.execPresenceChange a present s
  | .surpriseDown a => Sys2Proof.Machine.execSurpriseDown a s
  | .driveCommandIssue a => Sys2Proof.Machine.execDriveCommandIssue a s
  | .driveCompletion a slot sct sc data => Sys2Proof.Machine.execDriveCompletion a slot sct sc data s
  | .driveCommandTimeout a slot => Sys2Proof.Machine.execDriveCommandTimeout a slot s
  | .preempt prkey => Sys2Proof.Machine.execPreempt prkey s
  | .witnessCompareAndWrite old new => Sys2Proof.Machine.execWitnessCompareAndWrite old new s
  | .retireTimerExpire a => Sys2Proof.Machine.execRetireTimerExpire a s
  | .retireWrite a retire => Sys2Proof.Machine.execRetireWrite a retire s
  | .rebuildStrip cols => Sys2Proof.Machine.execRebuildStrip cols s
  | .rebuildComplete a => Sys2Proof.Machine.execRebuildComplete a s
  | .open_ q msg => Sys2Proof.Machine.execOpen q msg s
  | .openAck q msg => Sys2Proof.Machine.execOpenAck q msg s
  | .extents q msg loads => Sys2Proof.Machine.execExtents q msg loads s
  | .need q msg found => Sys2Proof.Machine.execNeed q msg found s
  | .grains q msg => Sys2Proof.Machine.execGrains q msg s
  | .windowAck q msg => Sys2Proof.Machine.execWindowAck q msg s
  | .commit q msg => Sys2Proof.Machine.execCommit q msg s
  | .commitAck q msg => Sys2Proof.Machine.execCommitAck q msg s
  | .repAbort q msg => Sys2Proof.Machine.execRepAbort q msg s
  | .repDiffBatch n => Sys2Proof.Machine.execRepDiffBatch n s
  | .repTimeout n => Sys2Proof.Machine.execRepTimeout n s
  | .repRetry n => Sys2Proof.Machine.execRepRetry n s
  | .laneStart l fail inverted => Sys2Proof.Machine.execLaneStart l fail inverted s
  | .flitReceive f => Sys2Proof.Machine.execFlitReceive f s
  | .initRecord r => Sys2Proof.Machine.execInitRecord r s
  | .nak r => Sys2Proof.Machine.execNak r s
  | .width r => Sys2Proof.Machine.execWidth r s
  | .widthAck r => Sys2Proof.Machine.execWidthAck r s
  | .qpPair q start => Sys2Proof.Machine.execQpPair q start s
  | .qpPairTimeout q => Sys2Proof.Machine.execQpPairTimeout q s
  | .heartbeat seq beat fovState own => Sys2Proof.Machine.execHeartbeat seq beat fovState own s
  | .pulseInEdge level => Sys2Proof.Machine.execPulseInEdge level s
  | .singlePathLost path => Sys2Proof.Machine.execSinglePathLost path s
  | .witnessRefresh copies => Sys2Proof.Machine.execWitnessRefresh copies s
  | .witnessReadResult copies => Sys2Proof.Machine.execWitnessReadResult copies s
  | .claimWaitExpire copies => Sys2Proof.Machine.execClaimWaitExpire copies s
  | .takeoverStepDone vault load => Sys2Proof.Machine.execTakeoverStepDone vault load s
  | .joinReq gen resvGen => Sys2Proof.Machine.execJoinReq gen resvGen s
  | .joinAck gen arg => Sys2Proof.Machine.execJoinAck gen arg s
  | .resyncCommit gen batch => Sys2Proof.Machine.execResyncCommit gen batch s
  | .resyncAck gen batch => Sys2Proof.Machine.execResyncAck gen batch s
  | .resyncDone gen batch => Sys2Proof.Machine.execResyncDone gen batch s
  | .handoverReq gen mask => Sys2Proof.Machine.execHandoverReq gen mask s
  | .handover gen mask arg load => Sys2Proof.Machine.execHandover gen mask arg load s
  | .handoverAck gen mask => Sys2Proof.Machine.execHandoverAck gen mask s
  | .handoverAbort gen mask arg => Sys2Proof.Machine.execHandoverAbort gen mask arg s
  | .leave gen => Sys2Proof.Machine.execLeave gen s
  | .handoverStepDone copies => Sys2Proof.Machine.execHandoverStepDone copies s
  | .memoryStart fail ddrGib temps repairs => Sys2Proof.Machine.execMemoryStart fail ddrGib temps repairs s
  | .loadClassUpdate hbm ddr temps => Sys2Proof.Machine.execLoadClassUpdate hbm ddr temps s
  | .calibrationBeat ch => Sys2Proof.Machine.execCalibrationBeat ch s
  | .retrainDone ch ok => Sys2Proof.Machine.execRetrainDone ch ok s
  | .memoryReadError addr found hit bytes => Sys2Proof.Machine.execMemoryReadError addr found hit bytes s
  | .patrolScrub errs => Sys2Proof.Machine.execPatrolScrub errs s
  | .geyserRestore labels image logs => Sys2Proof.Machine.execGeyserRestore labels image logs s
  | .doorbell c seq => Sys2Proof.Machine.execDoorbell c seq s
  | .requestTake c => Sys2Proof.Machine.execRequestTake c s
  | .stewardRestartDone card convert => Sys2Proof.Machine.execStewardRestartDone card convert s
  | .managementReset kind => Sys2Proof.Machine.execManagementReset kind s
  | .requestBufferWrite off bytes => Sys2Proof.Machine.execRequestBufferWrite off bytes s
  | .vectorUnmask v => Sys2Proof.Machine.execVectorUnmask v s
  | .invalidCommandOpcode q cid => Sys2Proof.Machine.execInvalidCommandOpcode q cid s
  | .keyOpNotUsed op slot hwmValid => Sys2Proof.Machine.execKeyOpNotUsed op slot hwmValid s
  | .smbusOtherCommand code => Sys2Proof.Machine.execSmbusOtherCommand code s
  | .eventRaise src p0 p1 p2 beat => Sys2Proof.Machine.execEventRaise src p0 p1 p2 beat s
  | .ringFreeze slot => Sys2Proof.Machine.execRingFreeze slot s
  | .norFailure kind off => Sys2Proof.Machine.execNorFailure kind off s
  | .smbusLastGaspEntry n => Sys2Proof.Machine.execSmbusLastGaspEntry n s
  | .counterOverflow b n => Sys2Proof.Machine.execCounterOverflow b n s
  | .counterWrite b n val ovr => Sys2Proof.Machine.execCounterWrite b n val ovr s
  | .sampleDeliver b => Sys2Proof.Machine.execSampleDeliver b s
  | .bootRomStart value dir => Sys2Proof.Machine.execBootRomStart value dir s
  | .bootImageVerify card => Sys2Proof.Machine.execBootImageVerify card s
  | .phaseChangeDone levels => Sys2Proof.Machine.execPhaseChangeDone levels s
  | .serviceButtonPress pressed => Sys2Proof.Machine.execServiceButtonPress pressed s
  | .cardProbe present pkg => Sys2Proof.Machine.execCardProbe present pkg s
  | .updateStaged digest => Sys2Proof.Machine.execUpdateStaged digest s
  | .updateArm epoch digest => Sys2Proof.Machine.execUpdateArm epoch digest s
  | .updateArmAck digest => Sys2Proof.Machine.execUpdateArmAck digest s
  | .updateArmNak digest => Sys2Proof.Machine.execUpdateArmNak digest s
  | .updatePhaseDone phase digest => Sys2Proof.Machine.execUpdatePhaseDone phase digest s
  | .updateRevert cause digest => Sys2Proof.Machine.execUpdateRevert cause digest s
  | .updateCommit digest => Sys2Proof.Machine.execUpdateCommit digest s
  | .handoffRestart fail => Sys2Proof.Machine.execHandoffRestart fail s
  | .activationRevert cause part => Sys2Proof.Machine.execActivationRevert cause part s
  | .jtagInstructionLoad op => Sys2Proof.Machine.execJtagInstructionLoad op s
  | .alarm cs => Sys2Proof.Machine.execAlarm cs s
  | .alarmCauseClear c => Sys2Proof.Machine.execAlarmCauseClear c s
  | .shiftDr tdi probe => Sys2Proof.Machine.execShiftDr tdi probe s
  | .temperatureWarning temps hbmTemps => Sys2Proof.Machine.execTemperatureWarning temps hbmTemps s
  | .holdupOkChange level => Sys2Proof.Machine.execHoldupOkChange level s
  | .claimInEdge level => Sys2Proof.Machine.execClaimInEdge level s
  | .inconclusiveRepeat copies => Sys2Proof.Machine.execInconclusiveRepeat copies s
  | .epochEdge => Sys2Proof.Machine.execEpochEdge s
  | .syncReqSend => Sys2Proof.Machine.execSyncReqSend s
  | .syncLockLost => Sys2Proof.Machine.execSyncLockLost s
  | .vaultThroughEnter => Sys2Proof.Machine.execVaultThroughEnter s
  | .vaultThroughExit => Sys2Proof.Machine.execVaultThroughExit s
  | .tephraBatchSend => Sys2Proof.Machine.execTephraBatchSend s
  | .tephraBatchDeadline => Sys2Proof.Machine.execTephraBatchDeadline s
  | .zeroiseAll => Sys2Proof.Machine.execZeroiseAll s
  | .insertApply => Sys2Proof.Machine.execInsertApply s
  | .pageFreeCascade => Sys2Proof.Machine.execPageFreeCascade s
  | .snapshotShare => Sys2Proof.Machine.execSnapshotShare s
  | .journalRunSpill => Sys2Proof.Machine.execJournalRunSpill s
  | .fullCheckpointStart => Sys2Proof.Machine.execFullCheckpointStart s
  | .fullCheckpointDone => Sys2Proof.Machine.execFullCheckpointDone s
  | .mdcFlush => Sys2Proof.Machine.execMdcFlush s
  | .mdcFlushInv => Sys2Proof.Machine.execMdcFlushInv s
  | .mdcInvalidate => Sys2Proof.Machine.execMdcInvalidate s
  | .zeroLine => Sys2Proof.Machine.execZeroLine s
  | .mdcCommandDone => Sys2Proof.Machine.execMdcCommandDone s
  | .preemptTimeout => Sys2Proof.Machine.execPreemptTimeout s
  | .nakResendTimeout => Sys2Proof.Machine.execNakResendTimeout s
  | .flitAckTimeout => Sys2Proof.Machine.execFlitAckTimeout s
  | .negotiateTimeout => Sys2Proof.Machine.execNegotiateTimeout s
  | .resizeTimeout => Sys2Proof.Machine.execResizeTimeout s
  | .lossTimeout => Sys2Proof.Machine.execLossTimeout s
  | .linkWiden => Sys2Proof.Machine.execLinkWiden s
  | .linkUp => Sys2Proof.Machine.execLinkUp s
  | .credioxPacket => Sys2Proof.Machine.execCredioxPacket s
  | .heartbeatSend => Sys2Proof.Machine.execHeartbeatSend s
  | .pulseOutToggle => Sys2Proof.Machine.execPulseOutToggle s
  | .peerSuspect => Sys2Proof.Machine.execPeerSuspect s
  | .witnessAttemptResult => Sys2Proof.Machine.execWitnessAttemptResult s
  | .fenceInAssert => Sys2Proof.Machine.execFenceInAssert s
  | .fenceReleaseExpire => Sys2Proof.Machine.execFenceReleaseExpire s
  | .peerWaitExpire => Sys2Proof.Machine.execPeerWaitExpire s
  | .handoverLimitExpire => Sys2Proof.Machine.execHandoverLimitExpire s
  | .failbackEpochCount => Sys2Proof.Machine.execFailbackEpochCount s
  | .handoverCtl => Sys2Proof.Machine.execHandoverCtl s
  | .failback => Sys2Proof.Machine.execFailback s
  | .unfence => Sys2Proof.Machine.execUnfence s
  | .acceptLoss => Sys2Proof.Machine.execAcceptLoss s
  | .fovLeave => Sys2Proof.Machine.execFovLeave s
  | .vaultLogRewrite => Sys2Proof.Machine.execVaultLogRewrite s
  | .pwrfail => Sys2Proof.Machine.execPwrfail s
  | .geyserFlushDone => Sys2Proof.Machine.execGeyserFlushDone s
  | .identify => Sys2Proof.Machine.execIdentify s
  | .status => Sys2Proof.Machine.execStatus s
  | .portAddrs => Sys2Proof.Machine.execPortAddrs s
  | .ticketStatus => Sys2Proof.Machine.execTicketStatus s
  | .settingGet => Sys2Proof.Machine.execSettingGet s
  | .settingSet => Sys2Proof.Machine.execSettingSet s
  | .portSet => Sys2Proof.Machine.execPortSet s
  | .lockEntry => Sys2Proof.Machine.execLockEntry s
  | .tephraRebuild => Sys2Proof.Machine.execTephraRebuild s
  | .subsysCreate => Sys2Proof.Machine.execSubsysCreate s
  | .subsysDelete => Sys2Proof.Machine.execSubsysDelete s
  | .hostSet => Sys2Proof.Machine.execHostSet s
  | .volCreate => Sys2Proof.Machine.execVolCreate s
  | .volResize => Sys2Proof.Machine.execVolResize s
  | .volSet => Sys2Proof.Machine.execVolSet s
  | .volDelete => Sys2Proof.Machine.execVolDelete s
  | .volQuery => Sys2Proof.Machine.execVolQuery s
  | .groupHome => Sys2Proof.Machine.execGroupHome s
  | .snapCreate => Sys2Proof.Machine.execSnapCreate s
  | .snapRunTimeout => Sys2Proof.Machine.execSnapRunTimeout s
  | .snapDelete => Sys2Proof.Machine.execSnapDelete s
  | .cloneCreate => Sys2Proof.Machine.execCloneCreate s
  | .snapList => Sys2Proof.Machine.execSnapList s
  | .repCreate => Sys2Proof.Machine.execRepCreate s
  | .repStart => Sys2Proof.Machine.execRepStart s
  | .repSuspend => Sys2Proof.Machine.execRepSuspend s
  | .repResume => Sys2Proof.Machine.execRepResume s
  | .repDelete => Sys2Proof.Machine.execRepDelete s
  | .keyLoad => Sys2Proof.Machine.execKeyLoad s
  | .keyZeroise => Sys2Proof.Machine.execKeyZeroise s
  | .keyQuery => Sys2Proof.Machine.execKeyQuery s
  | .kekSet => Sys2Proof.Machine.execKekSet s
  | .witnessRead => Sys2Proof.Machine.execWitnessRead s
  | .witnessSet => Sys2Proof.Machine.execWitnessSet s
  | .mbxHandover => Sys2Proof.Machine.execMbxHandover s
  | .fovAction => Sys2Proof.Machine.execFovAction s
  | .evtRoute => Sys2Proof.Machine.execEvtRoute s
  | .fumRead => Sys2Proof.Machine.execFumRead s
  | .fumFlush => Sys2Proof.Machine.execFumFlush s
  | .pmcEvents => Sys2Proof.Machine.execPmcEvents s
  | .pmcSnapshot => Sys2Proof.Machine.execPmcSnapshot s
  | .pmcUser => Sys2Proof.Machine.execPmcUser s
  | .stageBegin => Sys2Proof.Machine.execStageBegin s
  | .stageData => Sys2Proof.Machine.execStageData s
  | .stageEnd => Sys2Proof.Machine.execStageEnd s
  | .activateArm => Sys2Proof.Machine.execActivateArm s
  | .activateCancel => Sys2Proof.Machine.execActivateCancel s
  | .updateStatus => Sys2Proof.Machine.execUpdateStatus s
  | .echo => Sys2Proof.Machine.execEcho s
  | .stewardRestart => Sys2Proof.Machine.execStewardRestart s
  | .laneMargin => Sys2Proof.Machine.execLaneMargin s
  | .debugChallenge => Sys2Proof.Machine.execDebugChallenge s
  | .debugOpen => Sys2Proof.Machine.execDebugOpen s
  | .ticketDone => Sys2Proof.Machine.execTicketDone s
  | .watchdogExpire => Sys2Proof.Machine.execWatchdogExpire s
  | .firmwareFault => Sys2Proof.Machine.execFirmwareFault s
  | .fumaroleRecordWrite => Sys2Proof.Machine.execFumaroleRecordWrite s
  | .fumaroleFlush => Sys2Proof.Machine.execFumaroleFlush s
  | .fumCtlFlush => Sys2Proof.Machine.execFumCtlFlush s
  | .seqLoad => Sys2Proof.Machine.execSeqLoad s
  | .resume => Sys2Proof.Machine.execResume s
  | .norRetry => Sys2Proof.Machine.execNorRetry s
  | .smbusLastGaspStatus => Sys2Proof.Machine.execSmbusLastGaspStatus s
  | .smbusTemperature => Sys2Proof.Machine.execSmbusTemperature s
  | .smbusPhase => Sys2Proof.Machine.execSmbusPhase s
  | .counterSnapshot => Sys2Proof.Machine.execCounterSnapshot s
  | .powerOnReset => Sys2Proof.Machine.execPowerOnReset s
  | .startUpStepDone => Sys2Proof.Machine.execStartUpStepDone s
  | .service => Sys2Proof.Machine.execService s
  | .ledShift => Sys2Proof.Machine.execLedShift s
  | .discard => Sys2Proof.Machine.execDiscard s
  | .updateCancel => Sys2Proof.Machine.execUpdateCancel s
  | .activationStart => Sys2Proof.Machine.execActivationStart s
  | .activationPhaseStart => Sys2Proof.Machine.execActivationPhaseStart s
  | .activationCommit => Sys2Proof.Machine.execActivationCommit s
  | .challengeExpire => Sys2Proof.Machine.execChallengeExpire s
  | .debugOpenStepDone => Sys2Proof.Machine.execDebugOpenStepDone s
  | .alarmClr => Sys2Proof.Machine.execAlarmClr s
  | .testLogicReset => Sys2Proof.Machine.execTestLogicReset s

end Sys2Proof.Machine
end

