-- ==== Sys2Proof/Machine/Edge.lean ====
section
/-! DEFINITION. The beat edge: time moves on, what waited for the edge takes effect, and what the FH6400 does in every beat without a command of its
own happens (R29 to R31, R38, R39, R47). -/
namespace Sys2Proof.Machine

/-! ### Time -/

/-- R31: a beat whose number is `k` modulo `period` begins between the beats `a` and `b`. -/
def crosses (a b period k : Nat) : Bool := decide ((a + period - k) / period ≠ (b + period - k) / period)

/-- R29, R31, R44, R45: the next beat begins. Beats stepped over count with it, and an epoch edge among them counts once (R47). The event of a
step belongs to the beat that begins here (R40, R51). -/
def Dev.nextBeat (d : Dev) : Dev :=
  let (len, d1) := d.slewBeat
  let step := d1.stepPend
  let b := d1.beat + 1 + step
  let d2 := { d1 with
    beat := b, edges := d1.edges + 1, stepPend := 0, newEpoch := decide (d1.beat / Config.epochBeats ≠ b / Config.epochBeats)
    jumps := if step = 0 then d1.jumps else d1.jumps ++ [(b, step)]
    pmc := { d1.pmc with cycles := d1.pmc.cycles + len } }.occupancyBeat len
  d2.cond (decide (0 < step)) (fun d => d.raise 1 step 0 0)

/-! ### What waited for the edge -/

/-- R215, R549: the reduction settings of VOL_SET. -/
def VolRed.recode (v : VolRed) (code : Nat) : VolRed :=
  { v with dedup := bitOf code 0, verify := bitOf code 1, comp := bitOf code 2, level := code / 16 % 8 }

/-- One act that waited for this edge. -/
def Dev.edgeAct (d : Dev) (a : EdgeAct) : Dev :=
  match a with
  | .revoke r => if (d.region r).state = .valid then d.updRegion r (fun x => { x with state := .revoking }) else d
  | .ana grp st => d.setAna grp st
  | .keyRun op slot hv => d.keyRun op slot hv
  | .keyDone st => d.keyDone st
  | .keyWarn slot gen => d.keyWarn slot gen
  | .keyExhaust slot gen => d.keyExhaust slot gen
  | .keyPost slot gen value => d.keyPostAt slot gen value
  | .release _ => d
  | .linkDown => d.fovLinkDown
  | .linkUp =>
    -- R641: a cause that arose while the link was down is told now
    let d1 := d.fovLinkUp
    if d1.upd.tell = 0 then d1 else (d1.updMsg 7 d1.upd.tell d1.ownDigest).setUpd (fun u => { u with tell := 0 })
  | .stewardRestart cause => d.stewardRestart cause
  | .ringFreeze slot => d.freezeNow slot
  | .switching => d.setFld Reg.FIS_STS_SWITCHING 1
  | .memFail addr hit bytes => d.memFail addr hit bytes
  | .geyser => d.geyserBegin
  | .assign => d.assign
  | .fence cause => d.fenceNow cause
  | .heard => d.heard
  | .doorbell c seq => d.doorbellEdge c seq
  | .write off val => d.regNow off val
  | .red vol code => d.updVolRed vol (fun v => v.recode code)

/-- The segments whose Caldera entries this edge releases (R182). -/
def releases (l : List EdgeAct) : List Nat := l.filterMap (fun a => match a with
  | .release seg => some seg
  | _ => none)

/-- Everything that waited takes effect, in the order in which it came. -/
def Dev.edgeActs (d : Dev) : Dev := { d with edge := [] }.each d.edge (fun a d => d.edgeAct a)

/-! ### The reasons of vault-through mode (R171) -/

/-- R171: a timer runs while a condition holds, and its reason ends when it has run 2^13 beats. -/
def Dev.reasonTimer (d : Dev) (k : Nat) (f : Fld) (holds : Bool) : Dev :=
  if !holds then (d.setFld f 1).disarm k
  else if d.fld f = 0 then d
  else if d.expired k (2 ^ 13) then (d.setFld f 0).disarm k
  else if d.armed k then d
  else d.arm k

/-- R185: the reasons at reset: PEER_ABSENT, MIRROR_BROKEN, HOLDUP_LOW and ONE_VAULT. -/
def resetReasons : Nat := 23

/-- R171, R188, R252: HOLDUP_LOW and ONE_VAULT follow their causes; a change of the reason bits alone raises the mode event at most once per epoch. -/
def Dev.vaultReasonStep (d : Dev) : Dev :=
  let d1 := d.reasonTimer tmHoldup Reg.GLB_CAL_STS_HOLDUP_LOW (d.cal.holdupOk && decide ((d.kslot 4095).state = .ready))
  let d2 := d1.reasonTimer tmVaults Reg.GLB_CAL_STS_ONE_VAULT (decide (2 ≤ d1.vaultsOn.length))
  let r := d2.vaultReasons
  if (if tget 0 d2.seen 0x60000 = 0 then resetReasons else tget 0 d2.seen 0x60000 - 1) = r then d2
  else
    let d3 := { d2 with seen := tput 0 d2.seen 0x60000 (r + 1) }
    d3.cond (d3.vaultThrough && decide (r ≠ 0)) (fun d => d.raiseOnce 4 4 (d.fld Reg.GLB_CAL_STS_MODE) r 0)

/-! ### Every beat -/

/-- The open metadata segment takes the pages that wait (R328), and the Tephra table its inserts (R196). -/
def Dev.metaBeat (d : Dev) : Dev := d.tphBeat.cond (decide (d.lay.openMeta ≠ 0)) Dev.packMeta

/-- R20: the metadata cache works on its command, and drains while it stops (R356). -/
def Dev.cacheBeat (d : Dev) : Dev :=
  let d1 := d.mdcTick
  d1.cond (decide (d1.ustate .mdc = .stopping ∨ d1.ustate .mdc = .pendOn)) (fun d => d.mdcDrain 64)

/-- The link carries what is queued for it (R440 to R447), once it has left DOWN (R449). -/
def Dev.linkBeat (d : Dev) : Dev := (d.cdxEpoch.linkTry).cdxTransmit

/-- R425 to R430: every session goes on. -/
def Dev.repBeat (d : Dev) : Dev :=
  (d.each ((d.rep.sess.filter (fun e => e.2.active)).map (·.1)) (fun i d => (d.repStep i).repPump i)).diffBeat.repTickets

/-- R557: the firmware kicks the watchdog each 2^20 beats, unless it hangs, which a free value decides. -/
def Dev.kick (d : Dev) : Dev :=
  if d.steward = stRunning ∧ d.beat % 2 ^ 20 = 0 then
    let (k, d1) := d.draw
    if Config.freeNat k % 2 = 0 then d1.setFld Reg.MBX_KICK_BEAT d1.beat else d1
  else d

/-- R572: the recorder's flush in the middle of each epoch, and the beats in which a slice held commands (R587). -/
def Dev.countBeat (d : Dev) (was : Nat) : Dev :=
  let d1 := d.each ((List.range 8).filter (fun s => d.flag (Reg.SLI_ADM_STS_HELD s))) (fun s d => d.count (1 + s) 0x002 1)
  d1.accessBeat.cond (crosses was d1.beat Config.epochBeats (2 ^ 22)) Dev.fumTrigger

/-- R38, R185: ABOVE_HWM as own-dirty stands at this edge. -/
def Dev.refreshHwm (d : Dev) : Dev := d.setFlag Reg.GLB_CAL_STS_ABOVE_HWM d.aboveHwm

/-- What the FH6400 does in every beat, once an image runs. `was` is the number of the beat before. -/
def Dev.beatWork (d : Dev) (was : Nat) : Dev :=
  let d1 := ((d.placeStep.pfcDrain).paceBeat.cacheBeat.metaBeat.relocBeat).vaultReasonStep
  let d2 := ((d1.refreshCatchup.refreshCommit).freeLost.pruneEdits).markCpHeld
  let d3 := (d2.mirrorLoose.mirrorLost.vaultStep.geyserStep.imageStep).refreshBudget.refreshHwm
  let d4 := (d3.adoptRest.brokenMark.resyncAgain.resyncStep.startStep).attemptNext
  let d5 := d4.setFov (fun f => { f with epochOk := f.epochOk && d4.healthy })
  let d6 := (d5.linkBeat.repBeat).stewardLearn
  let d7 := (d6.updStep.kick).countBeat was
  (d7.longPress).refreshPins

/-- R296: own passes whose result was UNREACHABLE are run again. -/
def Dev.ownAgain (d : Dev) : Dev :=
  { d with
    lay := { d.lay with
      segs := d.lay.segs.map (fun e => if e.2.retryOwn then (e.1, { e.2 with retryOwn := false, ownPass := true }) else e) } }

/-- R173: grains whose vault writes failed are tried again. -/
def Dev.vaultAgain (d : Dev) : Dev :=
  { d with cal := { d.cal with dirs := d.cal.dirs.map (fun e => if e.2.vaultRetry then (e.1, { e.2 with vaultRetry := false }) else e) } }

/-- What an epoch edge does beside the commands that fall due at it (R173, R198, R252, R296, R486, R546, R639, R642). -/
def Dev.epochWork (d : Dev) : Dev :=
  if d.newEpoch = false then d
  else
    let d1 := (d.soakEdge (d.fov.epochOk && d.healthy)).revertEdge
    let d2 := match d1.revertCause with
      | some c => d1.revertBegin c 0
      | none => d1
    let d3 := ((d2.applySets.rebuildEdge).stewardMarks).joinAgain
    d3.ownAgain.vaultAgain

/-- R605, R617: before the boot ROM has run nothing works; afterwards this also tells a steward that restarts from one that has not begun. -/
def Dev.booted (d : Dev) : Bool := decide (d.steward ≠ stBoot)

/-- The beat edge. -/
def Dev.beatEdge (d : Dev) : Dev :=
  let d1 := d.nextBeat.edgeActs
  if d1.booted then (d1.epochWork).beatWork d.beat else d1

end Sys2Proof.Machine
end

