-- ==== Sys2Proof/Machine/Due.lean ====
section
/-! DEFINITION. What falls due at a beat edge, first part: the commands that the state itself gives for units, time, host ports, queue pairs and host
commands. Every meaning looks at its own conditions again, so a command that is queued and has become void does nothing. -/
namespace Sys2Proof.Machine

/-- A command, where its condition holds. -/
def due (c : Bool) (i : Instr) : List Instr := if c then [i] else []

/-- The elements of a list in an order. -/
def sortIns {α : Type} (before : α → α → Bool) (x : α) : List α → List α
  | [] => [x]
  | y :: t => if before x y then x :: y :: t else y :: sortIns before x t
def sortBy {α : Type} (before : α → α → Bool) : List α → List α
  | [] => []
  | x :: t => sortIns before x (sortBy before t)

/-! ### Events (R563, R567) -/

/-- R563: the raises of the beat reach the event controller, in ascending order of their source numbers. -/
def Dev.dueRaises (d : Dev) : List Instr :=
  (sortBy (fun (a b : Raise) => decide (a.src ≤ b.src)) d.raised).map (fun r => .eventRaise r.src r.p0 r.p1 r.p2 r.beat)

/-- R567, R572, R574: the recorder. -/
def Dev.dueRecorder (d : Dev) : List Instr :=
  due (!d.flag Reg.FUM_STS_SEQ_LOADED) .seqLoad ++ due (!d.fum.queue.isEmpty || decide (d.fum.drop ≠ 0)) .fumaroleRecordWrite ++
    due (d.flag Reg.FUM_STS_FLUSHING) .fumaroleFlush ++
    (List.range 9).flatMap (fun b => due (d.pmc.due.any (fun x => decide (x.1 = b))) (.sampleDeliver b))

/-! ### Units (R17 to R22) -/

/-- The start sequence of a unit is over. What ports, lanes and attach points wait for lies outside the chip. -/
def Dev.startReady (d : Dev) (u : UnitId) : Bool :=
  match u with
  | .slice _ => decide (3 ≤ d.age (tmStart u))
  | .mdc => decide (256 ≤ d.age (tmStart u))
  | .qp q => decide (2 ≤ d.age (tmStart u)) && decide ((d.ctx q).xstate = .rtr) && !d.startHeld u
  | _ => false

/-- Commands of queue pair q have been admitted and have not ended. -/
def Dev.qpTags (d : Dev) (q : Nat) : Bool :=
  d.nvt.tags.any (fun e => decide (e.2.state ≠ .free) && (match e.2.cmd with
    | some c => decide (c.qp = q)
    | none => false))

/-- R68, R77, R356, R396, R438, R681: the stop sequence of a unit is over. -/
def Dev.stopReady (d : Dev) (u : UnitId) : Bool :=
  match u with
  | .slice s =>
    d.xpt.ctxs.all (fun e => decide (home e.1 ≠ s) || decide (e.2.unit.state = .off)) &&
      d.nvt.tags.all (fun e => decide (e.1 / Config.tagsPerSlice ≠ s) || decide (e.2.state = .free)) && (d.slice s).jobs.all (fun j => !j.begun && !d.mayBegin s j) &&
      d.lay.segs.all (fun e => e.2.isMeta || decide (e.2.slice ≠ s) || decide (e.2.state = .written) || (decide (e.2.state = .closed) && d.destageHalted s))
  | .port _ => true
  | .lane _ => true
  | .mdc => d.mdc.cmd.isNone && decide (mdcSets ≤ d.mdc.drain) && d.mdc.wb.isEmpty && decide (d.mdc.owed = 0)
  | .att a => (d.slotsOf a).all (fun e => decide (e.2.state = .timedOut))
  | .qp q =>
    let w := d.work q
    if (d.ctx q).xstate = .error then w.sent.isEmpty && w.sendQ.isEmpty && w.flushed.isEmpty
    else if (d.ctx q).xstate = .rts then w.sent.isEmpty && w.sendQ.isEmpty && !d.qpTags q
    else true

/-- R18: a unit whose sequence completed, or whose state the edge changes. -/
def Dev.dueUnit (d : Dev) (u : UnitId) : List Instr :=
  let r := d.unit u
  let stopping := decide (r.state = .stopping ∨ r.state = .pendOn)
  let timeout := match u with
    | .port p => decide (r.state = .starting) && d.expired (tmStart u) (d.fld (Reg.HPT_CFG_LINK_TIMEOUT p))
    | _ => false
  let qpInit := match u with
    | .qp q => decide (r.state = .starting) && decide ((d.ctx q).xstate = .init)
    | _ => false
  let started := decide (r.state = .starting) && d.startReady u
  let stopped := stopping && d.stopReady u
  due timeout (match u with
    | .port p => .portLinkTimeout p
    | _ => .startDone u) ++
    due started (.startDone u) ++ due stopped (.stopDone u) ++
    due (stopping && !stopped && !d.armed (tmLate u) && d.expired (tmStop u) (d.maxStop u)) (.stopLate u) ++
    due (timeout || started || stopped || decide (tget .none d.seqPend (unitNo u) ≠ .none) || decide (tget 0 d.hwPend (unitNo u) ≠ 0) || qpInit ||
      (r.en && decide (r.state = .off ∨ r.state = .stopping)) || (!r.en && decide (r.state = .starting ∨ r.state = .on ∨ r.state = .pendOn)))
      (.unitStateEdge u .none none)

/-- Every unit. -/
def Dev.dueUnits (d : Dev) : List Instr :=
  let us := (List.range 8).map UnitId.slice ++ (List.range 16).map UnitId.port ++ [UnitId.mdc] ++ (List.range 16).map UnitId.lane ++
    (List.range 128).map UnitId.att ++ (d.xpt.ctxs.map (·.1)).map UnitId.qp
  us.flatMap d.dueUnit

/-! ### Time and windows -/

/-- R26: windows whose capture is due. -/
def Dev.dueWindows (d : Dev) : List Instr := (allWins.filter (fun w => (d.win w).req)).map Instr.windowCapture

/-- R31, R50: what an epoch edge brings. -/
def Dev.dueEpoch (d : Dev) : List Instr :=
  if d.newEpoch then
    [.epochEdge, .counterSnapshot, .linkWiden, .failbackEpochCount, .fenceReleaseExpire, .activationStart, .activationPhaseStart, .activationCommit,
     .ticketDone, .ledShift] ++ (d.mde.segs.filter (fun e => d.reclaimDue e.1)).map (fun e => Instr.segmentReclaim e.1)
  else []

/-- R43 to R46, R461: the alignment of the two heads. -/
def Dev.dueSync (d : Dev) : List Instr :=
  let l := d.fld Reg.CDX_STS_LINK
  due (decide (d.fld Reg.GLB_SYNC_STS_ROLE = roleFollower) && decide (l = 2 ∨ l = 3 ∨ l = 4) &&
      (!d.armed tmSyncReq || d.expired tmSyncReq 1024)) .syncReqSend ++
    due (d.flag Reg.GLB_SYNC_STS_LOCKED && d.expired tmSync (2 ^ 13)) .syncLockLost

/-! ### Engines whose work has had its quanta -/

/-- No slice job runs on an engine. -/
def Dev.idle (d : Dev) (s : Nat) (e : Engine) : Bool := !(d.slice s).jobs.any (fun j => decide (j.eng = e))

/-- The GCM engines that have jobs, in the order in which they draw (R247). -/
def Dev.gcmEngines (d : Dev) : List (Nat × Nat) :=
  ((List.range 8).flatMap (fun s => [(s, 0), (s, 1)])).filter (fun x => d.key.jobs.any (fun j => decide (j.slice = x.1) && decide (j.eng = x.2)))

def Dev.dueGcm (d : Dev) (s e : Nat) : List Instr :=
  match d.gcmRunning s e with
  | some _ => if d.idle s (.gcm e) then [.gcmJobDone s e, .nonceDraw s e] else []
  | none => [.nonceDraw s e]

/-- What the end of an engine's quanta brings, before the engines take new work at this edge. -/
def Dev.dueEnds (d : Dev) : List Instr :=
  d.tph.grains.flatMap (fun e => match e.2.step with
    | .hashing u => due (d.idle (e.1 / Config.dirEntries) (.fpu u)) (.fingerprintDone (e.1 / Config.dirEntries) u)
    | _ => []) ++ d.gcmEngines.flatMap (fun x => d.dueGcm x.1 x.2) ++
    (d.rd.reads.filter (fun e => decide (e.2.step = .inflating) && decide (e.2.dec ≠ 0) && d.idle e.2.slice (.snd (e.2.dec - 1)))).map
      (fun e => Instr.decompressDone e.2.slice (e.2.dec - 1))

/-! ### Slices (R32 to R38) -/

/-- R162, R163: placement before the engines' other work, and admission last: what an edge admits begins in the beat after. -/
def Dev.dueSlice (d : Dev) (s : Nat) : List Instr :=
  let st := d.ustate (.slice s)
  due ((d.nextGroup s).isSome || d.nvt.tags.any (fun e => e.2.storing e.2.vol) || d.flag (Reg.SLI_WPE_STS_DIR_FULL s) ||
      d.flag (Reg.SLI_WPE_STS_ID_WAIT s)) (.regionGroupPlace s) ++
    due (decide (st = .on ∨ st = .stopping ∨ st = .pendOn)) (.engineSchedule s) ++
    due (match d.nextMerge s with
      | some e => !d.needsFlash e.2
      | none => false) (.rmwMerge s (.bytes 0 [])) ++
    due (d.rd.reads.any (fun e => decide (e.2.slice = s) && (decide (e.2.step = .bufWait) || (decide (e.2.step = .lookup) && decide (e.2.ready ≤ d.edges))))) (.readBufferGrant s) ++
    due (decide (st = .on) && decide ((d.pool s).length < 1024)) (.idPoolRefill s) ++ [.admitCommand s]

/-! ### Tags (R110 to R138) -/

/-- The path of an admitted command. The reservation commands that change a reservation bring their keys as operands. -/
def tagInstr (t op : Nat) : List Instr :=
  if op = opFlush then [.flush t] else if op = opWrite then [.write t] else if op = opRead then [.read t]
  else if op = opZeroes then [.writeZeroes t] else if op = opDsm then [.datasetManagement t] else if op = opVerify then [.verify t]
  else if op = opCopy then [.copy t] else if op = opResvReport then [.reservationReport t] else []

def Dev.dueTag (d : Dev) (t : Nat) (x : Tag) : List Instr :=
  match x.cmd with
  | none => []
  | some c =>
    if x.leaveAt then [.tagFree t]
    else if x.state ≠ .running ∨ x.fwdOut then []
    else if c.opcode = opCompare then due (!x.posted) (.compare t)
    else if c.opcode = opRead ∧ x.begun then due (!x.posted && decide (x.ended ≠ 0)) (.read t)
    else if x.begun then [] else tagInstr t c.opcode

/-- The commands that store begin first: their groups are placed in the beat after their admission (R162). -/
def Dev.dueTags (d : Dev) (storing : Bool) : List Instr :=
  (d.nvt.tags.filter (fun e => e.2.storing e.2.vol == storing)).flatMap (fun e => d.dueTag e.1 e.2)

/-- R112, R125, R135: controllers whose host is silent, groups that have drained, reservations whose record is mirrored. -/
def Dev.dueHosts (d : Dev) : List Instr :=
  (d.nvt.ctrls.filter (fun e => e.2.valid && decide (e.2.kato ≠ 0) && decide (msBeats e.2.kato ≤ d.since e.2.lastCmdBeat))).map
      (fun e => Instr.keepAliveExpire e.1) ++
    (List.range 64).flatMap (fun g =>
      due (decide (d.fld (Reg.NVT_ANA g) = anaChange) && decide (d.fld (Reg.NVT_ANA_OWN g) = 0) && decide (d.fov.handRole ≠ 2) && !d.grpRunning g &&
        !(d.edge.contains (.ana g anaNonOptimized))) (.anaChangeDrained (g + 1))) ++
    (d.nvt.ns.filter (fun e => !e.2.resvNext.isEmpty)).map (fun e => Instr.reservationEffect e.1)

/-! ### Queue pairs and ports (R65 to R99) -/

def Dev.dueQp (d : Dev) (q : Nat) : List Instr :=
  let w := d.work q
  let c := d.ctx q
  let head := w.sendQ.head?.bind (fun (x : WorkItem) => x.wait)
  due (!w.flushed.isEmpty || (decide (c.xstate = .error) && !(w.sent.isEmpty && w.sendQ.isEmpty))) (.workItemFlushed q) ++
    (match head with
     | some (m, n) => if waitHolds (d.ctx m).cc n then [.waitConditionMet q] else due (!d.isOn (.qp m)) (.waitBroken q)
     | none => []) ++
    (List.range 4).flatMap (fun p => due (decide (c.ackTo ≠ 0) && d.expired (tmAck q p) (ackTimeoutBeats c.ackTo)) (.ackTimeout q p)) ++
    (List.range 4).flatMap (fun p => due (d.expired (tmRnr q p) (tget 0 w.rnrWait p)) (.rnrTimerExpire ⟨q, p⟩)) ++ due (d.expired (tmRate q) 1024) (.rateLimitRecover q) ++
    due (match d.bitmapOf q c.msgRxBase false with
      | some i => decide ((d.bitmap i).bits = 2 ^ ((d.bitmap i).pktLast + 1) - 1)
      | none => false) (.messageComplete q) ++
    due (decide (q < 64) && decide (c.unit.state = .starting) && !w.peerReady && d.expired (tmStart (.qp q)) (2 ^ 14)) (.qpPairTimeout q)

def Dev.duePort (d : Dev) (p : Nat) : List Instr :=
  [Prio.a, Prio.b].flatMap (fun pr =>
    due ((d.port p).xoff pr && d.expired (tmXoff p pr) (d.fld (Reg.HPT_PFC_TIME_REFRESH p))) (.pfcRefresh p pr) ++
      due ((d.port p).paused pr && !(d.port p).discard pr && decide (d.fld (Reg.HPT_PFC_WD_PFC_WD p) ≠ 0) &&
        d.expired (tmPause p pr) (d.fld (Reg.HPT_PFC_WD_PFC_WD p) + 1)) (.pfcWatchdog p pr))

def Dev.dueTransport (d : Dev) : List Instr :=
  (d.xpt.ctxs.map (·.1)).flatMap d.dueQp ++ (d.xpt.ports.map (·.1)).flatMap d.duePort ++
    (d.xpt.regions.filter (fun e => decide (e.2.state = .revoking) && decide (e.2.inflight = 0))).map (fun e => Instr.revocationDone e.1)

/-! ### Messages received whole (R423, R456) -/

/-- R456: a forwarded message on a context of class 1, with its 32-byte header. -/
def fwdInstr (m : Nat) (b : List Byte) : List Instr :=
  if b.length < 32 then []
  else
    let rtag := leField b 2 2
    match leField b 0 1 with
    | 1 =>
      let c := fwdCmdOf m b
      let data := b.drop 96
      let n := rangeCount (b.drop 32) c.opcode
      [.fwdCmd m rtag (leField b 1 1) { c with
        data := data
        ranges := if c.opcode = opDsm then dsmRanges n data else if c.opcode = opCopy then copyRanges n data else [] }]
    | 2 => [.fwdData rtag (leField b 8 4) (b.drop 32)]
    | 3 => [.fwdCpl rtag (leField b 46 2 / 512 % 8) (leField b 46 2 / 2 % 256)]
    | _ => []

/-- R423: a replication message by its TYPE. EXTENTS and NEED wait for what the drives give. -/
def repInstr (q : Nat) (b : List Byte) : Option Instr :=
  match leField b 3 1 with
  | 1 => some (.open_ q b)
  | 2 => some (.openAck q b)
  | 5 => some (.grains q b)
  | 6 => some (.windowAck q b)
  | 7 => some (.commit q b)
  | 8 => some (.commitAck q b)
  | 3 => none
  | 4 => none
  | _ => some (.repAbort q b)

/-- The messages that are taken now, and those that stay: behind one that waits, everything of its context waits (R422). -/
def Dev.takeDelivered (d : Dev) : List Nat → List (Nat × List Byte) → List (Nat × List Byte) × List (Nat × List Byte)
  | _, [] => ([], [])
  | held, (q, b) :: t =>
    if (d.ctx q).cls ≠ 1 ∧ (held.contains q ∨ leField b 3 1 = 3 ∨ leField b 3 1 = 4) then
      let r := d.takeDelivered (q :: held) t
      (r.1, (q, b) :: r.2)
    else
      let r := d.takeDelivered held t
      ((q, b) :: r.1, r.2)

/-- The commands that a message gives. -/
def Dev.msgInstrs (d : Dev) (e : Nat × List Byte) : List Instr :=
  if (d.ctx e.1).cls = 1 then fwdInstr e.1 e.2 else (repInstr e.1 e.2).toList

/-- R81: a message that carries no command is finished with when it is taken: its slot is free. A FWD_CMD keeps it until its admission. -/
def Dev.msgTaken (d : Dev) (e : Nat × List Byte) : Dev :=
  d.cond (!(decide ((d.ctx e.1).cls = 1) && decide (leField e.2 0 1 = 1) && decide (32 ≤ e.2.length))) (fun d => d.freeSlot e.1)

/-- What falls due for hosts, units and time. -/
def Dev.dueFront (d : Dev) : List Instr :=
  d.dueRaises ++ d.dueRecorder ++ ((d.takeDelivered [] d.xpt.delivered).1).flatMap d.msgInstrs ++ d.dueUnits ++ d.dueEpoch ++ d.dueSync ++
    d.dueTags true ++ d.dueEnds ++ (List.range 8).flatMap d.dueSlice ++ d.dueTags false ++ d.dueHosts ++ d.dueTransport

end Sys2Proof.Machine
end

