-- ==== Sys2Proof/Machine/DueStore.lean ====
section
/-! DEFINITION. What falls due at a beat edge, second part: the commands that the state itself gives for the Caldera, reduction, the cipher, the layout,
the metadata engine, reads, drives, replication, the peer link, failover, memory and the steward. -/
namespace Sys2Proof.Machine

/-! ### The Caldera (R153 to R183) -/

/-- R153: the entries of a slice that may start to destage, oldest first. -/
def Dev.dueDestage (d : Dev) (s : Nat) : List Instr :=
  let l := (d.dirOf s).filter (fun e => d.eligible s e.1)
  (sortBy (fun (a b : Nat × DirEntry) => !b.2.before a.2) l).map (fun e => Instr.destageStart s e.1)

/-- R182, R183: the segments whose entries this head frees, and the entries that are freed by a put to the peer. -/
def Dev.dueRelease (d : Dev) (now : List Nat) : List Instr :=
  let l := d.cal.dirs.filter (fun e => (decide (e.2.state = .verified) || e.2.discarded) && !e.2.releasing && decide (e.2.refs = 0) &&
    !d.insertPending e.2.grid)
  let byPeer (e : Nat × DirEntry) : Bool := e.2.dupOf.isNone && !e.2.discarded && decide (d.firstResult e.2.segment = 1)
  (((now ++ (l.filter byPeer).map (fun e => e.2.segment)).eraseDups).map Instr.grainRelease) ++
    (l.filter (fun e => !byPeer e)).map (fun e => Instr.releasePut (e.1 / Config.dirEntries) (e.1 % Config.dirEntries))

/-- R172, R173: a vault write that has ended. -/
def vaultInstr (x : VFor × Bool) : List Instr :=
  match x.1 with
  | .group g => [.vaultWriteComplete g x.2]
  | .catchup key => [.catchupWrite (key / Config.dirEntries) (key % Config.dirEntries) x.2]
  | _ => []

def Dev.dueCaldera (d : Dev) (now : List Nat) : List Instr :=
  (List.range 8).flatMap d.dueDestage ++
    (d.cal.dirs.filter (fun e => decide (e.2.state = .destaging) && decide ((d.red e.1).step = .journaled))).map
      (fun e => Instr.destagePlaced (e.1 / Config.dirEntries) (e.1 % Config.dirEntries)) ++
    d.dueRelease now ++ (d.mem.done.filter (fun x => !d.vaultHeld x)).flatMap vaultInstr ++
    due (decide (d.vaultReasons ≠ 0) && !d.vaultThrough) .vaultThroughEnter ++ due (decide (d.vaultReasons = 0) && d.vaultThrough) .vaultThroughExit ++
    due d.rewriteDue.isSome .vaultLogRewrite ++ due d.geyserDue .geyserFlushDone

/-! ### Reduction and the cipher (R192 to R261) -/

/-- What waits for a grain in reduction. -/
def Dev.dueGrain (d : Dev) (k : Nat) (x : RedGrain) : List Instr :=
  let s := k / Config.dirEntries
  let i := k % Config.dirEntries
  match x.step with
  | .check => due (!d.insertPending (d.dirKeyed k).grid) (.tephraCheck s i)
  | .loadWait => due (d.expired (tmLoadWait s i) (d.fld Reg.MDE_TPH_CFG_LOAD_WAIT)) (.loadWaitTimeout s i)
  | _ => []

def Dev.dueReduction (d : Dev) : List Instr :=
  d.tph.grains.flatMap (fun e => d.dueGrain e.1 e.2) ++
    (d.key.posts.filter (fun p => p.vault || !d.isOn (.qp p.m) || waitHolds (d.ctx p.m).cc p.count)).map
      (fun p => Instr.hwmRecordCommit p.slot p.gen p.value) ++
    due (decide (d.tph.sentEpoch ≠ d.epoch + 1) && decide (2 ^ 20 ≤ d.offset)) .tephraBatchSend ++ due d.tph.batch.isSome .tephraBatchDeadline

/-! ### The layout (R291 to R303) -/

/-- A segment may be opened now: a place in the in-flight table, an ID and strips on enough drives. -/
def Dev.maySegOpen (d : Dev) (isMeta : Bool) : Bool :=
  let k := d.fld (if isMeta then Reg.GLB_LAY_META_GEOM_K else Reg.GLB_LAY_DATA_GEOM_K)
  let m := d.fld (if isMeta then Reg.GLB_LAY_META_GEOM_M else Reg.GLB_LAY_DATA_GEOM_M)
  let l := d.drivesFor isMeta
  decide (d.lay.segs.length < 4096) && d.freeSegNo.isSome && decide (k + m ≤ l.length) && l.all (fun a => (d.freeLoc a).isSome)

/-- What a segment could not be opened for has been reported already. -/
def Dev.segOpenHeld (d : Dev) : Bool :=
  d.flag Reg.GLB_LAY_STS_FULL || d.flag Reg.GLB_LAY_STS_ID_WAIT || d.flag Reg.GLB_LAY_STS_DRIVE_WAIT

def Dev.dueOpen (d : Dev) : List Instr :=
  (List.range 8).flatMap (fun s =>
    due (d.isOn (.slice s) && decide (d.fld (Reg.SLI_ECU_OPEN_SEG_SEGMENT s) = 0) && ((d.oldestAt s (fun x => decide (x = .packWait))).isSome || (d.relocHead s).isSome) &&
      (!d.segOpenHeld || d.maySegOpen false)) (.segmentOpen s false)) ++
    due (decide (d.lay.openMeta = 0) && !d.lay.metaQ.isEmpty && (!d.segOpenHeld || d.maySegOpen true)) (.segmentOpen 0 true)

def Dev.dueSeg (d : Dev) (x : LaySeg) : List Instr :=
  match x.state with
  | .opened => due (d.closeDue x) (.segmentClose x.seg)
  | .closed => due (decide (x.ecu = .parityDone)) (.parityDone x.seg)
  | .writing => if x.writes ≠ 0 then [] else if x.bad.isSome then [.segmentAbandon x.seg] else [.segmentWritten x.seg]
  | .written => due (!x.ownPass && !x.retryOwn && (decide (d.fld Reg.GLB_LAY_VERIFY_TIMEOUT ≤ d.since x.stateBeat) || !d.linkSends ||
      d.vaultThrough)) (.verifyTimeout x.seg)

def Dev.dueLayout (d : Dev) : List Instr := d.dueOpen ++ d.lay.segs.flatMap (fun e => d.dueSeg e.2)

/-! ### The metadata engine and its cache (R314 to R360) -/

/-- R330: a full checkpoint begins in the middle of every 16th epoch's first half, or when the records since the last one pass the limit. The maps
must be those of a head in service. -/
def Dev.checkpointDue (d : Dev) (was : Nat) : Bool :=
  d.fov.replayDone && (crosses was d.beat (16 * Config.epochBeats) (2 ^ 21) || (decide (d.cpLimit ≤ d.cpRecords) && !d.mde.cpRun))

def Dev.dueMetadata (d : Dev) (was : Nat) : List Instr :=
  List.replicate (d.mde.inserts.filter d.insertReady).length Instr.insertApply ++ due (!d.mde.cascade.isEmpty) .pageFreeCascade ++
    List.replicate (d.mde.snaps.filter (fun p => !d.snapWaits p)).length Instr.snapshotShare ++
    (d.mde.deleting.filter (fun t => !d.mde.cascade.any (fun e => decide (e.2 = t)))).map Instr.treeDeleteDone ++
    due (decide ((d.mde.spillTo / recsPerPage + d.runPages) * recsPerPage ≤ d.fld Reg.MDE_JSEQ_NEXT_SEQ)) .journalRunSpill ++
    due (d.checkpointDue was) .fullCheckpointStart ++ due (d.mde.cpRun && decide (2 ≤ d.mde.cpAnchors)) .fullCheckpointDone ++
    ((d.mde.relocReady.map (fun m => Instr.relocationDone (relocSlice m.old) m.seg)).eraseDups) ++ due d.mdcReady .mdcCommandDone

/-! ### Reads, drives, replication (R362 to R435) -/

def Dev.dueRead (d : Dev) (r : Nat) (x : RdGrain) : List Instr :=
  let h := d.fld (Reg.SLI_RD_CFG_HEDGE x.slice)
  due (decide (x.step = .recon) && decide (x.solve = .solved)) (.reconstructionRound x.slice r) ++
    due (decide (x.step = .drive) && !x.hedged && !x.reloc && !d.flag (Reg.SLI_ECU_STS_FAULT x.slice) && decide (h ≠ 0) && decide (h ≤ d.since x.issued)) (.hedgeTimeout r) ++
    due (!x.active && decide ((d.tag x.tag).out = 0) && !x.driveBusy && (x.dirRef.isSome || x.segRef || decide (x.pages ≠ 0))) (.readReferenceDrop r)

def Dev.dueDrives (d : Dev) : List Instr :=
  ((d.drv.queue.map (·.1)).eraseDups).map Instr.driveCommandIssue ++
    (d.drv.slots.filter (fun e => decide (e.2.state = .issued) &&
      decide (d.fld Reg.DRV_CFG_CMD_TIMEOUT ≤ d.since (if e.2.cls = 0 then e.2.asked else e.2.issued)))).map
      (fun e => Instr.driveCommandTimeout (e.1 / 256) (e.1 % 256)) ++
    due (d.flag Reg.DRV_STS_PREEMPT_BUSY && decide (d.fld Reg.DRV_PREEMPT_TIMEOUT ≤ d.since d.drv.preBeat)) .preemptTimeout ++
    ((List.range 32).filter d.perstDue).map Instr.perstRelease ++
    ((List.range 128).filter (fun a => d.expired (tmRetire a) (d.fld Reg.DRV_REBUILD_DELAY_BEATS) && !d.isOn (.att a))).map Instr.retireTimerExpire ++
    ((List.range 128).filter d.rebuildDue).map Instr.rebuildComplete

def Dev.dueRep (d : Dev) : List Instr :=
  d.rep.sess.flatMap (fun e =>
    due (d.diffDue e.2) (.repDiffBatch e.1) ++
      due (decide (e.2.state ∈ [RepState.opening, .streaming, .committing]) && d.expired (tmRep e.1) (d.fld Reg.MDE_REP_TIMEOUT_TIMEOUT)) (.repTimeout e.1) ++
      due (decide (e.2.state = .suspended) && !e.2.target && decide (d.fld Reg.MDE_REP_RETRY_RETRY ≠ 0) &&
        d.expired (tmRep e.1) (d.fld Reg.MDE_REP_RETRY_RETRY)) (.repRetry e.1))

/-! ### The peer link and failover (R440 to R495) -/

def Dev.dueLink (d : Dev) : List Instr :=
  d.cdx.inbox ++ List.replicate d.cdx.rxSlots.length Instr.credioxPacket ++
    due (decide (d.fld Reg.CDX_STS_LINK = 2) && d.sync.measured && decide (d.stepPend = 0)) .linkUp ++
    due (d.linkUp && decide (d.beat % 64 = 0)) .heartbeatSend ++ due d.cdx.nakWait .nakResendTimeout ++
    due (!d.cdx.unacked.isEmpty && decide (d.fld Reg.CDX_STS_LINK ≠ 4) && d.expired tmFlitAck (d.fld Reg.CDX_TIMERS_ACK_TIMEOUT)) .flitAckTimeout ++
    due (d.expired tmNegotiate (2 ^ 14)) .negotiateTimeout ++ due (d.expired tmResize 512) .resizeTimeout ++
    due (decide (d.fld Reg.CDX_STS_LINK ≠ 4) && d.expired tmFlitLoss (d.fld Reg.CDX_TIMERS_LOSS_TIMEOUT)) .lossTimeout

def Dev.dueFailover (d : Dev) : List Instr :=
  due (decide (d.beat % 2 ^ 12 = 0)) .pulseOutToggle ++
    due d.fov.alive .peerSuspect ++ due d.fov.alive (.singlePathLost 0) ++ due d.fov.alive (.singlePathLost 1) ++
    due (d.fov.why.isSome && (List.range 3).all (fun i => decide (tget 0 d.drv.wit i ≠ 0))) .witnessAttemptResult ++
    due (decide (d.fovState = fsStart) && d.fov.replayDone) .peerWaitExpire ++
    due (decide (d.fovState = fsHandover) && d.expired tmHandover (d.fld Reg.FOV_HANDOVER_LIMIT_BEATS)) .handoverLimitExpire

/-! ### Memory, mailboxes, start-up, debug (R513 to R657) -/

/-- The row that serves a request code (R545 to R555). -/
def mbxRows : List (Nat × Instr) :=
  [(0x0101, .identify), (0x0102, .status), (0x0103, .portAddrs), (0x0104, .ticketStatus), (0x0201, .settingGet), (0x0202, .settingSet),
   (0x0203, .portSet), (0x0204, .lockEntry), (0x0205, .tephraRebuild), (0x0301, .subsysCreate), (0x0302, .subsysDelete), (0x0303, .hostSet),
   (0x0304, .volCreate), (0x0305, .volResize), (0x0306, .volSet), (0x0307, .volDelete), (0x0308, .volQuery), (0x0309, .groupHome),
   (0x0401, .snapCreate), (0x0402, .snapDelete), (0x0403, .cloneCreate), (0x0404, .snapList), (0x0501, .repCreate), (0x0502, .repStart),
   (0x0503, .repSuspend), (0x0504, .repResume), (0x0505, .repDelete), (0x0601, .keyLoad), (0x0602, .keyZeroise), (0x0603, .keyQuery),
   (0x0604, .kekSet), (0x0701, .witnessRead), (0x0702, .witnessSet), (0x0703, .mbxHandover), (0x0704, .fovAction), (0x0801, .evtRoute),
   (0x0802, .fumRead), (0x0803, .fumFlush), (0x0901, .pmcEvents), (0x0902, .pmcSnapshot), (0x0903, .pmcUser), (0x0A01, .stageBegin),
   (0x0A02, .stageData), (0x0A03, .stageEnd), (0x0A04, .activateArm), (0x0A05, .activateCancel), (0x0A06, .updateStatus), (0x0B01, .echo),
   (0x0B02, .stewardRestart), (0x0B03, .laneMargin), (0x0B04, .debugChallenge), (0x0B05, .debugOpen)]

/-- R539: the channels in a state, in the order in which their doorbells rang. -/
def Dev.channels (d : Dev) (st : Nat) : List Nat :=
  sortBy (fun a b => !d.rangBefore b a) ((List.range 8).filter (fun c => decide (d.fld (Reg.MBX_STS_STATE c) = st)))

def Dev.dueMailbox (d : Dev) : List Instr :=
  if d.steward ≠ stRunning then []
  else
    (d.channels 2).filterMap (fun c => (mbxRows.find? (fun r => decide (r.1 = d.req c 0 2))).map (·.2)) ++ (d.channels 1).map Instr.requestTake ++
      due (d.mbx.snapRuns.any (fun r => !r.dead && decide (2 ^ 20 < d.since r.beat))) .snapRunTimeout ++
      due (decide (max (d.fld Reg.MBX_WDOG_TIMEOUT) (2 ^ 20) ≤ d.since (d.fld Reg.MBX_KICK_BEAT))) .watchdogExpire

def Dev.dueSteward (d : Dev) : List Instr :=
  (d.mem.chans.filter (fun e => d.mayCalibrate e.1)).map (fun e => Instr.calibrationBeat e.1) ++ d.dueMailbox ++
    due (decide (d.fis.step ≠ 0) && d.stepOver d.fis.step) .startUpStepDone ++
    due (d.sec.chal.isSome && d.expired tmChallenge (4 * Config.epochBeats)) .challengeExpire ++
    due (decide (d.fld Reg.SEC_STS_DBG_STATE = 1)) .debugOpenStepDone

/-- R130: every forwarded command still unanswered; those whose way is gone by the end of this edge end at it. -/
def Dev.dueForwards (d : Dev) : List Instr :=
  (d.nvt.tags.filter (fun e => e.2.fwdOut && decide (e.2.state = .running))).map (fun e => Instr.forwardFail e.1)

/-- Everything that falls due. `was` is the number of the beat before and `now` the segments released at this edge. The windows come last: a capture
sees every change of its edge (R26). -/
def Dev.dueNow (d : Dev) (was : Nat) (now : List Nat) : List Instr :=
  if d.booted then
    d.dueFront ++ d.dueCaldera now ++ d.dueReduction ++ d.dueLayout ++ d.dueMetadata was ++ d.rd.reads.flatMap (fun e => d.dueRead e.1 e.2) ++
      d.dueDrives ++ d.dueRep ++ d.dueLink ++ d.dueFailover ++ d.dueSteward ++ d.dueForwards ++ d.dueWindows
  else []

/-- What has become commands is taken from where it waited. -/
def Dev.dueTaken (d : Dev) : Dev :=
  if d.booted then
    let l := d.takeDelivered [] d.xpt.delivered
    { d with
      raised := [], cdx := { d.cdx with inbox := [] }, mem := { d.mem with done := d.mem.done.filter d.vaultHeld }
      xpt := { d.xpt with delivered := l.2 } }.each l.1 (fun e d => d.msgTaken e)
  else d

end Sys2Proof.Machine
end

