-- ==== Sys2Proof/Machine/Tick.lean ====
section
/-! DEFINITION. The tick: what a step does when no command waits. DESIGN CHOICE: the spec gives no row for the passing of a beat. -/
namespace Sys2Proof.Machine

/-- One beat passes: the beat edge, and then every command that the state itself gives waits, in the order of the chapters. -/
def tick (s : State) : State :=
  let d := s.dev.beatEdge
  { dev := d.dueTaken, pending := s.pending ++ d.dueNow s.dev.beat (releases s.dev.edge) }

end Sys2Proof.Machine
end

