-- ==== Sys2Proof/Machine/Step.lean ====
section
/-! DEFINITION. One step of the FH6400: the command at the front of the queue runs, and an empty queue
lets a beat pass. -/
namespace Sys2Proof.Machine

/-- One step. The command at the front of the queue runs on the queue's rest. With an empty queue a beat passes. -/
def step (s : State) : Host.Outcome State Fault Refusal :=
  match s.pending with
  | c :: rest => exec c { s with pending := rest }
  | [] => .next (tick s)

/-- `s` with the command that the word spells put at the front of its queue. The table gives no row any
bits, so no word spells a command and the state is unchanged. -/
def State.withFetchWord (s : State) (nbits w : Nat) : State :=
  match decodeTableWord nbits w with
  | some c => { s with pending := c :: s.pending }
  | none => s

end Sys2Proof.Machine
end

