-- ==== Sys2Proof/Machine/Views.lean ====
section
/-! DEFINITION. What a read of a register answers (R5, R7, R24, R25, R529, R571, R591, R597). Reading changes nothing. -/
namespace Sys2Proof.Machine

/-! ### Fields that show other state -/

/-- How many sources of group g of 32 are pending. -/
def Dev.pendingIn (d : Dev) (g : Nat) : Nat := ((List.range 32).filter (fun j => d.flag (Reg.EVC_PEND (32 * g + j)))).length

/-- The groups of 32 sources in which some source is pending, one bit each, and how many sources are pending (R579). -/
def Dev.pendingGroups (d : Dev) : Nat × Nat :=
  (List.range 64).foldl (fun x g =>
    let n := d.pendingIn g
    (x.1 + (if n = 0 then 0 else 2 ^ g), x.2 + n)) (0, 0)

/-- R339: the highest SEQ applied: the one before the first insert still pending, else the last written. -/
def Dev.appliedSeq (d : Dev) : Nat := (d.mde.inserts.map (·.seq)).foldl min (d.fld Reg.MDE_JSEQ_NEXT_SEQ) - 1

/-- The fields that are not kept but show other state, with what they show: the time (R54), and counts and conditions of the blocks' tables. -/
def Dev.views (d : Dev) : List (Fld × Nat) :=
  let p := d.pendingGroups
  let b (c : Bool) : Nat := if c then 1 else 0
  [(Reg.GLB_BEAT_BEAT, d.beat), (Reg.GLB_CYCLE_CYCLE, Config.cycleOf d.edges % d.sync.lastBeatLen), (Reg.GLB_EPOCH_EPOCH, d.epoch), (Reg.XPT_STS_QP_ON, d.qpOnCount),
    (Reg.XPT_STS_BMP_FREE, d.bmpFree), (Reg.NVT_STS_TAGS_USED, (d.nvt.tags.filter (fun e => decide (e.2.state ≠ .free))).length),
    (Reg.GLB_CAL_OWN_PAGES, d.ownDirty), (Reg.GLB_CAL_RESV_PAGES, d.resvPages),
    (Reg.GLB_CAL_MIR_PAGES, d.mirPagesUsed), (Reg.MDE_JSEQ_APPLIED_SEQ, d.appliedSeq), (Reg.MDE_TPH_STS_ACTIVE, b d.tphActive),
    (Reg.MDE_STS_ID_WAIT, b ((List.range 8).any (fun s => d.flag (Reg.SLI_WPE_STS_ID_WAIT s)))),
    (Reg.MDE_ID_FREE_IDS, ((List.range 8).map (fun s => (d.pool s).length)).sum),
    (Reg.DRV_STS_ATT_ON, ((List.range 128).filter (fun a => d.isOn (.att a))).length),
    (Reg.DRV_STS_RETIRED, ((List.range 128).filter (fun a => d.flag (Reg.DRV_ATT_STS_RETIRED a))).length),
    (Reg.DRV_WIT_STS_REACH, (List.range 3).foldl (fun n i => n + (if d.flag Reg.DRV_WIT_CFG_VALID && d.isOn (.att (d.fld (Reg.DRV_WIT_CFG_WIT i))) then 2 ^ i
      else 0)) 0),
    (Reg.MDE_REP_STS_DIFF_BUSY, b (d.rep.sess.any (fun e => decide (e.2.state = .streaming) && !e.2.target && !e.2.batched))),
    (Reg.FOV_STS_FENCE_COUNT, min 15 (d.fov.takeovers.filter (fun e => decide (d.epoch < e + 256))).length),
    (Reg.EVC_STS_FAULT, b d.faultCond), (Reg.EVC_STS_ANY, b (decide (p.2 ≠ 0))), (Reg.EVC_STS_PENDING_CNT, p.2), (Reg.EVC_SUMMARY_GROUP, p.1)] ++
    (List.range 8).map (fun s => (Reg.SLI_WPE_STS_DIR_USED s, d.dirUsed s)) ++
    (List.range 9).map (fun k => (Reg.PMC_CYCLE_CYCLE k, d.pmcCycle))

/-- The value of a field as a read shows it. -/
def Dev.viewFld (d : Dev) (f : Fld) : Nat :=
  match d.views.find? (fun x => decide (x.1 = f)) with
  | some x => x.2
  | none => d.fld f

/-- The register at offset `a` as its fields show it. -/
def Dev.viewWord (d : Dev) (a : Nat) : Nat :=
  ((fieldsAt a).filter (fun f => f.inWord a && decide (f.acc ≠ .wo))).foldl
    (fun v f => v + d.viewFld f / 2 ^ (f.share a).1 % 2 ^ (f.share a).2.2 * 2 ^ (f.share a).2.1) 0

/-! ### Windows, the ring and the pair registers -/

/-- The registers of a window, at offset `o` from its WIN_IDX (R25). The grain-record window has the upper half of its index at + 0x10. -/
def Dev.winWord (d : Dev) (w : WinId) (o : Nat) : Option Nat :=
  let r := d.win w
  let first := (winPlace w).2.1
  if o = 0 then some r.idx
  else if o = 4 then some (bitAt r.ready 0 + bitAt r.bad 1)
  else if o = 8 then some (r.beat % 2 ^ 32)
  else if o = 12 then some (r.beat / 2 ^ 32 % 2 ^ 32)
  else if o = 0x10 ∧ w = .grainRec then some r.idxHi
  else if first ≤ o ∧ o < first + 4 * r.data.length then some (r.data.getD ((o - first) / 4) 0)
  else none

/-- The window word at offset `a` of BAR0. -/
def Dev.windowAt (d : Dev) (a : Nat) : Option Nat :=
  allWins.findSome? (fun w =>
    let base := (winPlace w).1
    if base ≤ a ∧ a < base + 0x100 then d.winWord w (a - base) else none)

/-- R571: four bytes of the Fumarole ring. A slot that nothing has written reads 0. -/
def Dev.ringWord (d : Dev) (o : Nat) : Nat :=
  match d.fum.ring.find? (fun e => decide (e.1 % ringRecs = o / 32)) with
  | some e => leField e.2 (o % 32) 4
  | none => 0

/-- R580: four bytes of entry n of a store of 32-byte records; an entry that is not there reads 0. -/
def recWord (l : List (List Byte)) (o : Nat) : Nat := ((l[o / 32]?).map (fun r => leField r (o % 32) 4)).getD 0

/-- R591: a counter, or half of a pair register. -/
def Dev.pmcWord (d : Dev) (a : Nat) : Option Nat :=
  match pmcAt a with
  | some (b, o) => (pmcCounterAt o).map (fun n => d.fld (Reg.PMC_CNT_COUNT b n))
  | none => none

/-! ### A read -/

/-- An aligned 32-bit read through a base address register. An offset that holds no register reads 0 (R7). -/
def Dev.barRead (d : Dev) (bar : Bar) (a : Nat) : Nat :=
  match bar with
  | .bar0 =>
    if 0x400_0000 ≤ a then 0
    else if 0x024_0000 ≤ a ∧ a < 0x028_0000 then d.ringWord (a - 0x024_0000)
    else if 0x020_0100 ≤ a ∧ a < 0x020_0200 then recWord d.fum.lg (a - 0x020_0100)
    else if 0x020_1000 ≤ a ∧ a < 0x020_3000 then recWord d.fum.pin (a - 0x020_1000)
    else match d.pmcWord a, d.windowAt a with
      | some v, _ => v
      | _, some v => v
      | _, _ => d.viewWord a
  | .bar2 =>
    if 0x10_0000 ≤ a then 0
    else if a < 0x8_0000 ∧ a % 0x1_0000 < 0x2000 then leNat (readBytes d.mbx.mem a 4)
    else d.viewWord (Reg.bar2 + a)
  | .bar4 =>
    let b := a / 0x1000
    let o := a % 0x1000
    if 9 ≤ b ∨ d.flag (Reg.PMC_BLK_CTL_USER_EN 0) = false ∨ !((decide (0x008 ≤ o) && decide (o < 0x280)) || (decide (0x400 ≤ o) && decide (o < 0x430))) then 0
    else
      let x := (if b = 0 then 0x030_0000 else 0x200_0000 + (b - 1) * 0x20_0000 + 0x18_0000) + o
      match d.pmcWord x with
      | some v => v
      | none => d.viewWord x

/-- R7: a read of `size` bytes at offset `off`. A read that is not naturally aligned returns 0, and a narrow one its bytes of the register.
DESIGN CHOICE (log 161): 3 bytes, and 2 bytes at an odd offset, count as not naturally aligned. -/
def Dev.registerRead (d : Dev) (bar : Bar) (off size : Nat) : Nat :=
  if size = 8 ∧ off % 8 = 0 then d.barRead bar off + 2 ^ 32 * d.barRead bar (off + 4)
  else if (size = 1 ∨ size = 2 ∨ size = 4) ∧ off % size = 0 then d.barRead bar (off - off % 4) / 2 ^ (8 * (off % 4)) % 2 ^ (8 * size)
  else 0

end Sys2Proof.Machine
end

