-- ==== Sys2Proof/Safety.lean ====
section
/-! DEFINITION. What counts as a sound state and a sound step of the block, in the terms that the statements use. -/
namespace Sys2Proof.Machine

/-! ### The unit table of R19, read from its rows -/

/-- R18, R19: the state that a unit reaches at an edge, from its state, EN, what happened to its sequence, whether a hardware stop arose
in the beat, and whether the block refuses a start. The hardware stop clears EN, but not that of a unit in OFF. -/
def unitTable (st : UState) (en : Bool) (ev : SeqEvent) (hw refused : Bool) : UState :=
  let begins : UState := if refused then .off else .starting
  match st, ev with
  | .off, _ => if en then begins else .off
  | .starting, .fail _ => .off
  | .starting, .done => if hw then .stopping else if en then .on else .stopping
  | .starting, .none => if hw then .stopping else if en then .starting else .stopping
  | .on, _ => if hw then .stopping else if en then .on else .stopping
  | .stopping, .done => if hw then .off else if en then begins else .off
  | .stopping, _ => if hw then .stopping else if en then .pendOn else .stopping
  | .pendOn, .done => if hw then .off else if en then begins else .off
  | .pendOn, _ => if hw then .stopping else if en then .pendOn else .stopping

/-- R18, R681, R685: what counts at the edge as having happened to a unit's sequence: what is given there, else what was noted in the beat. A
slice's start never fails, and the done start of a mirror context waits for the peer's. -/
def Dev.seqNow (d : Dev) (u : UnitId) (ev : SeqEvent) : SeqEvent :=
  let e := if ev = .none then tget .none d.seqPend (unitNo u) else ev
  match e with
  | .fail c => if unitIsSlice u then .none else .fail c
  | .done => if d.ustate u = .starting ∧ d.startHeld u = true then .none else .done
  | .none => .none

/-- R18, R681: a hardware stop counts at the edge: one given there or noted in the beat. A slice has none. -/
def Dev.stopNow (d : Dev) (u : UnitId) (hw : Option Nat) : Bool :=
  !unitIsSlice u && (hw.isSome || decide (tget 0 d.hwPend (unitNo u) ≠ 0))

/-! ### Canonical memories -/

/-- Every byte memory of the device is in its canonical form: the Caldera's own and mirror areas, the mailbox buffers, and the rest of
HBM3E and DDR5. -/
def Dev.memoriesCanonical (d : Dev) : Prop :=
  Memory.wf d.ram = true ∧ Memory.wf d.cal.own = true ∧ Memory.wf d.cal.mirror = true ∧ Memory.wf d.mbx.mem = true

/-- A sound state. -/
def State.sound (s : State) : Prop := s.dev.memoriesCanonical

/-! ### Where commands come from -/

/-- The rows that only hosts, drives, the peer's wires, software, pins or a test tool give: the block never gives them to itself (chapter 1). -/
def fromOutside : Instr → Bool
  | .registerWrite _ _ _ _ | .unitEnWrite _ _ | .winIdxWrite _ _ | .quadModeWrite _ | .qpCtlWrite _ | .relocCmdWrite _
  | .drvPortModeWrite _ _ | .retireWrite _ _ | .counterWrite _ _ _ _ | .doorbell _ _ | .requestBufferWrite _ _ | .mdcFlush
  | .mdcFlushInv | .mdcInvalidate | .zeroLine | .lockSet _ | .lockClear _ | .load _ _ | .loadCounter _ | .zeroise _ | .zeroiseAll
  | .handoverCtl | .failback | .unfence | .acceptLoss | .fovLeave | .fumCtlFlush | .norRetry | .alarmClr | .service | .frameReceive _ _
  | .rocePacketReceive _ _ _ | .cnpReceive _ | .pfcFrameReceive _ _ _ | .cmDatagram _ _ | .hostDisconnect _ | .ackReceive _ _ _ _ _
  | .nakReceive _ _ _ _ | .rnrNakReceive _ _ _ | .mpPacketReceive _ _ | .connect _ _ _ _ _ _ _ _ _ | .propertyGet _ _ _
  | .propertySet _ _ _ _ | .authenticationSend _ _ _ | .authenticationReceive _ _ _ | .disconnect _ _ | .nvmeIdentify _ _ _ _ _
  | .getLogPage _ _ _ _ | .setFeatures _ _ _ _ | .getFeatures _ _ _ | .asynchronousEventRequest _ _ | .keepAlive _ _ | .abort _ _ _ _
  | .presenceChange _ _ | .surpriseDown _ | .driveCompletion _ _ _ _ _ | .perst _ | .flitReceive _ | .initRecord _ | .pulseInEdge _
  | .claimInEdge _ | .memoryReadError _ _ _ _ | .vectorUnmask _ | .smbusOtherCommand _ | .smbusLastGaspEntry _ | .smbusLastGaspStatus
  | .smbusTemperature | .smbusPhase | .jtagInstructionLoad _ | .shiftDr _ _ | .testLogicReset | .alarm _ | .alarmCauseClear _
  | .temperatureWarning _ _ | .holdupOkChange _ | .fenceInAssert | .pwrfail | .serviceButtonPress _ | .powerOnReset => true
  | _ => false

/-! ### Replication messages -/

/-- R422, R423: a message of type `typ` that comes in order on the session of context q, which plays the role `target`. -/
def Dev.repInOrder (d : Dev) (q typ i : Nat) (m : List Byte) (target : Bool) : Bool :=
  let s := d.sess i
  decide (d.sessOf q = some i) && decide (s.state ≠ .suspended) && decide (s.state ≠ .opening) && repWf typ m && decide (leField m 2 1 = 1) &&
    decide (leField m 8 8 = s.session) && decide (leField m 16 8 = s.rxSeq + 1) && decide (s.target = target)

/-! ### Packets and where they arrive -/

/-- R74, R76, R685: a packet that comes in at a host port which is ON, or over Crediox, with destination number dqpn reaches context q, which is not
in ERROR. -/
def Dev.takesFor (d : Dev) (via : Option Nat) (dqpn : Psn) (q : Nat) : Bool :=
  (match via with
   | some p => d.isOn (.port p)
   | none => true) && decide (d.reaches via dqpn = some q) && decide ((d.ctx q).xstate ≠ .error)

/-! ### Answers of the mailbox (R533, R537, R538) -/

/-- The request of channel c has been answered: DONE, RESP_SEQ, the bytes of the response in its buffer, and the completion event unless
IRQ_EN is 0 or the request set NO_IRQ. `P` says what else the device then holds. -/
def Answered (o : Host.Outcome State Fault Refusal) (s : State) (c : Nat) (r : Reply) (P : Dev → Prop) : Prop :=
  ∃ d : Dev, o = .next { s with dev := d } ∧ d.fld (Reg.MBX_STS_STATE c) = 3 ∧ d.fld (Reg.MBX_RESP_SEQ_SEQ c) = s.dev.req c 4 4 ∧
    readBytes d.mbx.mem (respBase c) (32 + (fill4 r.body).length) =
      respBytes (s.dev.req c 0 2) (if s.dev.mbx.again.contains c then 2 else 0) (s.dev.req c 4 4) r ∧
    (s.dev.flag (Reg.MBX_CTL_IRQ_EN c) = true → s.dev.req c 2 1 % 2 = 0 →
      d.raised.getLast? = some ⟨1856 + c, eventCode (1856 + c), c, s.dev.req c 4 4, r.st % 256, s.dev.beat⟩) ∧
    P d

/-- Nothing of the device but the mailbox, registers and raised events differs from s. -/
def ReadsOnly (s : State) (d : Dev) : Prop := d = { s.dev with mbx := d.mbx, fields := d.fields, raised := d.raised }

/-- R539, R542: the reading command `i` of this code leaves everything as it is while the steward is down or no channel holds its request. Else it is
answered on its channel: BAD_ARGUMENT with 8 where LENGTH is not `len`, what `r` says where it is; and nothing else of the device changes. -/
def AnswersRead (s : State) (i : Instr) (code len : Nat) (r : Nat → Reply) : Prop :=
  (s.dev.steward ≠ stRunning ∨ s.dev.mbxChannel code = none → Machine.exec i s = .next s) ∧
  ∀ c, s.dev.steward = stRunning → s.dev.mbxChannel code = some c →
    (s.dev.req c 8 4 ≠ len → Answered (Machine.exec i s) s c (replyNo 0x04 8) (ReadsOnly s)) ∧
    (s.dev.req c 8 4 = len → Answered (Machine.exec i s) s c (r c) (ReadsOnly s))

/-- Nothing that a mailbox command configures differs from s: a command that was refused leaves only its journal records and its answer. -/
def Untouched (s : State) (d : Dev) : Prop :=
  d.nvt.ns = s.dev.nvt.ns ∧ d.nvt.subsys = s.dev.nvt.subsys ∧ d.nvt.hosts = s.dev.nvt.hosts ∧ d.nvt.ctrls = s.dev.nvt.ctrls ∧ d.key = s.dev.key ∧ d.rep = s.dev.rep ∧ d.upd = s.dev.upd ∧ d.sec = s.dev.sec ∧ d.fov = s.dev.fov ∧ d.drv = s.dev.drv ∧
    d.tph = s.dev.tph ∧ d.mde.trees = s.dev.mde.trees

/-- A request of this code runs on channel c (R539). -/
def RunsOn (s : State) (code c : Nat) : Prop := s.dev.steward = stRunning ∧ s.dev.mbxChannel code = some c

/-- R539, R542, R556: the command `i` of this code, which changes state, leaves everything as it is while the steward is down or no channel holds its request.
Else it is answered on its channel c: BAD_ARGUMENT with 8 where its LENGTH does not fit; the answer that `refuse` gives, with nothing configured
changed, where a check fails; and else `r c`, with `P c` of the device. -/
def AnswersChange (s : State) (i : Instr) (code : Nat) (fits : Nat → Prop) (refuse : Nat → Option Reply) (r : Nat → Reply) (P : Nat → Dev → Prop) : Prop :=
  (s.dev.steward ≠ stRunning ∨ s.dev.mbxChannel code = none → Machine.exec i s = .next s) ∧
  ∀ c, RunsOn s code c →
    (¬fits c → Answered (Machine.exec i s) s c (replyNo 0x04 8) (ReadsOnly s)) ∧
    (fits c → (∀ q, refuse c = some q → Answered (Machine.exec i s) s c q (Untouched s)) ∧
      (refuse c = none → Answered (Machine.exec i s) s c (r c) (P c)))

/-- R540: no ticket is free. -/
def noTicket (s : State) : Option Reply :=
  if 256 ≤ (s.dev.mbx.tickets.filter (fun t => decide (t.done = 0))).length then some (replyNo 0x06 0) else none

/-- R543: this head does not hold domain 0. -/
def noArray (s : State) : Option Reply := if s.dev.holdsDom0 = false then some (replyNo 0x05 s.dev.peerSlot) else none

/-- R547: there is no such volume, or this head does not own its group. -/
def noVol (s : State) (v : Nat) : Option Reply :=
  if 32768 ≤ v ∨ (s.dev.vol v).valid = false then some (replyNo 0x04 32)
  else if s.dev.flag (Reg.NVT_ANA_OWN (s.dev.vol v).anaGrp) = false then some (replyNo 0x05 s.dev.peerSlot) else none

/-- R550: there is no such session. -/
def noSess (s : State) (i : Nat) : Option Reply :=
  if (s.dev.sess i).state = .free ∧ (s.dev.sess i).session = 0 then some (replyNo 0x04 32) else none

/-- The answer of a command that goes on after its response, with its ticket (R540). -/
def pending (s : State) (body : List Byte) : Reply := { st := 0x0D, ticket := s.dev.mbx.nextTicket, body := body }

/-- R350: `d'` is `d` with cache command `op` on entry `n` taken: it waits for the next edge, BUSY reads 1 and PROGRESS 0, and nothing but the command's registers
and its place changes. -/
def Dev.MdcTakes (d d' : Dev) (op : MdcOp) (n : Nat) : Prop :=
  d'.mdc = { d.mdc with cmd := some { op := op, entry := n % 16 } } ∧ d'.flag Reg.MDC_CMD_STS_BUSY = true ∧ d'.fld Reg.MDC_CMD_STS_PROGRESS = 0 ∧
    d'.fld Reg.MDC_CMD_OP = op.code ∧ d'.fld Reg.MDC_CMD_ENTRY = n % 16 ∧ d' = { d with mdc := d'.mdc, fields := d'.fields }

/-- R471, R472, R478: `d'` is `d` after it suspects its peer: SUSPECT, CLAIM_OUT, a write hold, no attempt counted yet, and slot 1's wait. Event 1632
tells both stamps. -/
def Dev.Suspects (d d' : Dev) : Prop :=
  d'.fovState = 3 ∧ d'.flag Reg.FOV_STS_CLAIM_OUT = true ∧ d'.flag Reg.FOV_STS_WRITE_HOLD = true ∧ d'.flag Reg.GLB_CAL_STS_PEER_ABSENT = true ∧
    d'.fld Reg.FOV_WIT_STS_ATTEMPTS = 0 ∧ d'.fov.before = d.fovState ∧ d'.fov.alive = false ∧ (d.slotId = 1 → d'.armed tmClaim = true) ∧
    d'.raised = d.raised ++ [⟨1632, eventCode 1632, d.fld Reg.FOV_LAST_HB_BEAT % 2 ^ 32, d.fld Reg.FOV_LAST_PULSE_BEAT % 2 ^ 32, 0, d.beat⟩]

/-- R478: `d'` is what an attempt of a head that suspects its peer makes of `d`, on the three copies just read. A record that the peer has taken fences with cause
1. Else the attempt counts; a majority record is claimed: mode SOLE, every group, both domains, the own VAULT_ONLY bit, OWN_GEN + 1; a newer one that takes
something away fences with cause 3. Without majority a repeat is timed, or cause 2 once WIT_TRIES have been made. -/
def Dev.Claims (d d' : Dev) (copies : List (Option (List Byte))) : Prop :=
  (∀ b w, majority (d.fld Reg.DRV_ARRAY_TAG_TAG) copies = some (b, w) →
    (w.owner = allGroups d.peerSlot → d.fov.unchanged < w.gen → d'.edge = d.edge ++ [.fence 1]) ∧
    (w.owner ≠ allGroups d.peerSlot ∨ w.gen ≤ d.fov.unchanged → d.dbgActive = false →
      d'.fld Reg.FOV_WIT_STS_ATTEMPTS = (d.fld Reg.FOV_WIT_STS_ATTEMPTS + 1) % 2 ^ 8 ∧ d'.fovState = 3 ∧
      (d.fov.unchanged < w.gen → d.givesAway w = true → d'.edge = d.edge ++ [.fence 3]) ∧
      (w.gen ≤ d.fov.unchanged ∨ d.givesAway w = false → d'.fov.why = some .claim ∧ d'.fov.witness = some w ∧
        d'.fov.newRec = { w with mode := 2, owner := allGroups d.slotId, dom := bothDoms d.slotId, vaultOnly := bitPut w.vaultOnly d.slotId true, gen := w.gen + 1 }))) ∧
  (majority (d.fld Reg.DRV_ARRAY_TAG_TAG) copies = none → d.taken = false → d.dbgActive = false →
    d'.fovState = 3 ∧ d'.fov.why = none ∧ d'.fld Reg.FOV_WIT_STS_ATTEMPTS = (d.fld Reg.FOV_WIT_STS_ATTEMPTS + 1) % 2 ^ 8 ∧
    (d'.raised.getLast?).map (fun e => (e.src, e.p0)) = some (1647, 1) ∧
    (d.fld Reg.FOV_CFG_WIT_TRIES ≤ (d.fld Reg.FOV_WIT_STS_ATTEMPTS + 1) % 2 ^ 8 → d'.edge = d.edge ++ [.fence 2]) ∧
    ((d.fld Reg.FOV_WIT_STS_ATTEMPTS + 1) % 2 ^ 8 < d.fld Reg.FOV_CFG_WIT_TRIES → d'.armed tmRepeat = true ∧ d'.edge = d.edge))

/-- R407: `d'` is `d` with the drive of attach point a retired: RETIRED reads 1 and REBUILT 0, its retire timer is off, its strips are on the rebuild
list, and source 22 tells how many they are. -/
def Dev.Retires (d d' : Dev) (a : Nat) : Prop :=
  d'.flag (Reg.DRV_ATT_STS_RETIRED a) = true ∧ d'.flag (Reg.DRV_ATT_STS_REBUILT a) = false ∧ d'.flag Reg.DRV_STS_REBUILDING = true ∧
    d'.armed (tmRetire a) = false ∧
    (∃ l : List (Nat × Nat), d'.drv.rebuilds = d.drv.rebuilds ++ l ∧ d'.raised = d.raised ++ [⟨22, eventCode 22, a, l.length % 2 ^ 32, 0, d.beat⟩]) ∧
    d'.drv.queue = d.drv.queue ∧ d'.mde = d.mde

end Sys2Proof.Machine
end

