-- ==== Sys2Proof/WellFormed.lean ====
section
/-! DEFINITION. Which commands are well formed: every operand inside the range that spec/ gives what it
numbers. The meanings are total on every operand; a command outside these ranges names something that
the FH6400 does not have. -/
namespace Sys2Proof

/-! ### The ranges -/

/-- R12: slices 0 to 7. -/
def isSlice (s : Nat) : Bool := decide (s < 8)
/-- R100, R101: host ports 0 to 15. -/
def isPort (p : Nat) : Bool := decide (p < 16)
/-- R73: contexts 0 to 16,383. -/
def isQp (q : Nat) : Bool := decide (q < 16384)
/-- R75: the mirror contexts, 0 to 63. -/
def isMirrorQp (m : Nat) : Bool := decide (m < 64)
/-- Multipath extension of chapter 3: paths 0 to 3. -/
def isPath (p : Nat) : Bool := decide (p < 4)
/-- R118: a tag's number. -/
def isTag (t : Nat) : Bool := decide (t < 65536)
/-- R104: a volume's number. -/
def isVol (v : Nat) : Bool := decide (v < 32768)
/-- R102: an NVMe command identifier or another 16-bit number. -/
def is16 (n : Nat) : Bool := decide (n < 65536)
/-- A 32-bit number. -/
def is32 (n : Nat) : Bool := decide (n < 2 ^ 32)
/-- A 64-bit number, such as a beat number (R30). -/
def is64 (n : Nat) : Bool := decide (n < 2 ^ 64)
/-- R96: registered regions 0 to 1,023. -/
def isRegion (r : Nat) : Bool := decide (r < 1024)
/-- R148: a directory entry of a slice. -/
def isDir (i : Nat) : Bool := decide (i < 1048576)
/-- R236: key slots 0 to 4,095. -/
def isKeySlot (k : Nat) : Bool := decide (k < 4096)
/-- R386: attach points 0 to 127. -/
def isAtt (a : Nat) : Bool := decide (a < 128)
/-- R386: drive ports 0 to 31. -/
def isDrvPort (p : Nat) : Bool := decide (p < 32)
/-- R382: command slots 0 to 255 of a drive. -/
def isCmdSlot (n : Nat) : Bool := decide (n < 256)
/-- R348: lock entries 0 to 11. -/
def isLock (n : Nat) : Bool := decide (n < 12)
/-- R435: replication sessions 0 to 255. -/
def isSession (i : Nat) : Bool := decide (i < 256)
/-- R437: Crediox lanes 0 to 15. -/
def isLane (l : Nat) : Bool := decide (l < 16)
/-- R539: mailbox channels 0 to 7. -/
def isChannel (c : Nat) : Bool := decide (c < 8)
/-- Chapter 20: counter blocks 0 to 8. -/
def isBlock (b : Nat) : Bool := decide (b < 9)
/-- R584: counters 0 to 7 of a block. -/
def isCounter (n : Nat) : Bool := decide (n < 8)
/-- R64: a VLAN priority, 0 to 7. -/
def isPrio (n : Nat) : Bool := decide (n < 8)
/-- R560: event sources 0 to 2,047; as many MSI-X vectors. -/
def isSource (n : Nat) : Bool := decide (n < 2048)
/-- R500: memory channels: 64 of HBM3E and 12 of DDR5. -/
def isMemCh (c : Nat) : Bool := decide (c < 76)
/-- R632: a SHA-384 digest. -/
def isDigest (bs : List Byte) : Bool := decide (bs.length = 48)
/-- R473: the witness record is a 4 KiB block. -/
def isWitness (bs : List Byte) : Bool := decide (bs.length ≤ 4096)
/-- R473: three witness copies. -/
def areCopies (cs : List (Option (List Byte))) : Bool := decide (cs.length ≤ 3)

/-- The units of R17. -/
def UnitId.wellFormed : UnitId → Bool
  | .slice s => isSlice s
  | .port p => isPort p
  | .qp q => isQp q
  | .mdc => true
  | .att a => isAtt a
  | .lane l => isLane l

/-- The directory window has one register set per slice (R186). -/
def WinId.wellFormed : WinId → Bool
  | .dir s => isSlice s
  | .ctx | .bmp | .mr | .tag | .ns | .red | .keySlot | .layout | .tree | .grainRec | .seg | .hwm
  | .mdcTag | .drvCmd | .drvPreempt | .rep | .memCh => true

/-- R88: a packet's path number has 2 bits, its tag priorities 3 and its DSCP 6. -/
def Packet.wellFormed (p : Packet) : Bool :=
  p.tags.all isPrio && decide (p.dscp < 64) && (match p.mp with
    | some m => isPath m.path && decide (m.pktIdx < 256) && decide (m.pktLast < 256)
    | none => true)

/-- Where a packet arrives: at a host port or on Crediox. -/
def isVia (via : Option Nat) : Bool := match via with
  | some p => isPort p
  | none => true

/-- R72: the context that a datagram names. -/
def CmMsg.wellFormed : CmMsg → Bool
  | .connect q _ a => isQp q && isPort a.port
  | .disconnect q => isQp q

/-- R449: a CTRL record's slot is 0 or 1 and its width 16, 8 or 4 lanes of the 16. -/
def CtrlRec.wellFormed (r : CtrlRec) : Bool :=
  decide (r.slot < 2) && decide (r.lanesOk < 65536) && decide (r.width ≤ 16) && decide (r.first < 16)

/-- Every operand of a command is in range. -/
def Instr.wellFormed : Instr → Bool
  | .registerWrite _ off size w =>
      (decide (size = 4) || decide (size = 8)) && decide (off % size = 0) && decide (w.val.toNat < 2 ^ (8 * size)) && decide (w.race.toNat < 2 ^ (8 * size))
  | .unitEnWrite u _ => u.wellFormed
  | .unitStateEdge u _ _ => u.wellFormed
  | .startDone u => u.wellFormed
  | .startFail u code => u.wellFormed && decide (code < 256)
  | .stopDone u => u.wellFormed
  | .hwStop u code => u.wellFormed && decide (code < 256)
  | .stopLate u => u.wellFormed
  | .winIdxWrite w _ => w.wellFormed
  | .windowCapture w => w.wellFormed
  | .engineSchedule s => isSlice s
  | .admitCommand s => isSlice s
  | .tagFree t => isTag t
  | .syncReq _ hold => decide (hold < 2 ^ 32)
  | .syncResp _ refBeat refCycle _ => is64 refBeat && decide (refCycle < 512)
  | .quadModeWrite _ => true
  | .portLinkTimeout p => isPort p
  | .portLinkLost p => isPort p
  | .frameReceive p _ => isPort p
  | .rocePacketReceive p pkt _ => isPort p && pkt.wellFormed
  | .cnpReceive dest => isVia dest.via && dest.via.isSome
  | .rateLimitRecover q => isQp q
  | .pfcRefresh p _ => isPort p
  | .pfcFrameReceive p prio _ => isPort p && isPrio prio
  | .pfcWatchdog p _ => isPort p
  | .cmDatagram p m => isPort p && m.wellFormed
  | .hostDisconnect q => isQp q
  | .qpCtlWrite _ => true
  | .workItemPost q _ => isQp q
  | .workItemFlushed q => isQp q
  | .waitConditionMet q => isQp q
  | .waitBroken q => isQp q
  | .ackReceive dest path _ credit _ => isVia dest.via && isPath path && is16 credit
  | .ackTimeout q path => isQp q && isPath path
  | .nakReceive dest path _ _ => isVia dest.via && isPath path
  | .rnrNakReceive dest path rn => isVia dest.via && isPath path && decide (rn.timer < 32)
  | .rnrTimerExpire qp => isQp qp.q && isPath qp.path
  | .mpPacketReceive p pkt => isPort p && pkt.wellFormed && pkt.mp.isSome
  | .messageComplete q => isQp q
  | .mrRegister r base _ _ _ => isRegion r && is64 base
  | .mrRevoke r => isRegion r
  | .revocationDone r => isRegion r
  | .flush t => isTag t
  | .write t => isTag t
  | .read t => isTag t
  | .compare t => isTag t
  | .writeZeroes t => isTag t
  | .datasetManagement t => isTag t
  | .verify t => isTag t
  | .copy t => isTag t
  | .reservationRegister t _ _ _ _ => isTag t
  | .reservationReport t => isTag t
  | .reservationAcquire t _ rtype _ _ => isTag t && decide (rtype < 256)
  | .reservationRelease t _ _ => isTag t
  | .reservationEffect vol => isVol vol
  | .connect q cid qid sqsize _ _ cntlid _ kato =>
      isQp q && is16 cid && is16 qid && is16 sqsize && is16 cntlid && is32 kato
  | .propertyGet q cid _ => isQp q && is16 cid
  | .propertySet q cid _ _ => isQp q && is16 cid
  | .authenticationSend q cid _ => isQp q && is16 cid
  | .authenticationReceive q cid _ => isQp q && is16 cid
  | .disconnect q cid => isQp q && is16 cid
  | .nvmeIdentify q cid cns nsid _ => isQp q && is16 cid && decide (cns < 256) && is32 nsid
  | .getLogPage q cid _ _ => isQp q && is16 cid
  | .setFeatures q cid _ _ => isQp q && is16 cid
  | .getFeatures q cid _ => isQp q && is16 cid
  | .asynchronousEventRequest q cid => isQp q && is16 cid
  | .keepAlive q cid => isQp q && is16 cid
  | .abort q cid victimQp victimCid => isQp q && is16 cid && isQp victimQp && is16 victimCid
  | .keepAliveExpire cntlid => is16 cntlid
  | .fwdCmd m rtag slice _ => isMirrorQp m && isTag rtag && isSlice slice
  | .fwdData t _ _ => isTag t
  | .fwdCpl t sct sc => isTag t && decide (sct < 8) && decide (sc < 256)
  | .forwardFail t => isTag t
  | .anaChange grp st => decide (1 ≤ grp ∧ grp ≤ 64) && decide (st < 16)
  | .anaChangeDrained grp => decide (1 ≤ grp ∧ grp ≤ 64)
  | .regionGroupPlace s => isSlice s
  | .placedWrite m _ => isMirrorQp m
  | .rmwMerge s _ => isSlice s
  | .vaultWriteComplete _ _ => true
  | .catchupWrite s idx _ => isSlice s && isDir idx
  | .destageStart s idx => isSlice s && isDir idx
  | .destagePlaced s idx => isSlice s && isDir idx
  | .releasePut s idx => isSlice s && isDir idx
  | .grainRelease _ => true
  | .fingerprintDone s u => isSlice s && decide (u < 16)
  | .fpuFault s u => isSlice s && decide (u < 16)
  | .tephraCheck s idx => isSlice s && isDir idx
  | .manifestLoadDone _ _ => true
  | .loadWaitTimeout s idx => isSlice s && isDir idx
  | .verifyCompareDone s idx _ => isSlice s && isDir idx
  | .tephraBatch _ _ _ entries => entries.all (fun e => decide (e.length = 16))
  | .compressDone s c _ => isSlice s && decide (c < 4)
  | .decompressDone s u => isSlice s && decide (u < 4)
  | .decompressorFault s u => isSlice s && decide (u < 4)
  | .load slot _ => isKeySlot slot
  | .loadCounter slot => isKeySlot slot
  | .zeroise slot => isKeySlot slot
  | .nonceDraw s e => isSlice s && decide (e < 2)
  | .hwmRecordCommit slot _ _ => isKeySlot slot
  | .gcmJobDone s e => isSlice s && decide (e < 2)
  | .gcmParityFault s e => isSlice s && decide (e < 2)
  | .segmentOpen s _ => isSlice s
  | .segmentClose _ => true
  | .parityDone _ => true
  | .segmentWritten _ => true
  | .segmentAbandon _ => true
  | .verifyReq _ strips => decide (strips.length ≤ 32)
  | .verifyReport _ result _ _ => decide (result < 256)
  | .verifyTimeout _ => true
  | .ownVerifyDone _ strips => decide (strips.length ≤ 32)
  | .reconstructionRound s _ => isSlice s
  | .scrub found => found.all (fun l => decide (l.length ≤ 32))
  | .erasureUnitFault s => isSlice s
  | .treeDeleteDone tree => decide (tree < 2 ^ 21)
  | .idPoolRefill s => isSlice s
  | .journalReplay _ _ => true
  | .pageFaultDone _ _ => true
  | .relocCmdWrite _ => true
  | .relocationDone s _ => isSlice s
  | .segmentReclaim _ => true
  | .refcount _ _ => true
  | .refcountAck _ => true
  | .cacheAccess _ wr err _ =>
      (match wr with | some bs => decide (bs.length = 64) | none => true) &&
      (match err with | some e => decide (e < 3) | none => true)
  | .writebackFailed key => decide (key < 16 * 16384)
  | .prefetchLock n => isLock n
  | .lockSet n => isLock n
  | .lockClear n => isLock n
  | .readBufferGrant s => isSlice s
  | .hedgeTimeout _ => true
  | .readReferenceDrop _ => true
  | .drvPortModeWrite p mode => isDrvPort p && decide (mode < 2)
  | .perst p => isDrvPort p
  | .perstRelease p => isDrvPort p
  | .presenceChange a _ => isAtt a
  | .surpriseDown a => isAtt a
  | .driveCommandIssue a => isAtt a
  | .driveCompletion a slot sct sc _ => isAtt a && isCmdSlot slot && decide (sct < 8) && decide (sc < 256)
  | .driveCommandTimeout a slot => isAtt a && isCmdSlot slot
  | .preempt _ => true
  | .witnessCompareAndWrite old new => isWitness old && isWitness new
  | .retireTimerExpire a => isAtt a
  | .retireWrite a _ => isAtt a
  | .rebuildStrip cols => decide (cols.length ≤ 32)
  | .rebuildComplete a => isAtt a
  | .open_ q _ => isQp q
  | .openAck q _ => isQp q
  | .extents q _ _ => isQp q
  | .need q _ _ => isQp q
  | .grains q _ => isQp q
  | .windowAck q _ => isQp q
  | .commit q _ => isQp q
  | .commitAck q _ => isQp q
  | .repAbort q _ => isQp q
  | .repDiffBatch i => isSession i
  | .repTimeout i => isSession i
  | .repRetry i => isSession i
  | .laneStart l fail _ => isLane l && (match fail with | some f => decide (f < 256) | none => true)
  | .flitReceive f => (match f with
      | .bad => true
      | .good typ fseq ackseq _ _ => decide (typ < 16) && decide (fseq < 4096) && decide (ackseq < 4096))
  | .initRecord r => r.wellFormed
  | .nak r => r.wellFormed
  | .width r => r.wellFormed
  | .widthAck r => r.wellFormed
  | .qpPair q _ => isMirrorQp q
  | .qpPairTimeout q => isMirrorQp q
  | .heartbeat _ beat _ own => is64 beat && is64 own
  | .pulseInEdge _ => true
  | .singlePathLost path => decide (path < 2)
  | .witnessRefresh copies => areCopies copies
  | .witnessReadResult copies => areCopies copies
  | .claimWaitExpire copies => areCopies copies
  | .takeoverStepDone _ _ => true
  | .joinReq gen _ => is64 gen
  | .joinAck gen _ => is64 gen
  | .resyncCommit gen _ => is64 gen
  | .resyncAck gen _ => is64 gen
  | .resyncDone gen _ => is64 gen
  | .handoverReq gen mask => is64 gen && is64 mask
  | .handover gen mask _ _ => is64 gen && is64 mask
  | .handoverAck gen mask => is64 gen && is64 mask
  | .handoverAbort gen mask _ => is64 gen && is64 mask
  | .leave gen => is64 gen
  | .handoverStepDone copies => areCopies copies
  | .memoryStart fail _ temps repairs =>
      (match fail with | some x => decide (x.1 < 256) && isMemCh x.2 | none => true) &&
      temps.all (fun x => isMemCh x.1) && repairs.all (fun x => isMemCh x.1)
  | .loadClassUpdate hbm ddr temps =>
      decide (hbm ≤ 100) && decide (ddr ≤ 100) && temps.all (fun x => isMemCh x.1)
  | .calibrationBeat ch => isMemCh ch
  | .retrainDone ch _ => isMemCh ch
  | .memoryReadError _ _ _ bytes => decide (bytes.length ≤ 4096)
  | .patrolScrub _ => true
  | .geyserRestore labels image logs =>
      decide (labels.length ≤ 2) && decide (image.length ≤ 2) && decide (logs.length ≤ 2)
  | .doorbell c _ => isChannel c
  | .requestTake c => isChannel c
  | .stewardRestartDone _ _ => true
  | .managementReset kind => decide (kind < 3)
  | .requestBufferWrite off bytes => decide (off + bytes.length ≤ 65536)
  | .vectorUnmask v => isSource v
  | .invalidCommandOpcode q cid => isQp q && is16 cid
  | .keyOpNotUsed op slot _ => decide (op < 8) && isKeySlot slot
  | .smbusOtherCommand code => decide (code < 256)
  | .eventRaise src p0 p1 p2 beat => isSource src && is32 p0 && is32 p1 && is32 p2 && is64 beat
  | .ringFreeze slot => decide (slot < 8192)
  | .norFailure kind _ => decide (kind < 3)
  | .smbusLastGaspEntry n => decide (n < 8)
  | .counterOverflow b n => isBlock b && isCounter n
  | .counterWrite b n _ _ => isBlock b && isCounter n
  | .sampleDeliver b => isBlock b
  | .bootRomStart value dir => is32 value && is32 dir
  | .bootImageVerify _ => true
  | .phaseChangeDone levels => is16 levels
  | .serviceButtonPress _ => true
  | .cardProbe _ _ => true
  | .updateStaged digest => isDigest digest
  | .updateArm epoch digest => decide (epoch < 2 ^ 41) && isDigest digest
  | .updateArmAck digest => isDigest digest
  | .updateArmNak digest => isDigest digest
  | .updatePhaseDone phase digest => decide (phase < 8) && isDigest digest
  | .updateRevert cause digest => decide (cause < 256) && isDigest digest
  | .updateCommit digest => isDigest digest
  | .handoffRestart _ => true
  | .activationRevert cause part => decide (cause < 256) && decide (part < 2 ^ 32)
  | .jtagInstructionLoad op => decide (op < 256)
  | .alarm cs => cs.all (fun x => decide (x.1 < 4))
  | .alarmCauseClear c => decide (c < 4)
  | .shiftDr tdi _ => decide (tdi.length ≤ 65536)
  | .temperatureWarning temps hbmTemps => temps.all (fun t => decide (-128 ≤ t ∧ t < 128)) && hbmTemps.all (fun t => decide (-128 ≤ t ∧ t < 128))
  | .holdupOkChange _ => true
  | .claimInEdge _ => true
  | .inconclusiveRepeat copies => areCopies copies
  | .epochEdge | .syncReqSend | .syncLockLost | .vaultThroughEnter | .vaultThroughExit
  | .tephraBatchSend | .tephraBatchDeadline | .zeroiseAll | .insertApply | .pageFreeCascade
  | .snapshotShare | .journalRunSpill | .fullCheckpointStart | .fullCheckpointDone | .mdcFlush
  | .mdcFlushInv | .mdcInvalidate | .zeroLine | .mdcCommandDone | .preemptTimeout
  | .nakResendTimeout | .flitAckTimeout | .negotiateTimeout | .resizeTimeout | .lossTimeout
  | .linkWiden | .linkUp | .credioxPacket | .heartbeatSend | .pulseOutToggle | .peerSuspect
  | .witnessAttemptResult | .fenceInAssert | .fenceReleaseExpire | .peerWaitExpire
  | .handoverLimitExpire | .failbackEpochCount | .handoverCtl | .failback | .unfence | .acceptLoss
  | .fovLeave | .vaultLogRewrite | .pwrfail | .geyserFlushDone | .identify | .status | .portAddrs
  | .ticketStatus | .settingGet | .settingSet | .portSet | .lockEntry | .tephraRebuild
  | .subsysCreate | .subsysDelete | .hostSet | .volCreate | .volResize | .volSet | .volDelete
  | .volQuery | .groupHome | .snapCreate | .snapRunTimeout | .snapDelete | .cloneCreate | .snapList
  | .repCreate | .repStart | .repSuspend | .repResume | .repDelete | .keyLoad | .keyZeroise
  | .keyQuery | .kekSet | .witnessRead | .witnessSet | .mbxHandover | .fovAction | .evtRoute
  | .fumRead | .fumFlush | .pmcEvents | .pmcSnapshot | .pmcUser | .stageBegin | .stageData
  | .stageEnd | .activateArm | .activateCancel | .updateStatus | .echo | .stewardRestart
  | .laneMargin | .debugChallenge | .debugOpen | .ticketDone | .watchdogExpire | .firmwareFault
  | .fumaroleRecordWrite | .fumaroleFlush | .fumCtlFlush | .seqLoad | .resume | .norRetry
  | .smbusLastGaspStatus | .smbusTemperature | .smbusPhase | .counterSnapshot | .powerOnReset
  | .startUpStepDone | .service | .ledShift | .discard | .updateCancel | .activationStart
  | .activationPhaseStart | .activationCommit | .challengeExpire | .debugOpenStepDone | .alarmClr
  | .testLogicReset => true

end Sys2Proof
end

