-- ==== Sys2Proof/Certificates/Slice0/Obligations.lean ====
section
/-! DEFINITION. The statements for the provers. Each is a proposition about the commands of the block: what exec answers, and what
the next device holds. `{ s with dev := … }` says in one that the queue stays as it was. -/
open Sys2Proof Sys2Proof.Machine


/-- A step with a command at the front of the queue is exec of that command on the queue's rest (Chapter 1). -/
def Obligations.StepRunsTheFrontCommand : Prop :=
  ∀ (c : Instr) (rest : List Instr) (s : State), s.pending = c :: rest →
    Machine.step s = Machine.exec c { s with pending := rest }

/-- With an empty queue a step answers the next beat (Chapter 2). -/
def Obligations.EmptyQueueLetsABeatPass : Prop :=
  ∀ s : State, s.pending = [] →
    Machine.step s = .next { dev := s.dev.beatEdge.dueTaken, pending := s.dev.beatEdge.dueNow s.dev.beat (releases s.dev.edge) }

/-- Every command in every state answers a next state, and leaves the queue as it was (Chapter 1). -/
def Obligations.EveryCommandAnswersNextAndKeepsTheQueue : Prop :=
  ∀ (c : Instr) (s : State), ∃ d : Dev, Machine.exec c s = .next { s with dev := d }

/-- After power-on reset the registers named here read their stated reset values (R30, R54, R57, R600, R601). -/
def Obligations.ResetLeavesTheStatedValues : Prop :=
  State.reset.pending = [] ∧ State.reset.dev.beat = 0 ∧ State.reset.dev.raised = [] ∧ State.reset.dev.edge = [] ∧
  State.reset.dev.registerRead .bar0 0x000 4 = 0x00B06400 ∧ State.reset.dev.fld Reg.GLB_MODE_MODE = 1 ∧
  (∀ u : UnitId, u.wellFormed = true → State.reset.dev.unit u = {}) ∧
  (∀ s, s < 8 → State.reset.dev.fld (Reg.SLI_ADM_IN_IN s) = 12500 ∧ State.reset.dev.fld (Reg.SLI_ADM_OUT_OUT s) = 12500) ∧
  (∀ t, (State.reset.dev.tag t).state = .free) ∧ State.reset.sound

/-- At a beat edge a unit moves between its states as the table of R19 says (R19). -/
def Obligations.UnitsMoveByTheTableOfR19 : Prop :=
  ∀ (u : UnitId) (ev : SeqEvent) (hw : Option Nat) (s : State), u.wellFormed = true →
    (∀ q, u = .qp q → (s.dev.bind q).closing = false) →
    ∃ d : Dev, Machine.exec (.unitStateEdge u ev hw) s = .next { s with dev := d } ∧
      d.ustate u = unitTable (s.dev.ustate u) (s.dev.unit u).en (s.dev.seqNow u ev) (s.dev.stopNow u hw) (s.dev.startRefused u).isSome

/-- START_DONE, START_FAIL, STOP_DONE, HW_STOP and STOP_LATE of a unit (R18, R19, R21, R681). -/
def Obligations.UnitStartsAndStopsComplete : Prop :=
  ∀ (u : UnitId) (code : Nat) (s : State), u.wellFormed = true → code < 256 →
    (s.dev.ustate u = .starting →
      Machine.exec (.startDone u) s = .next { s with dev := { s.dev with seqPend := tput .none s.dev.seqPend (unitNo u) .done } }) ∧
    (s.dev.ustate u = .starting → unitIsSlice u = false → s.dev.canFail u code = true →
      Machine.exec (.startFail u code) s = .next { s with dev := { s.dev with seqPend := tput .none s.dev.seqPend (unitNo u) (.fail code) } }) ∧
    (unitIsSlice u = true → Machine.exec (.startFail u code) s = .next s) ∧
    (s.dev.ustate u = .stopping ∨ s.dev.ustate u = .pendOn →
      Machine.exec (.stopDone u) s = .next { s with dev := { s.dev with seqPend := tput .none s.dev.seqPend (unitNo u) .done } }) ∧
    (s.dev.ustate u ≠ .off → unitIsSlice u = false → tget 0 s.dev.hwPend (unitNo u) = 0 →
      Machine.exec (.hwStop u code) s = .next { s with dev := { s.dev with hwPend := tput 0 s.dev.hwPend (unitNo u) (code + 1) } }) ∧
    (s.dev.ustate u = .off ∨ unitIsSlice u = true → Machine.exec (.hwStop u code) s = .next s) ∧
    (s.dev.ustate u = .stopping ∨ s.dev.ustate u = .pendOn → s.dev.expired (tmStop u) (s.dev.maxStop u) = true → s.dev.armed (tmLate u) = false →
      ∃ d : Dev, Machine.exec (.stopLate u) s = .next { s with dev := d } ∧ d.unit u = { s.dev.unit u with stopLate := true } ∧
        d.armed (tmLate u) = true ∧ d.cal = s.dev.cal ∧ d.nvt = s.dev.nvt ∧ d.ram = s.dev.ram) ∧
    (s.dev.ustate u = .starting → unitIsSlice u = false → tget 0 s.dev.hwPend (unitNo u) = 0 →
      ∃ d : Dev, Machine.exec (.unitStateEdge u (.fail code) none) s = .next { s with dev := d } ∧
        d.unit u = { s.dev.unit u with en := false, state := .off, startFail := true, failCode := code }) ∧
    (s.dev.ustate u = .on → unitIsSlice u = false → tget .none s.dev.seqPend (unitNo u) = .none →
      ∃ d : Dev, Machine.exec (.unitStateEdge u .none (some code)) s = .next { s with dev := d } ∧
        d.unit u = { s.dev.unit u with en := false, state := .stopping, hwStop := true, failCode := code })

/-- A write of a unit's control register sets EN and leaves STATE and the status flags (R17, R18). -/
def Obligations.UnitEnWriteSetsEnAlone : Prop :=
  ∀ (u : UnitId) (v : Word) (s : State), u.wellFormed = true →
    ∃ d : Dev, Machine.exec (.unitEnWrite u v) s = .next { s with dev := d } ∧
      d.unit u = { s.dev.unit u with en := v.toNat.testBit 0 } ∧
      d = { s.dev with fields := d.fields, xpt := d.xpt }

/-- A write of a window's INDEX asks for a capture, and the capture copies the entry as it stands (R25, R26). -/
def Obligations.WindowsCaptureAnEntry : Prop :=
  ∀ (w : WinId) (v : Word) (s : State),
    (Machine.exec (.winIdxWrite w v) s = .next { s with dev := (s.dev.updWin w
        (fun r => { r with idx := v.toNat % 2 ^ (winPlace w).2.2, req := true, ready := false, bad := false })) }) ∧
    ((s.dev.win w).req = true →
      Machine.exec (.windowCapture w) s = .next { s with dev := (s.dev.updWin w
        (fun r => { r with req := false, ready := true, bad := (s.dev.winEntry w r.idx r.idxHi).isNone, beat := s.dev.beat,
                           data := (s.dev.winEntry w r.idx r.idxHi).getD [] })) })

/-- The epoch edge and the alignment exchange of the two heads (R44, R45, R46, R50, R461). -/
def Obligations.TimeAndAlignmentCommands : Prop :=
  ∀ (s : State),
    (∃ d : Dev, Machine.exec .epochEdge s = .next { s with dev := d } ∧
      d.raised = s.dev.raised ++ [⟨0, eventCode 0, 0, 0, 0, s.dev.beat⟩] ∧ d.fields = s.dev.fields ∧ d.xpt = s.dev.xpt) ∧
    (s.dev.fld Reg.GLB_SYNC_STS_ROLE = roleFollower → s.dev.armed tmSyncReq = false →
      (s.dev.fld Reg.CDX_STS_LINK = 2 ∨ s.dev.fld Reg.CDX_STS_LINK = 3 ∨ s.dev.fld Reg.CDX_STS_LINK = 4) →
      Machine.exec .syncReqSend s = .next { s with dev :=
        (({ s.dev with free := s.dev.free + 1, sync := { s.dev.sync with seq := s.dev.sync.seq + 1, reqBeat := s.dev.beat, reqCycle := s.dev.cycleNow.1, awaiting := true } }.emit
          (.link (.syncReq (s.dev.sync.seq + 1)))).arm tmSyncReq) }) ∧
    (∀ (id : Word) (hold : Nat), s.dev.fld Reg.GLB_SYNC_STS_ROLE = roleReference →
      Machine.exec (.syncReq id hold) s = .next { s with dev :=
        ({ s.dev with free := s.dev.free + 1, sync := { s.dev.sync with measured := true } }.emit (.link (.syncResp id s.dev.beat s.dev.cycleNow.1 hold))) }) ∧
    (∀ (id : Word) (refBeat refCycle hold : Nat), s.dev.fld Reg.GLB_SYNC_STS_ROLE = roleFollower → s.dev.sync.awaiting = true → id = s.dev.sync.seq →
      ∃ d : Dev, Machine.exec (.syncResp id refBeat refCycle hold) s = .next { s with dev := d } ∧
        d.sync.awaiting = false ∧ d.flag Reg.GLB_SYNC_STS_LOCKED = true ∧ d.xpt = s.dev.xpt ∧ d.cal = s.dev.cal) ∧
    (s.dev.fld Reg.GLB_SYNC_STS_ROLE = roleFollower → s.dev.flag Reg.GLB_SYNC_STS_LOCKED = true → s.dev.expired tmSync (2 ^ 13) = true →
      Machine.exec .syncLockLost s = .next { s with dev :=
        ((({ s.dev with sync := { s.dev.sync with slew := 0 } }.setFld Reg.GLB_SYNC_STS_LOCKED 0).disarm tmSync).raise 2 0 0 0) })

/-- A write of HPT_QUAD_MODE takes effect whole, or not at all with source 128 (R58, R59). -/
def Obligations.QuadModesChangeWholeOrNotAtAll : Prop :=
  ∀ (v : Word) (s : State),
    (s.dev.quadWriteOk (quadModes v.toNat) = true →
      ∃ d : Dev, Machine.exec (.quadModeWrite v) s = .next { s with dev := d } ∧ d = { s.dev with fields := d.fields } ∧
        (∀ q, q < 4 → d.fld (Reg.HPT_QUAD_MODE q) = v.toNat / 2 ^ (4 * q) % 8) ∧
        (∀ g : Fld, (∀ q, q < 4 → g.key ≠ (Reg.HPT_QUAD_MODE q).key) → d.fld g = s.dev.fld g)) ∧
    (s.dev.quadWriteOk (quadModes v.toNat) = false →
      Machine.exec (.quadModeWrite v) s = .next { s with dev := s.dev.raise 128 0 0 0 })

/-- Frames for the firmware, frames dropped, and the two ways a port loses its link (R63, R68, R69). -/
def Obligations.PortsTakeFramesAndLoseTheirLink : Prop :=
  ∀ (p : Nat) (s : State),
    (∀ f : Frame, s.dev.isOn (.port p) = true → s.dev.frameFits p f.bytes.length (ethTags 4 12 f.bytes).1.length = true →
      (frameKind f.bytes ∈ [FrameKind.arp, .ndp, .icmpEcho, .lldp] →
        Machine.exec (.frameReceive p f) s = .next { s with dev :=
          ({ s.dev with xpt := { s.dev.xpt with toSteward := s.dev.xpt.toSteward ++ [(p, f.bytes)] } }) }) ∧
      (frameKind f.bytes = .roce → Machine.exec (.frameReceive p f) s = .next s) ∧
      (frameKind f.bytes = .other →
        Machine.exec (.frameReceive p f) s = .next { s with dev := s.dev.bumpSat (Reg.HPT_RX_DROP_COUNT p) 1 })) ∧
    (∀ f : Frame, s.dev.isOn (.port p) = true →
      (s.dev.fld (Reg.HPT_MTU_MAX_FRAME p) < f.bytes.length ∨ 1 < (ethTags 4 12 f.bytes).1.length) →
      Machine.exec (.frameReceive p f) s = .next { s with dev := s.dev.bumpSat (Reg.HPT_RX_DROP_COUNT p) 1 }) ∧
    (s.dev.ustate (.port p) = .starting → s.dev.expired (tmStart (.port p)) (s.dev.fld (Reg.HPT_CFG_LINK_TIMEOUT p)) = true →
      Machine.exec (.portLinkTimeout p) s = .next { s with dev :=
        ({ s.dev with seqPend := tput .none s.dev.seqPend (unitNo (.port p)) (.fail 0x03) }) }) ∧
    (s.dev.isOn (.port p) = true → tget 0 s.dev.hwPend (unitNo (.port p)) = 0 →
      Machine.exec (.portLinkLost p) s = .next { s with dev :=
        ({ s.dev with hwPend := tput 0 s.dev.hwPend (unitNo (.port p)) (0x04 + 1) }) })

/-- Priority flow control, its watchdog, and the rate limit of a queue pair (R64, R65, R66, R67). -/
def Obligations.FlowControlAndRateLimit : Prop :=
  ∀ (s : State),
    (∀ (p : Nat) (pr : Prio), (s.dev.port p).xoff pr = true → s.dev.expired (tmXoff p pr) (s.dev.fld (Reg.HPT_PFC_TIME_REFRESH p)) = true →
      ∃ d : Dev, Machine.exec (.pfcRefresh p pr) s = .next { s with dev := d } ∧
        d.out = s.dev.out ++ [.pfc p pr true (s.dev.fld (Reg.HPT_PFC_TIME_PAUSE_QUANTA p))] ∧ (d.port p).xoff pr = true ∧ d.fields = s.dev.fields) ∧
    (∀ (p prio : Nat) (pr : Prio), s.dev.prioOf p prio = some pr → (s.dev.port p).paused pr = false →
      ∃ d : Dev, Machine.exec (.pfcFrameReceive p prio true) s = .next { s with dev := d } ∧
        (d.port p).paused pr = true ∧ d.armed (tmPause p pr) = true ∧ d.fields = s.dev.fields ∧ d.out = s.dev.out) ∧
    (∀ (p prio : Nat) (pr : Prio), s.dev.prioOf p prio = some pr →
      ∃ d : Dev, Machine.exec (.pfcFrameReceive p prio false) s = .next { s with dev := d } ∧
        (d.port p).paused pr = false ∧ (d.port p).discard pr = false ∧ d.armed (tmPause p pr) = false ∧ d.fields = s.dev.fields ∧
        d.out = s.dev.out ++ ((s.dev.port p).txQ.filter (fun e => decide (e.1 = pr))).map (fun e => Out.roce p (s.dev.portBalls p) e.2)) ∧
    (∀ (p : Nat) (pr : Prio), s.dev.fld (Reg.HPT_PFC_WD_PFC_WD p) ≠ 0 → (s.dev.port p).paused pr = true → (s.dev.port p).discard pr = false →
      s.dev.expired (tmPause p pr) (s.dev.fld (Reg.HPT_PFC_WD_PFC_WD p) + 1) = true →
      ∃ d : Dev, Machine.exec (.pfcWatchdog p pr) s = .next { s with dev := d } ∧
        (d.port p).paused pr = true ∧ (d.port p).discard pr = true ∧ (∀ e ∈ (d.port p).txQ, e.1 ≠ pr) ∧ d.fields = s.dev.fields ∧ d.out = s.dev.out ∧
        d.raised = s.dev.raised ++ [⟨67 + 4 * p, eventCode (67 + 4 * p), 0, 0, 0, s.dev.beat⟩]) ∧
    (∀ (p q : Nat) (dqpn : Psn), s.dev.takesFor (some p) dqpn q = true →
      ∃ d : Dev, Machine.exec (.cnpReceive ⟨some p, dqpn⟩) s = .next { s with dev := d } ∧
        d.ctx q = { s.dev.ctx q with rate := max 1 ((s.dev.ctx q).rate / 2) } ∧ (∀ q', q' ≠ q → d.ctx q' = s.dev.ctx q') ∧ d.armed (tmRate q) = true) ∧
    (∀ q : Nat, s.dev.expired (tmRate q) 1024 = true →
      ∃ d : Dev, Machine.exec (.rateLimitRecover q) s = .next { s with dev := d } ∧
        d.ctx q = { s.dev.ctx q with rate := min 64 (2 * (s.dev.ctx q).rate) } ∧ (∀ q', q' ≠ q → d.ctx q' = s.dev.ctx q'))

/-- What a received RoCEv2 packet does, from its ICRC to its queue pair (R63, R72, R74, R79, R81, R97). -/
def Obligations.PacketsReachTheirQueuePair : Prop :=
  ∀ (p fill : Nat) (pkt : Packet) (s : State), s.dev.isOn (.port p) = true →
    (s.dev.frameFits p pkt.frameLen pkt.tags.length = false →
      Machine.exec (.rocePacketReceive p pkt fill) s = .next { s with dev := s.dev.bumpSat (Reg.HPT_RX_DROP_COUNT p) 1 }) ∧
    (s.dev.frameFits p pkt.frameLen pkt.tags.length = true → s.dev.prioOf p (pktPrio pkt) = none →
      (pkt.icrcOk = false →
        Machine.exec (.rocePacketReceive p pkt fill) s = .next { s with dev := s.dev.bumpSat (Reg.HPT_ICRC_DROP_COUNT p) 1 }) ∧
      (pkt.icrcOk = true → pkt.dqpn = 1 →
        Machine.exec (.rocePacketReceive p pkt fill) s = .next { s with dev :=
          ({ s.dev with xpt := { s.dev.xpt with toSteward := s.dev.xpt.toSteward ++ [(p, pkt.payload)] } }) }) ∧
      (pkt.icrcOk = true → pkt.dqpn ≠ 1 → s.dev.reaches (some p) pkt.dqpn = none →
        Machine.exec (.rocePacketReceive p pkt fill) s = .next { s with dev := s.dev.bumpSat Reg.XPT_DROP_COUNT 1 }) ∧
      (∀ q : Nat, pkt.icrcOk = true → pkt.dqpn ≠ 1 → s.dev.takesFor (some p) pkt.dqpn q = true → (s.dev.ctx q).mp = false → (s.dev.ctx q).receives = true →
        let d0 := s.dev.cond pkt.ecnCe (fun d => d.cnpSend q ((pkt.mp.map (·.path)).getD 0))
        (pkt.op ≠ .readResp → pkt.psn ≠ (s.dev.ctx q).rqEpsn → psnBefore (s.dev.ctx q).rqEpsn pkt.psn = true → (s.dev.work q).nakSent = false →
          Machine.exec (.rocePacketReceive p pkt fill) s = .next { s with dev :=
            ((d0.updWork q (fun x => { x with nakSent := true })).transmit q 0 (.nak q 0 (s.dev.ctx q).rqEpsn .seqErr)) }) ∧
        (pkt.op ≠ .readResp → pkt.op ≠ .readReq → pkt.psn ≠ (s.dev.ctx q).rqEpsn → psnBefore (s.dev.ctx q).rqEpsn pkt.psn = false → s.dev.putPlacing q = false →
          Machine.exec (.rocePacketReceive p pkt fill) s = .next { s with dev := d0.sendAck q 0 pkt.psn }) ∧
        (∀ r : Reth, pkt.psn = (s.dev.ctx q).rqEpsn → pkt.op = .write → pkt.reth = some r → (s.dev.ctx q).cls ≠ 1 →
          (s.dev.keyCheck (s.dev.ctx q).pd r.rkey r.va pkt.payload.length = false →
            Machine.exec (.rocePacketReceive p pkt fill) s = .next { s with dev :=
              ((d0.transmit q 0 (.nak q 0 pkt.psn .remoteAccess)).stopUnit (.qp q) 0x05) }) ∧
          (s.dev.keyCheck (s.dev.ctx q).pd r.rkey r.va pkt.payload.length = true →
            ∃ d : Dev, Machine.exec (.rocePacketReceive p pkt fill) s = .next { s with dev := d } ∧ (d.ctx q).rqEpsn = pkt.psn + 1 ∧
              d.xpt.placing.map (fun x => (x.mr, x.addr, x.bytes)) =
                s.dev.xpt.placing.map (fun x => (x.mr, x.addr, x.bytes)) ++ [(rkeyIndex r.rkey, r.va, pkt.payload)] ∧
              (d.region (rkeyIndex r.rkey)).inflight = (s.dev.region (rkeyIndex r.rkey)).inflight + 1 ∧ d.ram = s.dev.ram ∧ d.hwPend = s.dev.hwPend)) ∧
        (pkt.psn = (s.dev.ctx q).rqEpsn → pkt.op = .send → pkt.pos = .only → (s.dev.ctx q).cls = 0 → (s.dev.ctx q).noSlot = false → pkt.payload.length ≤ recvMax →
          ((s.dev.bind q).bound = false ∨ (s.dev.bind q).qid = 0) →
          ∃ d : Dev, Machine.exec (.rocePacketReceive p pkt fill) s = .next { s with dev := d } ∧ (d.ctx q).rqEpsn = pkt.psn + 1 ∧
            (d.ctx q).msn = (s.dev.ctx q).msn + 1 ∧ (d.ctx q).rqFree = (s.dev.ctx q).rqFree - 1 ∧ d.nvt.adminWait = s.dev.nvt.adminWait ++ [q] ∧
            d.hwPend = s.dev.hwPend ∧ d.ram = s.dev.ram)))

/-- A connection takes an OFF context and enables it; its end clears EN (R72, R73, R75, R99, R682, R683). -/
def Obligations.ConnectionsBeginAndEnd : Prop :=
  ∀ (s : State),
    (∀ (p q : Nat) (a : ConnAttrs), s.dev.isOn (.port p) = true → 64 ≤ q → q < 16384 → s.dev.ustate (.qp q) = .off →
      (s.dev.ctx q).attrValid = false →
      ∃ d : Dev, Machine.exec (.cmDatagram p (.connect q false a)) s = .next { s with dev := d } ∧
        (d.ctx q).attrValid = true ∧ (d.ctx q).unit.en = true ∧ (d.ctx q).unit.state = .off ∧ (d.ctx q).cls = 0 ∧
        (d.ctx q).destQpn = a.destQpn ∧ (d.ctx q).port = p ∧ (d.work q).startSqPsn = a.sqPsn ∧ (d.work q).startRqPsn = a.rqPsn ∧
        d.fields = s.dev.fields ∧ d.raised = s.dev.raised ∧
        (a.active = false → ∃ b, d.out = s.dev.out ++ [.cmReply p (BitVec.ofNat 24 ((s.dev.ctx q).incarn * 2 ^ 14 + q)) b])) ∧
    (∀ (p q : Nat) (rep : Bool) (a : ConnAttrs), s.dev.isOn (.port p) = true →
      (q < 64 ∨ 16384 ≤ q ∨ s.dev.ustate (.qp q) ≠ .off ∨ (s.dev.ctx q).attrValid = true) →
      ∃ r : Nat, Machine.exec (.cmDatagram p (.connect q rep a)) s = .next { s with dev := { s.dev with out := s.dev.out ++ [.cmReject p r] } }) ∧
    (∀ (p q : Nat), s.dev.isOn (.port p) = true →
      Machine.exec (.cmDatagram p (.disconnect q)) s = Machine.exec (.hostDisconnect q) s) ∧
    (∀ q : Nat, 64 ≤ q → s.dev.ustate (.qp q) ≠ .off → (s.dev.bind q).bound = false →
      ∃ d : Dev, Machine.exec (.hostDisconnect q) s = .next { s with dev := d } ∧
        d.ctx q = { s.dev.ctx q with unit := { (s.dev.ctx q).unit with en := false } } ∧ (d.bind q).closing = true ∧
        (∀ q', q' ≠ q → d.ctx q' = s.dev.ctx q' ∧ d.bind q' = s.dev.bind q')) ∧
    (∀ v : Word,
      ∃ d : Dev, Machine.exec (.qpCtlWrite v) s = .next { s with dev := d } ∧
        (d.ctx (v.toNat % 2 ^ 14)).unit = { (s.dev.ctx (v.toNat % 2 ^ 14)).unit with en := v.toNat.testBit 16 } ∧
        (∀ q', q' ≠ v.toNat % 2 ^ 14 → d.ctx q' = s.dev.ctx q'))

/-- Work items join the send queue or come back flushed, and wait for their condition (R76, R85, R86). -/
def Obligations.WorkItemsAreQueuedFlushedAndWait : Prop :=
  ∀ (q : Nat) (w h : WorkItem) (t : List WorkItem) (m : Nat) (n : Word) (s : State), 64 ≤ q →
    (s.dev.accepts q = true → (s.dev.work q).sendQ = h :: t → h.wait = some (m, n) →
      Machine.exec (.workItemPost q w) s = .next { s with dev := (s.dev.updWork q (fun x => { x with sendQ := h :: t ++ [w] })) }) ∧
    (s.dev.accepts q = false →
      Machine.exec (.workItemPost q w) s = .next { s with dev := (s.dev.updWork q (fun x => { x with flushed := x.flushed ++ [w] })) }) ∧
    ((s.dev.work q).sendQ = h :: t → h.wait = some (m, n) → waitHolds (s.dev.ctx m).cc n = true →
      Machine.exec (.waitConditionMet q) s = .next { s with dev :=
        ((s.dev.updWork q (fun x => { x with sendQ := { h with wait := none } :: t })).pump q (t.length + 1)) }) ∧
    ((s.dev.work q).sendQ = h :: t → h.wait = some (m, n) → waitHolds (s.dev.ctx m).cc n = false → s.dev.isOn (.qp m) = false →
      (∀ k, h.prod ≠ .completion k) → (∀ k, h.prod ≠ .fwd k) →
      Machine.exec (.waitBroken q) s = .next { s with dev := ((s.dev.updWork q (fun x => { x with sendQ := t })).pump q (t.length + 1)) }) ∧
    (∀ k : Nat, (s.dev.work q).sendQ = h :: t → h.wait = some (m, n) → waitHolds (s.dev.ctx m).cc n = false → s.dev.isOn (.qp m) = false →
      h.prod = .completion k ∨ h.prod = .fwd k →
      Machine.exec (.waitBroken q) s = .next { s with dev :=
        (((s.dev.updWork q (fun x => { x with sendQ := t })).completionBroken k).pump q (t.length + 1)) }) ∧
    ((s.dev.ctx q).xstate = .error → (s.dev.work q).sendQ = [h] → (s.dev.work q).sent = [] → (s.dev.work q).flushed = [] → h.prod = .steward →
      ∃ d : Dev, Machine.exec (.workItemFlushed q) s = .next { s with dev := d } ∧ (d.work q).sendQ = [] ∧ (d.work q).sent = [] ∧
        (d.work q).flushed = [] ∧ d.nvt = s.dev.nvt ∧ d.cal = s.dev.cal ∧ d.fields = s.dev.fields)

/-- Acknowledgements, retries, receiver-not-ready and the codes of fatal NAKs (R78, R80, R83, R84). -/
def Obligations.AcknowledgementsAndRetries : Prop :=
  ∀ (q p : Nat) (s : State),
    (∀ (via : Option Nat) (dqpn psn : Psn) (credit : Nat) (msgAck : BitVec 16), s.dev.takesFor via dqpn q = true → (s.dev.ctx q).mp = false → (s.dev.work q).sendQ = [] →
      (s.dev.ackUpTo q p psn = s.dev →
        Machine.exec (.ackReceive ⟨via, dqpn⟩ p psn credit msgAck) s = .next { s with dev := s.dev.takeCredit q credit }) ∧
      (∀ m : SentMsg, 64 ≤ q → (s.dev.work q).sent = [m] → m.path = p → m.acked = false → workIsSend m.item.op = true → m.item.prod = .steward →
        m.last = psn → psnBefore psn m.first = false → psnBefore psn (s.dev.ctx q).sqPsn = true →
        ∃ d : Dev, Machine.exec (.ackReceive ⟨via, dqpn⟩ p psn credit msgAck) s = .next { s with dev := d } ∧ (d.work q).sent = [] ∧
          (d.ctx q).cc = (s.dev.ctx q).cc + 1 ∧ (d.ctx q).creditTx = credit ∧ d.armed (tmAck q p) = false ∧ d.out = s.dev.out ∧ d.nvt = s.dev.nvt)) ∧
    ((s.dev.ctx q).ackTo ≠ 0 → s.dev.expired (tmAck q p) (ackTimeoutBeats (s.dev.ctx q).ackTo) = true → (s.dev.unacked q p).isEmpty = false →
      ((s.dev.ctx q).retry p ≠ 0 →
        Machine.exec (.ackTimeout q p) s = .next { s with dev :=
          (((s.dev.updCtx q (fun c => c.setRetry p ((s.dev.ctx q).retry p - 1))).resend q p).arm (tmAck q p)) }) ∧
      ((s.dev.ctx q).retry p = 0 → (s.dev.ctx q).mp = false → Machine.exec (.ackTimeout q p) s = .next { s with dev := s.dev.stopUnit (.qp q) 0x03 }) ∧
      ((s.dev.ctx q).retry p = 0 → (s.dev.ctx q).mp = true → Machine.exec (.ackTimeout q p) s = .next { s with dev := s.dev.pathDown q p })) ∧
    (∀ (via : Option Nat) (dqpn psn : Psn), s.dev.takesFor via dqpn q = true →
      let d0 := s.dev.ackUpTo q p (psn - 1)
      ((d0.unacked q p).isEmpty = false → Machine.exec (.nakReceive ⟨via, dqpn⟩ p psn .seqErr) s = .next { s with dev := d0.retryPath q p }) ∧
      Machine.exec (.nakReceive ⟨via, dqpn⟩ p psn .invalidReq) s = .next { s with dev := d0.stopUnit (.qp q) 0x06 } ∧
      Machine.exec (.nakReceive ⟨via, dqpn⟩ p psn .remoteAccess) s = .next { s with dev := (d0.transferFailed q p).stopUnit (.qp q) 0x05 } ∧
      Machine.exec (.nakReceive ⟨via, dqpn⟩ p psn .remoteOp) s = .next { s with dev := (d0.transferFailed q p).stopUnit (.qp q) 0x07 } ∧
      (∀ timer : Nat, (d0.unacked q p).isEmpty = false →
        ((d0.ctx q).rnrRetry ≠ 7 → (d0.ctx q).rnrLeft = 0 →
          Machine.exec (.rnrNakReceive ⟨via, dqpn⟩ p ⟨psn, timer⟩) s = .next { s with dev := d0.stopUnit (.qp q) 0x04 }) ∧
        (((d0.ctx q).rnrRetry = 7 ∨ (d0.ctx q).rnrLeft ≠ 0) →
          ∃ d : Dev, Machine.exec (.rnrNakReceive ⟨via, dqpn⟩ p ⟨psn, timer⟩) s = .next { s with dev := d } ∧
            d.ctx q = { d0.ctx q with rnrLeft := if (d0.ctx q).rnrRetry = 7 then (d0.ctx q).rnrLeft else (d0.ctx q).rnrLeft - 1 } ∧
            tget 0 (d.work q).rnrWait p = rnrBeats timer ∧ d.armed (tmRnr q p) = true ∧ d.out = d0.out))) ∧
    (s.dev.expired (tmRnr q p) (tget 0 (s.dev.work q).rnrWait p) = true →
      let d1 := (((s.dev.updWork q (fun w => { w with rnrWait := tput 0 w.rnrWait p 0 })).disarm (tmRnr q p)).resend q p).arm (tmAck q p)
      Machine.exec (.rnrTimerExpire ⟨q, p⟩) s = .next { s with dev := d1.pump q ((d1.work q).sendQ.length + 1) })

/-- A multipath packet sets its bit once, and whole messages are released in order (R79, R91, R92, R93, R94). -/
def Obligations.MultipathMessagesAreReleasedInOrder : Prop :=
  ∀ (q : Nat) (s : State),
    (∀ (p : Nat) (pkt : Packet) (m : Mpeth), s.dev.takesFor (some p) pkt.dqpn q = true → pkt.mp = some m → (s.dev.ctx q).receives = true → (s.dev.ctx q).mp = true →
      (pkt.psn ≠ ((s.dev.ctx q).path m.path).rxEpsn → psnBefore ((s.dev.ctx q).path m.path).rxEpsn pkt.psn = true →
        ((s.dev.ctx q).path m.path).nakSent = false →
        Machine.exec (.mpPacketReceive p pkt) s = .next { s with dev :=
          ((s.dev.updCtx q (fun c => c.setPath m.path { c.path m.path with nakSent := true })).transmit q m.path
            (.nak q m.path ((s.dev.ctx q).path m.path).rxEpsn .seqErr)) }) ∧
      (∀ i : Nat, m.path < 4 → pkt.psn = ((s.dev.ctx q).path m.path).rxEpsn → pkt.op = .send → m.pktIdx ≠ 0 → s.dev.mpInvalid q m pkt = false →
        (s.dev.ctx q).inWindow (s.dev.work q).msgWindow m.msgId = true → ((s.dev.ctx q).cls = 0 → m.msgLen ≤ recvMax) →
        s.dev.bitmapOf q m.msgId false = some i → s.dev.bitmapOf q (s.dev.ctx q).msgRxBase false = none →
        (s.dev.bitmap i).has m.pktIdx = false → (s.dev.bitmap i).op = .send →
        ∃ d : Dev, Machine.exec (.mpPacketReceive p pkt) s = .next { s with dev := d } ∧
          (d.bitmap i).bits = (s.dev.bitmap i).bits + 2 ^ m.pktIdx ∧ (d.bitmap i).buf = (s.dev.bitmap i).buf ++ [(m.offset, pkt.payload)] ∧
          ((d.ctx q).path m.path).rxEpsn = pkt.psn + 1 ∧ (d.ctx q).msgRxBase = (s.dev.ctx q).msgRxBase ∧ d.hwPend = s.dev.hwPend)) ∧
    (s.dev.bitmapOf q (s.dev.ctx q).msgRxBase false = none → Machine.exec (.messageComplete q) s = .next s) ∧
    (∀ i : Nat, s.dev.bitmapOf q (s.dev.ctx q).msgRxBase false = some i → s.dev.xpt.bitmaps = [(i, s.dev.bitmap i)] →
      (s.dev.bitmap i).bits = 2 ^ ((s.dev.bitmap i).pktLast + 1) - 1 → (s.dev.bitmap i).op = .write → (s.dev.bitmap i).imm = none →
      ∃ d : Dev, Machine.exec (.messageComplete q) s = .next { s with dev := d } ∧ d.xpt.bitmaps = [] ∧
        (d.ctx q).msgRxBase = (s.dev.ctx q).msgRxBase + 1 ∧ (d.ctx q).msgRxInfl = (s.dev.ctx q).msgRxInfl - 1 ∧ (d.ctx q).msn = (s.dev.ctx q).msn + 1 ∧
        d.xpt.delivered = s.dev.xpt.delivered ∧ d.fields = s.dev.fields)

/-- A region's life: registered with a new TAG, revoked from the next edge, freed when no packet is placing (R96, R97, R98). -/
def Obligations.RegionsAreRegisteredAndRevoked : Prop :=
  ∀ (r : Nat) (s : State),
    (∀ (base len pd : Nat) (w : Bool), (s.dev.region r).state = .free →
      ∃ d : Dev, Machine.exec (.mrRegister r base len pd w) s = .next { s with dev := d } ∧
        d.region r = { s.dev.region r with state := .valid, write := w, tag := ((s.dev.region r).tag + 1) % 256, pd := pd % 4096, base := base, len := len } ∧
        (∀ r', r' ≠ r → d.region r' = s.dev.region r') ∧
        (∀ (k : Word) (va n p : Nat), rkeyIndex k = r → rkeyTag k = (s.dev.region r).tag → (s.dev.region r).tag < 256 → d.keyCheck p k va n = false)) ∧
    ((s.dev.region r).state = .valid →
      Machine.exec (.mrRevoke r) s = .next { s with dev := { s.dev with edge := s.dev.edge ++ [.revoke r] } }) ∧
    ((s.dev.region r).state = .revoking → (s.dev.region r).inflight = 0 →
      ∃ d : Dev, Machine.exec (.revocationDone r) s = .next { s with dev := d } ∧ d.region r = { tag := (s.dev.region r).tag } ∧
        (∀ r', r' ≠ r → d.region r' = s.dev.region r') ∧ d.raised = s.dev.raised ++ [⟨134, eventCode 134, r % 2 ^ 32, 0, 0, s.dev.beat⟩])

/-- Admission at a beat edge, in order, and the freeing of tags (R33, R35, R36, R37, R118, R120). -/
def Obligations.CommandsAreAdmittedInOrder : Prop :=
  ∀ (sl : Nat) (s : State),
    (∀ c : HostCmd, s.dev.isOn (.slice sl) = true → (s.dev.slice sl).waiting = [c] →
      (∀ x, (s.dev.refill sl).admitNext sl c = some x →
        ∃ d : Dev, Machine.exec (.admitCommand sl) s = .next { s with dev := d } ∧ (d.slice sl).waiting = [] ∧
          (d.tag x.1).state ≠ .free ∧ d.flag (Reg.SLI_ADM_STS_HELD sl) = false) ∧
      ((s.dev.refill sl).admitNext sl c = none →
        ∃ d : Dev, Machine.exec (.admitCommand sl) s = .next { s with dev := d } ∧ (d.slice sl).waiting = [c] ∧
          d.flag (Reg.SLI_ADM_STS_HELD sl) = true ∧
          d = { s.dev with fields := d.fields, slices := d.slices, raised := d.raised, seen := d.seen }) ∧
      ((s.dev.refill sl).affords sl ((s.dev.refill sl).charge sl c).1 ((s.dev.refill sl).charge sl c).2 = false →
        (s.dev.refill sl).admitNext sl c = none)) ∧
    (s.dev.isOn (.slice sl) = false →
      ∃ d : Dev, Machine.exec (.admitCommand sl) s = .next { s with dev := d } ∧ d = { s.dev with fields := d.fields } ∧
        d.flag (Reg.SLI_ADM_STS_HELD sl) = !(s.dev.slice sl).waiting.isEmpty ∧
        d.fld (Reg.SLI_ADM_IN_IN sl) = (s.dev.refill sl).fld (Reg.SLI_ADM_IN_IN sl) ∧ d.fld (Reg.SLI_ADM_OUT_OUT sl) = (s.dev.refill sl).fld (Reg.SLI_ADM_OUT_OUT sl)) ∧
    (∀ t : Nat, (s.dev.tag t).leaveAt = true →
      ∃ d : Dev, Machine.exec (.tagFree t) s = .next { s with dev := d } ∧ (d.tag t).state = .free ∧
        (∀ t', t' ≠ t → d.tag t' = s.dev.tag t') ∧ d = { s.dev with nvt := d.nvt }) ∧
    (s.dev.ustate (.slice sl) = .off ∨ s.dev.ustate (.slice sl) = .starting →
      Machine.exec (.engineSchedule sl) s = .next s) ∧
    (s.dev.isOn (.slice sl) = true ∨ s.dev.ustate (.slice sl) = .stopping ∨ s.dev.ustate (.slice sl) = .pendOn →
      let d0 := s.dev.takeWork sl
      let after := schedule (d0.mayRun sl) (d0.slice sl).jobs
      (∀ j ∈ after, j.left ≠ 0) →
      ∃ d : Dev, Machine.exec (.engineSchedule sl) s = .next { s with dev := d } ∧ (d.slice sl).jobs = after ∧
        d = { d0 with fields := d.fields, slices := d.slices, raised := d.raised, pmc := d.pmc }) ∧
    (∀ (j : Job), s.dev.isOn (.slice sl) = true → (s.dev.takeWork sl).mayRun sl j = true → ((s.dev.takeWork sl).slice sl).jobs = [j] → j.run.left ≠ 0 →
      ∃ d : Dev, Machine.exec (.engineSchedule sl) s = .next { s with dev := d } ∧ (d.slice sl).jobs = [j.run])

/-- The fabrics and admin commands that the firmware answers at once (R103, R112, R113). -/
def Obligations.HostCommandsOnTheStewardRun : Prop :=
  ∀ (q cid : Nat) (s : State),
    Machine.exec (.propertyGet q cid .cc) s = .next { s with dev := s.dev.adminReply q cid (s.dev.ctrl (s.dev.ctrlOf q)).cc.toNat ⟨0, 0⟩ } ∧
    Machine.exec (.propertyGet q cid .csts) s = .next { s with dev := s.dev.adminReply q cid (s.dev.ctrl (s.dev.ctrlOf q)).csts.toNat ⟨0, 0⟩ } ∧
    Machine.exec (.propertyGet q cid .vs) s = .next { s with dev := s.dev.adminReply q cid 0x20000 ⟨0, 0⟩ } ∧
    (∀ v : DWord, v.toNat / 2 ^ 14 % 4 = 0 →
      Machine.exec (.propertySet q cid .cc v) s = .next { s with dev := ((s.dev.updCtrl (s.dev.ctrlOf q) (fun c => { c with
        cc := BitVec.ofNat 32 v.toNat, csts := BitVec.ofNat 32 (v.toNat % 2) })).adminReply q cid 0 ⟨0, 0⟩) }) ∧
    (∀ m : List Byte, ∃ right : Bool, Machine.exec (.authenticationSend q cid m) s = .next { s with dev :=
      (({ s.dev with free := s.dev.free + 1 }.updBind q (fun b => b.authTake m right)).adminReply q cid 0 ⟨0, 0⟩) }) ∧
    (∀ v : Word, Machine.exec (.setFeatures q cid .asyncConfig v) s = .next { s with dev :=
      ((s.dev.updCtrl (s.dev.ctrlOf q) (fun c => { c with asyncConfig := v })).adminReply q cid 0 ⟨0, 0⟩) }) ∧
    Machine.exec (.getFeatures q cid .asyncConfig) s = .next { s with dev :=
      (s.dev.adminReply q cid (s.dev.ctrl (s.dev.ctrlOf q)).asyncConfig.toNat ⟨0, 0⟩) } ∧
    Machine.exec (.keepAlive q cid) s = .next { s with dev :=
      ((s.dev.updCtrl (s.dev.ctrlOf q) (fun c => { c with lastCmdBeat := s.dev.beat })).adminReply q cid 0 ⟨0, 0⟩) } ∧
    Machine.exec (.invalidCommandOpcode q cid) s = .next { s with dev := s.dev.adminReply q cid 0 ⟨0, 1⟩ } ∧
    ((s.dev.ctrl (s.dev.ctrlOf q)).events = [] → (s.dev.ctrl (s.dev.ctrlOf q)).aers.length < 8 →
      ∃ d : Dev, Machine.exec (.asynchronousEventRequest q cid) s = .next { s with dev := d } ∧
        (d.ctrl (s.dev.ctrlOf q)).aers = (s.dev.ctrl (s.dev.ctrlOf q)).aers ++ [BitVec.ofNat 16 cid] ∧ d.out = s.dev.out) ∧
    ((s.dev.ctrl (s.dev.ctrlOf q)).events = [] → 8 ≤ (s.dev.ctrl (s.dev.ctrlOf q)).aers.length →
      Machine.exec (.asynchronousEventRequest q cid) s = .next { s with dev := s.dev.adminReply q cid 0 ⟨1, 5⟩ })

/-- Connect makes a controller; Identify and log pages go to the host's buffer; Disconnect ends the queue (R102, R103, R112, R126, R547). -/
def Obligations.ConnectIdentifyAndLogs : Prop :=
  ∀ (q cid : Nat) (s : State),
    (∀ (qid sqsize sub host cntlid kato : Nat) (nf : Bool), (sqsize = 0 ∨ 1023 < sqsize) →
      Machine.exec (.connect q cid qid sqsize sub host cntlid nf kato) s = .next { s with dev := s.dev.adminReply q cid 0 stBusy }) ∧
    (∀ (sqsize sub host h cntlid kato : Nat) (nf : Bool), 1 ≤ sqsize → sqsize ≤ 1023 → host ≠ 0 → sub < 256 →
      s.dev.hostIndex host = some (h, s.dev) → s.dev.hostAllowed sub h = true →
      (s.dev.ctrl s.dev.cntlidBase).valid = false →
      Machine.exec (.connect q cid 0 sqsize sub host cntlid nf kato) s = .next { s with dev :=
        ((((s.dev.updCtrl s.dev.cntlidBase (fun _ => { valid := true, subsys := sub, host := h, adminQp := q, kato := kato, lastCmdBeat := s.dev.beat })).updBind q (fun b => { b with
            cntlid := s.dev.cntlidBase, qid := 0, bound := true, noFlow := nf, sqSize := sqsize + 1, sqhd := 0 })).updCtx q
            (fun x => { x with rqSlots := sqsize + 1, rqFree := min x.rqFree (sqsize + 1) })).adminReply q cid s.dev.cntlidBase ⟨0, 0⟩) }) ∧
    (∀ buf : KeyedSgl,
      Machine.exec (.getLogPage q cid .ana buf) s = .next { s with dev :=
        (s.dev.adminData q cid buf (s.dev.anaLog (s.dev.ctrl (s.dev.ctrlOf q)).subsys)) } ∧
      Machine.exec (.getLogPage q cid .changedNs buf) s = .next { s with dev :=
        ((s.dev.updCtrl (s.dev.ctrlOf q) (fun x => { x with changedNs := [] })).adminData q cid buf
          (padTo 4096 ((s.dev.ctrl (s.dev.ctrlOf q)).changedNs.flatMap (leBytes 4)))) } ∧
      Machine.exec (.getLogPage q cid .error buf) s = .next { s with dev :=
        (s.dev.adminData q cid buf ((s.dev.ctrl (s.dev.ctrlOf q)).errLog.flatMap errBytes)) } ∧
      Machine.exec (.nvmeIdentify q cid 3 0 buf) s = .next { s with dev := s.dev.adminReply q cid 0 ⟨0, 2⟩ } ∧
      (∀ nsid : Nat, ∃ b : List Byte, b.length = 4096 ∧
        Machine.exec (.nvmeIdentify q cid 1 nsid buf) s = .next { s with dev :=
          ({ s.dev with free := s.dev.free + 4096 }.adminData q cid buf (overlay b (s.dev.identifyCtrl (s.dev.ctrlOf q) b))) }) ∧
      (∃ (b : List Byte) (n : Nat), b.length = n ∧
        Machine.exec (.authenticationReceive q cid buf) s = .next { s with dev :=
          (({ s.dev with free := s.dev.free + n }.updBind q (fun x => { x with auth := x.authGiven })).adminData q cid buf ((s.dev.bind q).authMsg b)) })) ∧
    Machine.exec (.disconnect q cid) s = .next { s with dev := (s.dev.adminReply q cid 0 ⟨0, 0⟩).hostDisconnect q }

/-- Abort ends only what waits for admission; an expired keep-alive ends the controller's queues (R122). -/
def Obligations.AbortsAndKeepAlive : Prop :=
  ∀ (q cid : Nat) (s : State),
    let waits (vq vc : Nat) (c : HostCmd) : Bool := decide (c.qp = vq) && decide (c.cid = BitVec.ofNat 16 vc) && !c.fwdIn
    (∀ vq vc : Nat, (∀ c ∈ (s.dev.slice (home vq)).waiting, waits vq vc c = false) →
      Machine.exec (.abort q cid vq vc) s = .next { s with dev := s.dev.adminReply q cid 1 ⟨0, 0⟩ }) ∧
    (∀ (vq vc : Nat) (before after : List HostCmd) (c : HostCmd), (s.dev.slice (home vq)).waiting = before ++ c :: after →
      (∀ x ∈ before, waits vq vc x = false) → waits vq vc c = true →
      ∃ d1 : Dev, Machine.exec (.abort q cid vq vc) s = .next { s with dev := (d1.raise 324 vq vc 0).adminReply q cid 0 ⟨0, 0⟩ } ∧
        ∃ d2 : Dev, d1 = (d2.freeSlot vq).post vq ⟨.send, cqeBytes 0 (d2.sqhd vq) c.cid ⟨0, 0x07⟩, .steward, none⟩ ∧
          (d2.slice (home vq)).waiting = before ++ after ∧ d2.fld (Reg.SLI_ADM_STS_WAITING (home vq)) = min (before ++ after).length 65535 ∧
          ∀ r ∈ d2.cal.runs, r.first ∉ c.pages) ∧
    (∀ c : Nat, (s.dev.ctrl c).valid = true → (s.dev.ctrl c).kato ≠ 0 → 8000 * (s.dev.ctrl c).kato ≤ s.dev.since (s.dev.ctrl c).lastCmdBeat →
      Machine.exec (.keepAliveExpire c) s = .next { s with dev := (s.dev.raise 325 c 0 0).hostDisconnect (s.dev.ctrl c).adminQp }) ∧
    (∀ c : Nat, s.dev.since (s.dev.ctrl c).lastCmdBeat < 8000 * (s.dev.ctrl c).kato →
      Machine.exec (.keepAliveExpire c) s = .next s)

/-- Reservation commands journal the change, and it takes effect after (R132, R134, R135, R136). -/
def Obligations.ReservationsChangeAfterTheirRecord : Prop :=
  ∀ (t : Nat) (c : HostCmd) (s : State),
    let r := (s.dev.vol (s.dev.tag t).vol).resvLast
    (∀ (cur new : DWord) (p : Option Bool), s.dev.runs t opResvRegister = some c →
      keyOfHost r c.hostIdx = none → r.regs.length < 64 →
      Machine.exec (.reservationRegister t .register cur new p) s = .next { s with dev := (s.dev.resvChange t
        { new := { r with regs := r.regs ++ [⟨c.hostIdx, new⟩], ptpl := p.getD r.ptpl, gen := r.gen + 1 }, tag := some t, host := c.hostIdx, why := .quiet }) }) ∧
    (∀ (ty : Nat) (cur pre : DWord), s.dev.runs t opResvAcquire = some c → 1 ≤ ty → ty ≤ 6 →
      keyOfHost r c.hostIdx = some cur → r.rtype = 0 →
      Machine.exec (.reservationAcquire t .acquire ty cur pre) s = .next { s with dev := (s.dev.resvChange t
        { new := { r with rtype := ty, holder := c.hostIdx }, tag := some t, host := c.hostIdx, why := .quiet }) }) ∧
    (∀ (ty : Nat) (a : AcqAction) (cur pre : DWord), s.dev.runs t opResvAcquire = some c → keyOfHost r c.hostIdx ≠ some cur →
      Machine.exec (.reservationAcquire t a ty cur pre) s = .next { s with dev := s.dev.complete t stConflict none }) ∧
    (∀ (cur : DWord), s.dev.runs t opResvRelease = some c → keyOfHost r c.hostIdx = some cur → r.holder = c.hostIdx →
      Machine.exec (.reservationRelease t .release cur) s = .next { s with dev := (s.dev.resvChange t
        { new := { r with rtype := 0, holder := 0 }, tag := some t, host := c.hostIdx, why := .release }) }) ∧
    (s.dev.runs t opResvReport = some c → c.fwdIn = true →
      ∃ w : WorkItem, w.prod = .fwd t ∧
        Machine.exec (.reservationReport t) s = .next { s with dev := (s.dev.post c.qp w).complete t ⟨0, 0⟩ none }) ∧
    (∀ (v : Nat) (p : ResvPend), (s.dev.vol v).resvNext = [p] → p.tag = some t → p.reply = none → (s.dev.tag t).mirror = none → (s.dev.tag t).vaultLeft = 0 →
      let d1 := (s.dev.updVol v (fun x => { x with resv := p.new, resvNext := [] })).resvNotices v (s.dev.vol v).resv p.new p.why p.host
      Machine.exec (.reservationEffect v) s = .next { s with dev :=
        ((d1.updTag t (fun x => { x with resv := false })).complete t ((d1.tag t).status.getD ⟨0, 0⟩) none) })

/-- ANA changes wait for the edge, and forwarded commands end as their owner or the link says (R124, R125, R127, R129, R130). -/
def Obligations.GroupsAndForwarding : Prop :=
  ∀ (s : State),
    (∀ grp st : Nat, 1 ≤ grp → grp ≤ 64 → anaAllowed (s.dev.fld (Reg.NVT_ANA (grp - 1))) st = true →
      Machine.exec (.anaChange grp st) s = .next { s with dev := { s.dev with edge := s.dev.edge ++ [.ana (grp - 1) st] } }) ∧
    (∀ grp st : Nat, anaAllowed (s.dev.fld (Reg.NVT_ANA (grp - 1))) st = false → Machine.exec (.anaChange grp st) s = .next s) ∧
    (∀ grp : Nat, 1 ≤ grp → grp ≤ 64 → s.dev.fld (Reg.NVT_ANA (grp - 1)) = 15 → s.dev.fld (Reg.NVT_ANA_OWN (grp - 1)) = 0 →
      s.dev.fov.handRole ≠ 2 → s.dev.grpRunning (grp - 1) = false →
      Machine.exec (.anaChangeDrained grp) s = .next { s with dev := { s.dev with edge := s.dev.edge ++ [.ana (grp - 1) 2] } }) ∧
    (∀ (m rtag sl : Nat) (c : HostCmd), c.opcode ≠ opWrite ∨ (s.dev.vol c.nsid).valid = false →
      Machine.exec (.fwdCmd m rtag sl c) s = .next { s with dev := (s.dev.enqueueCmd sl
        { c with qp := m, fwdIn := true, fwdTag := rtag, pages := [], dlen := if c.opcode = opWrite then 0 else c.dlen }) }) ∧
    (∀ (t off : Nat) (bs : List Byte) (c : HostCmd), (s.dev.tag t).state = .running → (s.dev.tag t).fwdOut = true → (s.dev.tag t).cmd = some c →
      c.opcode = opRead →
      Machine.exec (.fwdData t off bs) s = .next { s with dev := s.dev.toHost t off bs }) ∧
    (∀ t sct sc : Nat, (s.dev.tag t).state = .running → (s.dev.tag t).fwdOut = true →
      ((⟨sct, sc⟩ : Status) ≠ stAnaTransition →
        Machine.exec (.fwdCpl t sct sc) s = .next { s with dev := s.dev.complete t ⟨sct, sc⟩ none }) ∧
      Machine.exec (.fwdCpl t stAnaTransition.sct stAnaTransition.sc) s = .next { s with dev :=
        (((s.dev.complete t stAnaTransition none).bumpSat Reg.NVT_FWD_FAIL_COUNT 1).raise 322 t (s.dev.tag t).vol (statusCode stAnaTransition)) } ∧
      (s.dev.forwardLost t = true → Machine.exec (.forwardFail t) s = .next { s with dev :=
        (((s.dev.complete t stPathInternal none).bumpSat Reg.NVT_FWD_FAIL_COUNT 1).raise 322 t (s.dev.tag t).vol (statusCode stPathInternal)) }))

/-- Flush, Dataset Management and Copy (R107, R110, R137, R138, R168). -/
def Obligations.CommandsWithoutHostDataEnd : Prop :=
  ∀ (t : Nat) (c : HostCmd) (bs : List Byte) (s : State),
    let v := s.dev.vol (s.dev.tag t).vol
    (s.dev.runs t opFlush = some c → Machine.exec (.flush t) s = .next { s with dev := s.dev.complete t stSuccess none }) ∧
    (s.dev.runs t opDsm = some c → s.dev.fetchDue t c = true → Machine.exec (.datasetManagement t) s = .next { s with dev := s.dev.startFetch t c }) ∧
    (s.dev.runs t opDsm = some c → s.dev.fetchDue t c = false → s.dev.descriptors t c = some bs →
      let ranges := dsmRanges (c.dlen / 16) bs
      let spans := ranges.map (fun r => innerRange (r.slba * v.blk) ((r.slba + r.nlb) * v.blk))
      (inVolume { c with ranges := ranges } v = false →
        Machine.exec (.datasetManagement t) s = .next { s with dev := (s.dev.beginTag t).complete t stRange none }) ∧
      (inVolume { c with ranges := ranges } v = true → c.ad = false →
        Machine.exec (.datasetManagement t) s = .next { s with dev := (s.dev.beginTag t).complete t stSuccess none }) ∧
      (inVolume { c with ranges := ranges } v = true → c.ad = true →
        (∀ i ∈ spans, s.dev.needsPages t (s.dev.tag t).vol (i.1 / 4096) (i.2 / 4096) = false) →
        Machine.exec (.datasetManagement t) s = .next { s with dev := (((s.dev.beginTag t).postEdits t
          (spans.flatMap (fun i => ((s.dev.grainsIn t (s.dev.tag t).vol (i.1 / 4096) (i.2 / 4096)).1).map (fun e => (e.1, 0))))).tryComplete t) })) ∧
    (s.dev.runs t opCopy = some c → s.dev.fetchDue t c = true → Machine.exec (.copy t) s = .next { s with dev := s.dev.startFetch t c }) ∧
    (s.dev.runs t opCopy = some c → s.dev.fetchDue t c = false → s.dev.descriptors t c = some bs →
      (copyOk c v (copyRanges (c.dlen / 32) bs) = false →
        Machine.exec (.copy t) s = .next { s with dev := (s.dev.beginTag t).complete t stField none }) ∧
      (copyOk c v (copyRanges (c.dlen / 32) bs) = true → inVolume { c with ranges := copyRanges (c.dlen / 32) bs } v = false →
        Machine.exec (.copy t) s = .next { s with dev := (s.dev.beginTag t).complete t stRange none }) ∧
      (∀ (r : LbaRange) (whole : List MapEdit), copyOk c v (copyRanges (c.dlen / 32) bs) = true → copyRanges (c.dlen / 32) bs = [r] →
        inVolume { c with ranges := [r] } v = true →
        s.dev.needsPages t (s.dev.tag t).vol (r.slba * v.blk / 4096) (r.slba * v.blk / 4096 + r.nlb * v.blk / 4096) = false →
        s.dev.grainsIn t (s.dev.tag t).vol (r.slba * v.blk / 4096) (r.slba * v.blk / 4096 + r.nlb * v.blk / 4096) = (whole, []) →
        Machine.exec (.copy t) s = .next { s with dev :=
          ((((s.dev.beginTag t).updTag t (fun x => { x with pages := [] })).postEdits t
            (whole.map (fun e => (keyOf (c.slba * v.blk / 4096 + (keyStart e.1 - r.slba * v.blk / 4096)) (3 - e.1 % 4), e.2)))).tryComplete t) }))

/-- A write is cut into region groups; placing a group fills entries, journals its INSERTs and posts its put (R143, R145, R148, R150, R153, R156, R158, R172, R177). -/
def Obligations.WritesBecomeGroupsThatArePlaced : Prop :=
  ∀ (s : State),
    (∀ (t : Nat) (c : HostCmd) (ps : List Nat), s.dev.runs t opWrite = some c → c.fwdIn = false → c.sgl = .none →
      (s.dev.tag t).pages = ps → ps ≠ [] →
      ∃ d : Dev, Machine.exec (.write t) s = .next { s with dev := d } ∧ (d.tag t).begun = true ∧ (d.tag t).pages = ps ∧
        (d.tag t).groupsLeft = (s.dev.tag t).groupsLeft +
          (regionsOf (((cmdGrains c (s.dev.vol (s.dev.tag t).vol)).zip ps).map (·.1))).length ∧
        (∀ t', t' ≠ t → d.tag t' = s.dev.tag t') ∧ d = { s.dev with nvt := d.nvt, cal := d.cal }) ∧
    (∀ sl : Nat, s.dev.nextGroup sl = none →
      Machine.exec (.regionGroupPlace sl) s = .next { s with dev := (s.dev.setFld (Reg.SLI_WPE_STS_DIR_FULL sl) 0).setFld (Reg.SLI_WPE_STS_ID_WAIT sl) 0 }) ∧
    (∀ (sl gid : Nat) (g : RGroup), s.dev.nextGroup sl = some gid → s.dev.group gid = some g → g.slice = sl →
      (s.dev.wpeFree sl = false → Machine.exec (.regionGroupPlace sl) s = .next s) ∧
      (s.dev.wpeFree sl = true → Config.dirEntries < s.dev.dirUsed sl + g.grains.length →
        Machine.exec (.regionGroupPlace sl) s = .next { s with dev :=
          (((if s.dev.flag (Reg.SLI_WPE_STS_DIR_FULL sl) then s.dev else s.dev.raise (sliceSrc sl 0) sl 0 0).setFlag (Reg.SLI_WPE_STS_DIR_FULL sl) true).setFlag
            (Reg.SLI_WPE_STS_ID_WAIT sl) (decide ((s.dev.pool sl).length < g.grains.length))) }) ∧
      (s.dev.wpeFree sl = true → s.dev.dirUsed sl + g.grains.length ≤ Config.dirEntries → (s.dev.pool sl).length < g.grains.length →
        Machine.exec (.regionGroupPlace sl) s = .next { s with dev :=
          ((s.dev.setFlag (Reg.SLI_WPE_STS_DIR_FULL sl) false).setFlag (Reg.SLI_WPE_STS_ID_WAIT sl) true) }) ∧
      (s.dev.wpeFree sl = true → s.dev.dirUsed sl + g.grains.length ≤ Config.dirEntries → g.grains.length ≤ (s.dev.pool sl).length →
        s.dev.ringFull g.grains.length = false → s.dev.isOn (.qp g.m) = true → s.dev.vaultThrough = false →
        ∃ d : Dev, Machine.exec (.regionGroupPlace sl) s = .next { s with dev := d } ∧
          (∀ (k page grid idx : Nat) (gr : Grain),
            (g.grains.zip (g.pages.zip ((s.dev.pool sl).zip (s.dev.freeIdx sl g.grains.length))))[k]? = some (gr, page, grid, idx) →
            d.dir sl idx = { state := .staged, size := sizeCode gr.size, rmw := g.rmw, vol := g.vol, off := gr.off / 4096, page := page,
                             grid := grid, mirrorQp := g.m, putCount := s.dev.putCount g.m + 1, admitBeat := g.admitBeat, order := g.order,
                             tag := g.tag, grp := gid }) ∧
          tget [] d.cal.placeQ sl = (tget [] s.dev.cal.placeQ sl).erase gid ∧
          d.pool sl = (s.dev.pool sl).drop g.grains.length ∧
          (d.tag g.tag).groupsLeft = (s.dev.tag g.tag).groupsLeft - 1 ∧
          (d.tag g.tag).mirror = some (g.m, s.dev.putCount g.m + 1)))

/-- Write Zeroes in whole units, the merge of a group's missing bytes, and a put of the peer (R97, R110, R154, R157, R165, R166, R167, R453, R454). -/
def Obligations.ZeroesMergesAndPutsFromThePeer : Prop :=
  ∀ (s : State),
    (∀ (t a n : Nat) (c : HostCmd), s.dev.runs t opZeroes = some c → cmdRange c (s.dev.vol (s.dev.tag t).vol) = (4096 * a, 4096 * (a + n)) →
      Machine.exec (.writeZeroes t) s = .next { s with dev :=
        ((((s.dev.updTag t (fun x => { x with begun := true, pages := [] })).postEdits t
          ((cut (4096 * a) (4096 * (a + n))).map (fun g => (grainKey g, 0)))).queueGroups t).tryComplete t) }) ∧
    (∀ (sl : Nat) (fl : GapData),
      (s.dev.nextMerge sl = none → Machine.exec (.rmwMerge sl fl) s = .next s) ∧
      (∀ (gid : Nat) (g : RGroup), s.dev.nextMerge sl = some (gid, g) →
        (fl = .unreadable → s.dev.needsFlash g = true →
          Machine.exec (.rmwMerge sl fl) s = .next { s with dev :=
            ((((s.dev.dropGroup gid).updTag g.tag (fun x => { x with groupsLeft := x.groupsLeft - 1, status := some stUnrecovered })).raise
              (sliceSrc sl 1) g.tag g.vol 0).tryComplete g.tag) }) ∧
        (∀ p : Nat × Nat × Int, g.gaps = [p] → (fl ≠ .unreadable ∨ s.dev.needsFlash g = false) → (∀ b ∈ g.units, s.dev.oldSource g b ≠ .damaged) →
          Machine.exec (.rmwMerge sl fl) s = .next { s with dev :=
            ((((s.dev.storeOwn (g.grains.zip g.pages) p.1 (s.dev.oldBytes g fl p)).updGroup gid
              (fun g => { g with gaps := [] })).bumpSat (Reg.SLI_WPE_RMW_COUNT sl) 1).addJobFor sl .wpe wpeMerge p.2.1 (.group gid)) }))) ∧
    (∀ (m : Nat) (key : Word) (bs : List Byte),
      (m < 64 → (s.dev.ctx m).receives = true → s.dev.windowCheck (s.dev.ctx m).pd key = true →
        Machine.exec (.placedWrite m ⟨key, bs⟩) s = .next { s with dev :=
          ((((s.dev.updCtx m (fun c => { c with rqEpsn := (s.dev.ctx m).rqEpsn + BitVec.ofNat 24 (packetsOf bs.length 4096 - 1) + 1 })).putApply bs).updCtx m
            (fun c => { c with msn := c.msn + 1 })).sendAck m 0 ((s.dev.ctx m).rqEpsn + BitVec.ofNat 24 (packetsOf bs.length 4096 - 1))) }) ∧
      (m < 64 → (s.dev.ctx m).receives = true → s.dev.windowCheck (s.dev.ctx m).pd key = false →
        Machine.exec (.placedWrite m ⟨key, bs⟩) s = .next { s with dev := s.dev.refuse m 0 (s.dev.ctx m).rqEpsn .remoteAccess 0x05 }) ∧
      (64 ≤ m ∨ (s.dev.ctx m).receives = false → Machine.exec (.placedWrite m ⟨key, bs⟩) s = .next s))

/-- Vault-through mode follows its reasons, and its writes end (R171, R172, R173, R174, R175, R176). -/
def Obligations.VaultThroughModeIsEnteredAndLeft : Prop :=
  ∀ (s : State),
    (s.dev.vaultReasons ≠ 0 → s.dev.vaultThrough = false →
      ∃ d : Dev, Machine.exec .vaultThroughEnter s = .next { s with dev := d } ∧ d.vaultThrough = true ∧
        d.flag Reg.GLB_CAL_STS_CATCHUP = s.dev.cal.dirs.any (fun e => e.2.unvaulted) ∧
        (∃ l, d.raised = s.dev.raised ++ ⟨4, eventCode 4, 1, s.dev.vaultReasons % 2 ^ 32, 0, s.dev.beat⟩ :: l) ∧
        d = { s.dev with fields := d.fields, raised := d.raised }) ∧
    (s.dev.vaultReasons = 0 ∨ s.dev.vaultThrough = true → Machine.exec .vaultThroughEnter s = .next s) ∧
    (s.dev.vaultReasons = 0 → s.dev.vaultThrough = true →
      ∃ d : Dev, Machine.exec .vaultThroughExit s = .next { s with dev := d } ∧ d.vaultThrough = false ∧
        d.flag Reg.GLB_CAL_STS_CATCHUP = false ∧ d.flag Reg.GLB_CAL_STS_COMMIT_HELD = false ∧
        (∀ e ∈ d.cal.dirs, e.2.vaulted = true → e.2.adopted = true) ∧
        (∃ l, d.raised = s.dev.raised ++ ⟨4, eventCode 4, 0, 0, 0, s.dev.beat⟩ :: l)) ∧
    (s.dev.vaultReasons ≠ 0 ∨ s.dev.vaultThrough = false → Machine.exec .vaultThroughExit s = .next s) ∧
    (∀ (g : Nat) (r : RGroup) (ok : Bool), s.dev.group g = some r → r.vault = true →
      ∃ d : Dev, Machine.exec (.vaultWriteComplete g ok) s = .next { s with dev := d } ∧
        d.fld Reg.GLB_CAL_VAULT_LAT_BEATS = (if ok then min 65535 (s.dev.since r.beat) else s.dev.fld Reg.GLB_CAL_VAULT_LAT_BEATS) ∧ d.group g = none ∧
        (d.tag r.tag).vaultLeft = (s.dev.tag r.tag).vaultLeft - 1 ∧ (ok = false → (d.tag r.tag).status = some stInternal)) ∧
    (∀ (sl idx : Nat) (ok : Bool), s.dev.vaultThrough = true ∨ s.dev.mem.image = true → (s.dev.dir sl idx).unvaulted = true → s.dev.cal.pwrfail = false →
      ∃ d : Dev, Machine.exec (.catchupWrite sl idx ok) s = .next { s with dev := d } ∧
        d.dir sl idx = (if ok then { s.dev.dir sl idx with vaulted := true } else { s.dev.dir sl idx with vaultRetry := true }))

/-- Destage starts oldest first, ends placed, and entries are released through their puts (R153, R179, R182, R183, R189, R364). -/
def Obligations.GrainsAreDestagedAndReleased : Prop :=
  ∀ (sl idx : Nat) (s : State),
    (s.dev.eligible sl idx = true → (s.dev.dirOf sl).all (fun x => !(s.dev.eligible sl x.1 && x.2.before (s.dev.dir sl idx))) = true →
      s.dev.isOn (.slice sl) = true →
      ∃ d : Dev, Machine.exec (.destageStart sl idx) s = .next { s with dev := d } ∧
        d.dir sl idx = { s.dev.dir sl idx with state := .destaging, refused := false } ∧ d.red (dirKey sl idx) = { step := .fpWait } ∧
        d.fld (Reg.SLI_FPU_WAIT_GRAINS sl) = (s.dev.fld (Reg.SLI_FPU_WAIT_GRAINS sl) + 1) % 2 ^ (Reg.SLI_FPU_WAIT_GRAINS sl).w ∧
        d = { s.dev with cal := d.cal, tph := d.tph, fields := d.fields }) ∧
    (s.dev.eligible sl idx = false → Machine.exec (.destageStart sl idx) s = .next s) ∧
    (∀ w, (s.dev.dir sl idx).state = .destaging → (s.dev.dir sl idx).discarded = false → (s.dev.red (dirKey sl idx)).step = .journaled →
      (s.dev.red (dirKey sl idx)).wait = some w → waitHolds (s.dev.ctx w.1).cc w.2 = true →
      (s.dev.grec (s.dev.dir sl idx).placeGrid).state = .placed →
      ∃ d : Dev, Machine.exec (.destagePlaced sl idx) s = .next { s with dev := d } ∧
        d.dir sl idx = { s.dev.dir sl idx with
          state := if (s.dev.dir sl idx).dupOf.isSome && s.dev.segVerified (s.dev.grec (s.dev.dir sl idx).placeGrid).seg then .verified else .placed,
          segment := (s.dev.grec (s.dev.dir sl idx).placeGrid).seg } ∧ d = { s.dev with cal := d.cal, tph := d.tph }) ∧
    ((s.dev.dir sl idx).state = .verified → (s.dev.dir sl idx).releasing = false → (s.dev.dir sl idx).refs = 0 →
      s.dev.insertPending (s.dev.dir sl idx).grid = false →
      (s.dev.isOn (.qp (s.dev.dir sl idx).mirrorQp) = true →
        Machine.exec (.releasePut sl idx) s = .next { s with dev :=
          ((s.dev.updDir sl idx (fun e => { e with releasing := true })).post (s.dev.dir sl idx).mirrorQp
            (putItem s.dev.cal.winKey ptRelease 0 (putBytes ptRelease sl [(idx, { s.dev.dir sl idx with state := .free })] [] []) (.releasePut sl idx))) }) ∧
      (s.dev.isOn (.qp (s.dev.dir sl idx).mirrorQp) = false → s.dev.vaultThrough = true → (s.dev.dir sl idx).vaulted = false →
        Machine.exec (.releasePut sl idx) s = .next { s with dev := s.dev.freeEntry (dirKey sl idx) }) ∧
      (s.dev.isOn (.qp (s.dev.dir sl idx).mirrorQp) = false → s.dev.vaultThrough = true → (s.dev.dir sl idx).vaulted = true →
        Machine.exec (.releasePut sl idx) s = .next { s with dev :=
          ({ s.dev with mem := { s.dev.mem with relQ := s.dev.mem.relQ ++ [(s.dev.dir sl idx).grid] } }.updDir sl idx
            (fun e => { e with releasing := true, logRel := true })) }) ∧
      (s.dev.isOn (.qp (s.dev.dir sl idx).mirrorQp) = false → s.dev.vaultThrough = false →
        Machine.exec (.releasePut sl idx) s = .next s)) ∧
    (∀ (seg k : Nat) (e : DirEntry), s.dev.cal.dirs = [(k, e)] →
      (e.state = .verified → e.segment = seg → e.refs = 0 → e.dupOf = none → s.dev.insertPending e.grid = false →
        Machine.exec (.grainRelease seg) s = .next { s with dev := s.dev.freeEntry k }) ∧
      (e.state ≠ .verified ∨ e.segment ≠ seg ∨ e.refs ≠ 0 ∨ s.dev.insertPending e.grid = true →
        Machine.exec (.grainRelease seg) s = .next s))

/-- Write-class commands are not admitted while own-dirty is above its mark, and block the commands behind them (R38, R109). -/
def Obligations.WriteClassCommandsWaitAboveTheHighWaterMark : Prop :=
  (∀ op, writeClass op = true ↔ op = opWrite ∨ op = opZeroes ∨ op = opDsm ∨ op = opCopy) ∧
  ∀ (sl : Nat) (c : HostCmd) (rest : List HostCmd) (s : State),
    s.dev.isOn (.slice sl) = true → (s.dev.slice sl).waiting = c :: rest → writeClass c.opcode = true →
    s.dev.fld Reg.GLB_CAL_HWM_PAGES < s.dev.ownDirty →
    ∃ d : Dev, Machine.exec (.admitCommand sl) s = .next { s with dev := d } ∧ (d.slice sl).waiting = c :: rest ∧
      d.nvt = s.dev.nvt ∧ d.cal = s.dev.cal ∧ d.out = s.dev.out

/-- From a fingerprint to a match, or to a unique grain (R189, R191, R193, R197, R200, R201, R204, R205). -/
def Obligations.GrainsAreFingerprintedAndMatched : Prop :=
  ∀ (sl : Nat) (s : State),
    (∀ u k : Nat, s.dev.grainIn sl (isHashing u) = some k →
      ∃ d : Dev, Machine.exec (.fingerprintDone sl u) s = .next { s with dev := d } ∧
        (d.red k).fp = fingerprint (s.dev.entryBytes (s.dev.dirKeyed k)) ∧
        ((s.dev.volRed (s.dev.dirKeyed k).vol).dedup = true → s.dev.tphActive = true → (d.red k).step = .check) ∧
        ((s.dev.volRed (s.dev.dirKeyed k).vol).dedup = false → (s.dev.volRed (s.dev.dirKeyed k).vol).comp = true → (d.red k).step = .compWait) ∧
        ((s.dev.volRed (s.dev.dirKeyed k).vol).dedup = false → (s.dev.volRed (s.dev.dirKeyed k).vol).comp = false →
          (d.red k).step = .packWait ∧ (d.red k).raw = true ∧ (d.red k).stored = s.dev.entryBytes (s.dev.dirKeyed k)) ∧
        (∀ j ∈ (d.slice sl).jobs, j.eng ≠ .fpu u) ∧ (∀ k', k' ≠ k → d.red k' = s.dev.red k') ∧ d.cal = s.dev.cal) ∧
    (∀ u : Nat, u < 16 → ∃ d : Dev, Machine.exec (.fpuFault sl u) s = .next { s with dev := d } ∧ d.flag (Reg.SLI_FPU_STS_FAULT sl u) = true ∧
        (∀ j ∈ (d.slice sl).jobs, j.eng ≠ .fpu u) ∧
        (∀ k ∈ s.dev.grainsWith sl (isHashing u), (d.red k).step = .fpWait) ∧
        ∃ left, d.raised = s.dev.raised ++ [⟨sliceSrc sl 8, eventCode (sliceSrc sl 8), u % 2 ^ 32, left, 0, s.dev.beat⟩]) ∧
    (∀ idx : Nat,
      ((s.dev.red (dirKey sl idx)).step ≠ .check ∨ s.dev.insertPending (s.dev.dir sl idx).grid = true →
        Machine.exec (.tephraCheck sl idx) s = .next s) ∧
      ((s.dev.red (dirKey sl idx)).step = .check → s.dev.insertPending (s.dev.dir sl idx).grid = false →
        (s.dev.volRed (s.dev.dir sl idx).vol).dedup = true → s.dev.tphActive = true →
        (∀ l ∈ s.dev.tph.loads, l.vol ≠ (s.dev.dir sl idx).vol ∨ l.starter = dirKey sl idx) →
        (isHook (s.dev.red (dirKey sl idx)).fp = false → s.dev.tph.mans = [] →
          Machine.exec (.tephraCheck sl idx) s = .next { s with dev :=
            (((s.dev.updRed (dirKey sl idx) (fun x => { x with checking := true, looked := true })).bump Reg.MDE_TPH_LOOKUPS_COUNT 1).redUnique
              (dirKey sl idx)) }) ∧
        (isHook (s.dev.red (dirKey sl idx)).fp = true → s.dev.bucketBusy (bucketOf s.dev.tphBits (s.dev.red (dirKey sl idx)).fp) = true →
          Machine.exec (.tephraCheck sl idx) s = .next { s with dev := s.dev.updRed (dirKey sl idx) (fun x => { x with checking := true }) })) ∧
      ((s.dev.red (dirKey sl idx)).step = .loadWait → s.dev.expired (tmLoadWait sl idx) (s.dev.fld Reg.MDE_TPH_CFG_LOAD_WAIT) = true →
        Machine.exec (.loadWaitTimeout sl idx) s = .next { s with dev :=
          ((((s.dev.disarm (tmLoadWait sl idx)).bump Reg.MDE_TPH_LOAD_TIMEOUT_COUNT 1).raiseOnce 1024 1024
            ((s.dev.red (dirKey sl idx)).loads.headD 0) (s.dev.dir sl idx).vol 0).redUnique (dirKey sl idx)) }) ∧
      (∀ grid fl, (s.dev.red (dirKey sl idx)).step = .verifying grid →
        newest (s.dev.cal.dirs.filter (fun x => x.2.seen && decide (x.2.grid = grid))) = none →
        (fl = s.dev.entryBytes (s.dev.dir sl idx) →
          Machine.exec (.verifyCompareDone sl idx (some fl)) s = .next { s with dev := s.dev.keepMatch (dirKey sl idx) grid }) ∧
        (fl ≠ s.dev.entryBytes (s.dev.dir sl idx) →
          Machine.exec (.verifyCompareDone sl idx (some fl)) s = .next { s with dev :=
            ((((s.dev.refLocal grid (-1)).bump Reg.MDE_TPH_VERIFY_FAIL_COUNT 1).raise (sliceSrc sl 12) (s.dev.dir sl idx).vol grid (grid / 2 ^ 32)).redUnique
              (dirKey sl idx)) }))) ∧
    (∀ (seg : Nat) (l : ManLoad), s.dev.tph.loads = [l] → l.seg = seg → s.dev.tph.grains = [] →
      Machine.exec (.manifestLoadDone seg none) s = .next { s with dev :=
        ({ s.dev with tph := { s.dev.tph with loads := [] } }.setFld Reg.MDE_TPH_STS_LOADING 0) })

/-- Batches of Tephra entries go out and come in whole; a frame is released only after its shadow decode (R196, R206, R207, R208, R211, R212, R234, R459). -/
def Obligations.TephraBatchesAndCompressedFrames : Prop :=
  ∀ (s : State),
    (∀ e : TphEnt, s.dev.tph.sentEpoch ≠ s.dev.epoch + 1 → 2 ^ 20 ≤ s.dev.offset → s.dev.tph.outQ = [e] → s.dev.linkSends = true →
      s.dev.flag Reg.MDE_TPH_CFG_BATCH_EN = true →
      ∃ d : Dev, Machine.exec .tephraBatchSend s = .next { s with dev := d } ∧
        d.cdx.txq = s.dev.cdx.txq ++ [.link (.tephraBatch s.dev.tph.seqOut 0 true [e.bytes])] ∧
        d.tph = { s.dev.tph with outQ := [], overflow := 0, sentEpoch := s.dev.epoch + 1, seqOut := s.dev.tph.seqOut + 1 } ∧ d.out = s.dev.out) ∧
    (s.dev.tph.sentEpoch = s.dev.epoch + 1 ∨ s.dev.offset < 2 ^ 20 → Machine.exec .tephraBatchSend s = .next s) ∧
    (∀ (seq : Word) (part : Nat) (last : Bool) (ents : List (List Byte)), s.dev.flag Reg.MDE_TPH_CFG_BATCH_ACCEPT = false →
      Machine.exec (.tephraBatch seq part last ents) s = .next s) ∧
    (∀ seq : Word, s.dev.flag Reg.MDE_TPH_CFG_BATCH_ACCEPT = true → s.dev.tph.batch = none → s.dev.tph.expect = some seq →
      ∃ d : Dev, Machine.exec (.tephraBatch seq 0 true []) s = .next { s with dev := d } ∧ d.fld Reg.MDE_TPH_BATCH_SEQ_SEQ = seq.toNat ∧
        d.tph = { s.dev.tph with expect := some (seq + 1) } ∧ d.raised = s.dev.raised) ∧
    (∀ b : BatchIn, s.dev.tph.batch = some b →
      ((b.epoch + 1) * Config.epochBeats + 2 ^ 20 ≤ s.dev.beat →
        ∃ d : Dev, Machine.exec .tephraBatchDeadline s = .next { s with dev := d } ∧
          d.tph = { s.dev.tph with batch := none, expect := some (b.seq + 1) } ∧
          d.raised = s.dev.raised ++ [⟨1025, eventCode 1025, b.seq.toNat, b.seq.toNat, 0, s.dev.beat⟩]) ∧
      (s.dev.beat < (b.epoch + 1) * Config.epochBeats + 2 ^ 20 → Machine.exec .tephraBatchDeadline s = .next s)) ∧
    (∀ (sl c : Nat) (fr : List Byte), (∃ j ∈ (s.dev.slice sl).jobs, j.eng = .snc c) → Machine.exec (.compressDone sl c fr) s = .next s) ∧
    (∀ (sl c k l : Nat) (fr : List Byte), s.dev.grainIn sl (isCompressing c) = some k → (s.dev.red k).step = .compressing c l →
      (∀ j ∈ (s.dev.slice sl).jobs, j.eng ≠ .snc c) →
      ∃ d : Dev, Machine.exec (.compressDone sl c fr) s = .next { s with dev := d } ∧ (d.red k).step = .packWait ∧
        ((s.dev.dirKeyed k).bytes - 64 < fr.length →
          (d.red k).raw = true ∧ (d.red k).stored = s.dev.entryBytes (s.dev.dirKeyed k) ∧
          d.fld (Reg.SLI_SNC_RAW_COUNT sl c) = (s.dev.bump (Reg.SLI_SNC_RAW_COUNT sl c) 1).fld (Reg.SLI_SNC_RAW_COUNT sl c)) ∧
        (fr.length ≤ (s.dev.dirKeyed k).bytes - 64 → sinterDecode fr (s.dev.dirKeyed k).bytes = .ok (s.dev.entryBytes (s.dev.dirKeyed k)) →
          frameAllowed fr l (s.dev.dirKeyed k).bytes = true → (d.red k).raw = false ∧ (d.red k).stored = fr ∧ d.raised = s.dev.raised) ∧
        (fr.length ≤ (s.dev.dirKeyed k).bytes - 64 → ¬ (sinterDecode fr (s.dev.dirKeyed k).bytes = .ok (s.dev.entryBytes (s.dev.dirKeyed k)) ∧ frameAllowed fr l (s.dev.dirKeyed k).bytes = true) →
          (d.red k).raw = true ∧ (d.red k).stored = s.dev.entryBytes (s.dev.dirKeyed k) ∧ d.flag (Reg.SLI_SNC_STS_FAULT sl c) = true ∧
          d.raised = s.dev.raised ++ [⟨sliceSrc sl 9, eventCode (sliceSrc sl 9), c % 2 ^ 32, (s.dev.dirKeyed k).vol % 2 ^ 32, 0, s.dev.beat⟩]))

/-- What a key command does to its slot, what it refuses, and what it leaves alone (R241, R242, R243, R244, R249, R258, R262). -/
def Obligations.KeyCommandsActOnTheirSlot : Prop :=
  ∀ (slot : Nat) (s : State), slot < 4096 →
    let busy := s.dev.flag Reg.KEY_STS_BUSY
    let held := s.dev.flag Reg.KEY_CMD_HWM_VALID
    let lost : State := { s with dev := s.dev.setFld Reg.KEY_STS_CMD_LOST 1 }
    let takes (o : Host.Outcome State Fault Refusal) (op n : Nat) (hv : Bool) : Prop :=
      ∃ d : Dev, o = .next { s with dev := d } ∧ d.flag Reg.KEY_STS_BUSY = true ∧ d.fld Reg.KEY_CMD_OP = op ∧ d.fld Reg.KEY_CMD_SLOT = n ∧
        d.flag Reg.KEY_CMD_HWM_VALID = hv ∧ .keyRun op n hv ∈ d.edge ∧ d = { s.dev with fields := d.fields, edge := d.edge }
    (∀ hv : Bool, (busy = true → Machine.exec (.load slot hv) s = .next lost) ∧ (busy = false → takes (Machine.exec (.load slot hv) s) 1 slot hv)) ∧
    (busy = true → Machine.exec (.loadCounter slot) s = .next lost) ∧ (busy = false → takes (Machine.exec (.loadCounter slot) s) 2 slot held) ∧
    (busy = true → Machine.exec (.zeroise slot) s = .next lost) ∧ (busy = false → takes (Machine.exec (.zeroise slot) s) 3 slot held) ∧
    (busy = true → Machine.exec .zeroiseAll s = .next lost) ∧
    (busy = false → takes (Machine.exec .zeroiseAll s) 4 (s.dev.fld Reg.KEY_CMD_SLOT) held) ∧
    (∀ (op : Nat) (hv : Bool), 5 ≤ op → op ≤ 7 →
      (busy = true → Machine.exec (.keyOpNotUsed op slot hv) s = .next lost) ∧ (busy = false → takes (Machine.exec (.keyOpNotUsed op slot hv) s) op slot hv)) ∧
    (∀ (op : Nat) (hv : Bool), 1 ≤ op → op ≤ 7 → ∀ d : Dev, d = s.dev.edgeAct (.keyRun op slot hv) →
      d.flag Reg.KEY_STS_BUSY = true ∧ (∀ i, i < 8 → d.fld (Reg.KEY_LOAD_K i) = 0) ∧ (op ≠ 4 → ∀ k', k' ≠ slot → d.kslot k' = s.dev.kslot k') ∧
      (op = 1 → s.dev.flag Reg.KEY_STS_LOCKED = false → ((s.dev.kslot slot).state = .empty ∨ (s.dev.kslot slot).gen ≠ s.dev.fld Reg.KEY_LOAD_GEN_GEN) →
        .keyDone 0 ∈ d.edge ∧ (d.kslot slot).gen = s.dev.fld Reg.KEY_LOAD_GEN_GEN ∧ (d.kslot slot).key = s.dev.loadKey ∧
        (d.kslot slot).kcv = Machine.keyCheck s.dev.loadKey ∧ (d.kslot slot).durableValid = false ∧
        (hv = false → (d.kslot slot).state = .unsealed ∧ (d.kslot slot).counter = 0) ∧
        (hv = true → s.dev.fld Reg.KEY_LOAD_HWM_HWM + 2 ^ 20 < 2 ^ 48 →
          (d.kslot slot).state = .ready ∧ (d.kslot slot).counter = s.dev.fld Reg.KEY_LOAD_HWM_HWM + 2 ^ 20) ∧
        (hv = true → 2 ^ 48 ≤ s.dev.fld Reg.KEY_LOAD_HWM_HWM + 2 ^ 20 → (d.kslot slot).state = .exhausted ∧ (d.kslot slot).counter = 2 ^ 48)) ∧
      (op = 1 → s.dev.flag Reg.KEY_STS_LOCKED = true ∨
          ((s.dev.kslot slot).state ≠ .empty ∧ (s.dev.kslot slot).gen = s.dev.fld Reg.KEY_LOAD_GEN_GEN) →
        d.key = s.dev.key ∧ d.edge = s.dev.edge ++ [.keyDone (if s.dev.flag Reg.KEY_STS_LOCKED then 0x0C else 0x04)]) ∧
      (op = 2 → s.dev.flag Reg.KEY_STS_LOCKED = false → (s.dev.kslot slot).state = .unsealed → s.dev.fld Reg.KEY_LOAD_HWM_HWM + 2 ^ 20 < 2 ^ 48 →
        d.kslot slot = { s.dev.kslot slot with
          state := .ready, counter := s.dev.fld Reg.KEY_LOAD_HWM_HWM + 2 ^ 20, durable := 0, durableValid := false, hwmWait := false }) ∧
      (op = 3 → d.kslot slot = (if (s.dev.kslot slot).state = .empty then s.dev.kslot slot else {})) ∧
      (op = 4 → (∀ k, d.kslot k = {}) ∧ d.fld Reg.KEY_LOAD_GEN_GEN = 0 ∧ d.fld Reg.KEY_LOAD_HWM_HWM = 0) ∧
      (5 ≤ op → d.key = s.dev.key ∧ d.edge = s.dev.edge ++ [.keyDone 0x04])) ∧
    (∀ (gen value m : Nat) (cnt : Word), (⟨slot, gen, value, m, cnt, false⟩ : HwmPost) ∈ s.dev.key.posts → (s.dev.kslot slot).state ≠ .empty →
      (s.dev.kslot slot).gen = gen → ((s.dev.kslot slot).durableValid = false ∨ (s.dev.kslot slot).durable ≤ value) →
      ∃ d : Dev, Machine.exec (.hwmRecordCommit slot gen value) s = .next { s with dev := d } ∧
        d.kslot slot = { s.dev.kslot slot with durable := value, durableValid := true, hwmWait := false } ∧
        (∀ k', k' ≠ slot → d.kslot k' = s.dev.kslot k') ∧ d = { s.dev with key := d.key })

/-- Opening a segment, drawing nonces, closing it and writing its strips (R247, R250, R267, R268, R270, R284, R287, R293, R301). -/
def Obligations.SegmentsOpenSealAndClose : Prop :=
  ∀ (sl : Nat) (s : State),
    (s.dev.fld (Reg.SLI_ECU_OPEN_SEG_SEGMENT sl) = 0 → s.dev.flag (Reg.SLI_ECU_STS_FAULT sl) = false → s.dev.isOn (.slice sl) = true →
      s.dev.layOf 0 = none →
      (4096 ≤ s.dev.lay.segs.length →
        Machine.exec (.segmentOpen sl false) s = .next { s with dev := ((s.dev.setFld Reg.GLB_LAY_STS_FULL 1).raise 16 0 0 0).packGrains sl 16384 }) ∧
      (s.dev.lay.segs.length < 4096 → s.dev.freeSegNo = none →
        Machine.exec (.segmentOpen sl false) s = .next { s with dev := ((s.dev.setFld Reg.GLB_LAY_STS_ID_WAIT 1).raise 14 0 0 0).packGrains sl 16384 }) ∧
      (∀ n : Nat, s.dev.lay.segs.length < 4096 → s.dev.freeSegNo = some n →
        ((s.dev.drivesFor false).length < s.dev.fld Reg.GLB_LAY_DATA_GEOM_K + s.dev.fld Reg.GLB_LAY_DATA_GEOM_M →
          Machine.exec (.segmentOpen sl false) s = .next { s with dev :=
            (((s.dev.setFld Reg.GLB_LAY_STS_DRIVE_WAIT 1).raise 15 0 ((s.dev.drivesFor false).filter (fun a => (s.dev.freeLoc a).isSome)).length
              (s.dev.fld Reg.GLB_LAY_DATA_GEOM_K + s.dev.fld Reg.GLB_LAY_DATA_GEOM_M)).packGrains sl 16384) }) ∧
        (s.dev.fld Reg.GLB_LAY_DATA_GEOM_K + s.dev.fld Reg.GLB_LAY_DATA_GEOM_M ≤ (s.dev.drivesFor false).length →
          (∀ a ∈ s.dev.drivesFor false, (s.dev.freeLoc a).isSome = true) → s.dev.slotId < 2 → n < 2 ^ 31 →
          ∃ (d : Dev) (x : LaySeg), Machine.exec (.segmentOpen sl false) s = .next { s with dev := d } ∧
            d.fld (Reg.SLI_ECU_OPEN_SEG_SEGMENT sl) = s.dev.slotId * 2 ^ 31 + n ∧ d.layOf (s.dev.slotId * 2 ^ 31 + n) = some x ∧
            x.state = .opened ∧ x.k = s.dev.fld Reg.GLB_LAY_DATA_GEOM_K ∧ x.m = s.dev.fld Reg.GLB_LAY_DATA_GEOM_M ∧ x.isMeta = false ∧
            x.slice = sl ∧ x.openBeat = s.dev.beat ∧
            x.strips.map (·.1) = stripDrives (s.dev.drivesFor false) (s.dev.slotId * 2 ^ 31 + n) (x.k + x.m)))) ∧
    (∀ (e i seg off : Nat) (j : GcmJob) (t : List (Nat × GcmJob)), s.dev.gcmRunning sl e = none → s.dev.flag (Reg.SLI_GCM_STS_FAULT sl e) = false →
      s.dev.gcmWaiting sl e = (i, j) :: t → j.work = .sealRec seg off → i < s.dev.key.jobs.length →
      ((s.dev.kslot j.slot).state = .ready → (s.dev.kslot j.slot).counter < 2 ^ 48 → (s.dev.kslot j.slot).mayDraw = true →
        ∃ d : Dev, Machine.exec (.nonceDraw sl e) s = .next { s with dev := d } ∧
          (d.kslot j.slot).counter = (s.dev.kslot j.slot).counter + 1 ∧ (∀ k, k ≠ j.slot → d.kslot k = s.dev.kslot k) ∧
          d.key.jobs[i]? = some { j with
            gen := (s.dev.kslot j.slot).gen, key := (s.dev.kslot j.slot).key, ctr := (s.dev.kslot j.slot).counter, latched := true }) ∧
      ((s.dev.kslot j.slot).state = .empty →
        Machine.exec (.nonceDraw sl e) s = .next { s with dev := (s.dev.dropJob i).refuseRec seg off true })) ∧
    (∀ (seg : Nat) (x : LaySeg), s.dev.layOf seg = some x →
      (x.state ≠ .opened ∨ s.dev.closeDue x = false → Machine.exec (.segmentClose seg) s = .next s) ∧
      (x.state = .opened → s.dev.closeDue x = true → x.isMeta = false →
        ∃ (d : Dev) (y : LaySeg), Machine.exec (.segmentClose seg) s = .next { s with dev := d } ∧ d.layOf seg = some y ∧ y.state = .closed ∧
          y.stateBeat = s.dev.beat ∧ d.fld (Reg.SLI_ECU_OPEN_SEG_SEGMENT x.slice) = 0) ∧
      (x.state ≠ .closed ∨ x.ecu ≠ .parityDone → Machine.exec (.parityDone seg) s = .next s) ∧
      (x.state = .closed → x.ecu = .parityDone →
        ∃ (d : Dev) (y : LaySeg) (l : List (Nat × DrvCmd)), Machine.exec (.parityDone seg) s = .next { s with dev := d } ∧ d.layOf seg = some y ∧
          y = { x with state := .writing, stateBeat := s.dev.beat, writes := l.length } ∧ d.drv.queue = s.dev.drv.queue ++ l))

/-- A written segment, an abandoned one, and the verify results (R153, R182, R293, R294, R295, R296, R297, R305). -/
def Obligations.SegmentsAreWrittenAndVerified : Prop :=
  ∀ (seg : Nat) (x : LaySeg) (s : State),
    (s.dev.layOf seg = some x →
      (x.state = .writing → x.writes = 0 → x.bad = none →
        ∃ (d : Dev) (y : LaySeg), Machine.exec (.segmentWritten seg) s = .next { s with dev := d } ∧ d.layOf seg = some y ∧ y.state = .written ∧
          y.stateBeat = s.dev.beat ∧ (d.segEnt seg).written = s.dev.beat ∧
          (s.dev.linkSends = true → .link (.verifyReq ((x.desc x.recs.length).bytes)) ∈ d.cdx.txq)) ∧
      (∀ strip drive : Nat, x.state = .writing → x.writes = 0 → x.bad = some (strip, drive) → x.seg = seg →
        ∃ d : Dev, Machine.exec (.segmentAbandon seg) s = .next { s with dev := d } ∧ d.layOf seg = none ∧
          d.fld Reg.GLB_LAY_ABANDONED_COUNT = min (s.dev.fld Reg.GLB_LAY_ABANDONED_COUNT + 1) (2 ^ 32 - 1) ∧
          ⟨sliceSrc x.slice 21, eventCode (sliceSrc x.slice 21), seg % 2 ^ 32, strip % 2 ^ 32, drive % 2 ^ 32, s.dev.beat⟩ ∈ d.raised) ∧
      (x.state = .written → x.seg = seg →
        (∀ strip drive : Nat, ∃ d : Dev, Machine.exec (.verifyReport seg vrVerified strip drive) s = .next { s with dev := d } ∧ d.layOf seg = none ∧
          d.fld Reg.GLB_LAY_VERIFIED_COUNT = min (s.dev.fld Reg.GLB_LAY_VERIFIED_COUNT + 1) (2 ^ 32 - 1) ∧ .release seg ∈ d.edge ∧
          (∀ k, (s.dev.dirKeyed k).state = .placed → (s.dev.dirKeyed k).segment = seg → (d.dirKeyed k).state = .verified)) ∧
        (∀ result strip drive : Nat, result ≠ vrVerified → result ≠ vrUnreachable →
          ∃ d : Dev, Machine.exec (.verifyReport seg result strip drive) s = .next { s with dev := d } ∧ d.layOf seg = none ∧
            d.fld Reg.GLB_LAY_FAILED_COUNT = min (s.dev.fld Reg.GLB_LAY_FAILED_COUNT + 1) (2 ^ 32 - 1) ∧
            ⟨17, eventCode 17, seg % 2 ^ 32, result % 2 ^ 32, strip % 2 ^ 32, s.dev.beat⟩ ∈ d.raised) ∧
        (∀ strip drive : Nat, x.ownPass = false →
          Machine.exec (.verifyReport seg vrUnreachable strip drive) s = .next { s with dev := s.dev.startOwnPass seg 1 }) ∧
        (x.ownPass = false → x.retryOwn = false →
          (s.dev.fld Reg.GLB_LAY_VERIFY_TIMEOUT ≤ s.dev.since x.stateBeat →
            Machine.exec (.verifyTimeout seg) s = .next { s with dev := s.dev.startOwnPass seg 0 }) ∧
          (s.dev.since x.stateBeat < s.dev.fld Reg.GLB_LAY_VERIFY_TIMEOUT → s.dev.linkSends = false →
            Machine.exec (.verifyTimeout seg) s = .next { s with dev := s.dev.startOwnPass seg 2 })) ∧
        (∀ strips : List StripRead, x.ownPass = false ∨ x.ecu ≠ .checkDone → Machine.exec (.ownVerifyDone seg strips) s = .next s) ∧
        (∀ strips : List StripRead, x.ownPass = true → x.ecu = .checkDone →
          ((verifyStrips s.dev.slotKey (x.desc x.recs.length) strips).result = vrUnreachable →
            Machine.exec (.ownVerifyDone seg strips) s = .next { s with dev := s.dev.updLay seg (fun x => { x with ownPass := false, retryOwn := true, ecu := .parityDone }) }) ∧
          ((verifyStrips s.dev.slotKey (x.desc x.recs.length) strips).result = vrVerified →
            ∃ d : Dev, Machine.exec (.ownVerifyDone seg strips) s = .next { s with dev := d } ∧ d.layOf seg = none ∧
              d.fld Reg.GLB_LAY_VERIFIED_COUNT = min (s.dev.fld Reg.GLB_LAY_VERIFIED_COUNT + 1) (2 ^ 32 - 1))))) ∧
    (∀ (desc : List Byte) (y : SegDesc) (strips : List StripRead), descOf desc = some y →
      ((y.seg, true) ∉ s.dev.lay.checks → Machine.exec (.verifyReq desc strips) s = .next s) ∧
      ((y.seg, true) ∈ s.dev.lay.checks → 2 ≤ s.dev.fld Reg.CDX_STS_LINK →
      ∃ d : Dev, Machine.exec (.verifyReq desc strips) s = .next { s with dev := d } ∧
        d.cdx.txq = s.dev.cdx.txq ++ [.link (.verifyReport y.seg (verifyStrips s.dev.slotKey y strips).result (verifyStrips s.dev.slotKey y strips).strip
          ((y.strips.map (·.1)).getD (verifyStrips s.dev.slotKey y strips).strip 0))] ∧
        d.cal.mirDirs = (if (verifyStrips s.dev.slotKey y strips).result = vrVerified
          then s.dev.cal.mirDirs.filter (fun e => !((verifyStrips s.dev.slotKey y strips).grids.contains e.2.grid)) else s.dev.cal.mirDirs) ∧
        d.cal.dirs = s.dev.cal.dirs ∧ d.fields = s.dev.fields ∧ d.out = s.dev.out))

/-- Inserts are applied, snapshots share, trees end, ID pools fill, page faults end (R312, R316, R318, R319, R321, R324, R334, R335, R339). -/
def Obligations.MetadataEngineSteps : Prop :=
  ∀ (s : State),
    (s.dev.mde.inserts.find? s.dev.insertReady = none → Machine.exec .insertApply s = .next s) ∧
    (∀ r : JRec, s.dev.mde.inserts.find? s.dev.insertReady = some r →
      Machine.exec .insertApply s = .next { s with dev :=
        ({ s.dev with mde := { s.dev.mde with inserts := s.dev.mde.inserts.filter (fun o => decide (o.seq ≠ r.seq)) } }.applyRec r) } ∧
      (∀ (tree key grid : Nat) (addref zero : Bool), r.body = .insert tree key grid addref zero → (s.dev.tree tree).state = .damaged →
        ∃ d : Dev, Machine.exec .insertApply s = .next { s with dev := d } ∧ d.mde.pages = s.dev.mde.pages ∧ d.mde.recs = s.dev.mde.recs ∧
          d.fld Reg.MDE_DISCARDED_COUNT = min (s.dev.fld Reg.MDE_DISCARDED_COUNT + 1) (2 ^ Reg.MDE_DISCARDED_COUNT.w - 1))) ∧
    (∀ p tree : Nat, s.dev.mde.cascade = [(p, tree)] → (s.dev.page p).level = 0 → (s.dev.page p).ents = [] → 1 ≤ s.dev.fld Reg.MDE_CFG_DEL_RATE →
      ∃ d : Dev, Machine.exec .pageFreeCascade s = .next { s with dev := d } ∧ d.mde.cascade = [] ∧ d.page p = {} ∧
        (∀ p', p' ≠ p → d.page p' = s.dev.page p') ∧ d = { s.dev with mde := d.mde }) ∧
    (∀ p : PendSnap, s.dev.mde.snaps.find? (fun p => !s.dev.snapWaits p) = some p → (s.dev.tree p.src).root ≠ 0 →
      ∃ d : Dev, Machine.exec .snapshotShare s = .next { s with dev := d } ∧ (d.tree p.tree).state = .ready ∧
        (d.tree p.tree).root = (s.dev.tree p.src).root ∧ (d.tree p.tree).depth = (s.dev.tree p.src).depth ∧ (d.tree p.tree).beat = p.beat ∧
        (d.page (s.dev.tree p.src).root).share = (s.dev.page (s.dev.tree p.src).root).share + 1 ∧
        d.mde.snaps = s.dev.mde.snaps.filter (fun x => decide (x.tree ≠ p.tree))) ∧
    (∀ t : Nat, (s.dev.tree t).state = .deleting → s.dev.mde.cascade.any (fun e => decide (e.2 = t)) = false →
      ∃ d : Dev, Machine.exec (.treeDeleteDone t) s = .next { s with dev := d } ∧ d.tree t = {} ∧ (∀ t', t' ≠ t → d.tree t' = s.dev.tree t') ∧
        d.raised = s.dev.raised ++ [⟨965, eventCode 965, t % 2 ^ 32, 0, 0, s.dev.beat⟩]) ∧
    (∀ t : Nat, (s.dev.tree t).state ≠ .deleting → Machine.exec (.treeDeleteDone t) s = .next s) ∧
    (∀ sl : Nat,
      (1024 ≤ (s.dev.pool sl).length → Machine.exec (.idPoolRefill sl) s = .next s) ∧
      ((s.dev.pool sl).length < 1024 →
        ∃ d : Dev, Machine.exec (.idPoolRefill sl) s = .next { s with dev := d } ∧ 1024 ≤ (d.pool sl).length ∧
          (s.dev.pool sl ++ s.dev.mde.freeIds.take (4096 - (s.dev.pool sl).length)) <+: d.pool sl ∧
          d.mde.freeIds = s.dev.mde.freeIds.drop (4096 - (s.dev.pool sl).length) ∧ d.fld (Reg.SLI_WPE_STS_ID_WAIT sl) = 0 ∧
          (∀ sl', sl' ≠ sl → d.pool sl' = s.dev.pool sl'))) ∧
    (∀ (p : Nat) (l : DomainLoad), pageClass p ≠ 1 →
      Machine.exec (.pageFaultDone p ⟨true, l⟩) s = .next { s with dev := (s.dev.bump Reg.MDE_FAULTS_COUNT 1).updPage p (fun x => { x with resident := true }) } ∧
      ∃ d : Dev, Machine.exec (.pageFaultDone p ⟨false, l⟩) s = .next { s with dev := d } ∧ (d.page p).damaged = true ∧
        (d.tree (s.dev.page p).tree).state = .damaged ∧
        d.raised = s.dev.raised ++ [⟨963, eventCode 963, mapPageId s.dev.slotId p % 2 ^ 32, mapPageId s.dev.slotId p / 2 ^ 32 % 2 ^ 32,
          (s.dev.page p).tree % 2 ^ 32, s.dev.beat⟩]) ∧
    (∀ (p : Nat) (l : DomainLoad), pageClass p = 1 →
      ∃ d : Dev, Machine.exec (.pageFaultDone p ⟨false, l⟩) s = .next { s with dev := d } ∧ p ∉ d.mde.away ∧
        d.raised = s.dev.raised ++ [⟨963, eventCode 963, p % 2 ^ 32, p / 2 ^ 32 % 2 ^ 32, 0, s.dev.beat⟩])

/-- Journal runs, full checkpoints, replay, relocation and reference changes from the peer (R314, R328, R330, R331, R333, R336, R337, R458). -/
def Obligations.CheckpointsReplayAndRelocation : Prop :=
  ∀ (s : State),
    (s.dev.fld Reg.MDE_JSEQ_NEXT_SEQ < (s.dev.mde.spillTo / recsPerPage + s.dev.runPages) * recsPerPage →
      Machine.exec .journalRunSpill s = .next s) ∧
    ((s.dev.mde.spillTo / recsPerPage + s.dev.runPages) * recsPerPage ≤ s.dev.fld Reg.MDE_JSEQ_NEXT_SEQ →
      ∃ d : Dev, Machine.exec .journalRunSpill s = .next { s with dev := d } ∧
        d.mde.spillTo = (s.dev.mde.spillTo / recsPerPage + s.dev.runPages) * recsPerPage ∧
        d.mde.runs = s.dev.mde.runs ++ [(d.mde.spillTo, 0)] ∧ d.lay.metaQ.length = s.dev.lay.metaQ.length + s.dev.runPages ∧
        d = { s.dev with mde := d.mde, lay := d.lay }) ∧
    (s.dev.mde.cpRun = false → s.dev.mde.ownGone = false →
      ∃ d : Dev, Machine.exec .fullCheckpointStart s = .next { s with dev := d } ∧ d.mde.cpRun = true ∧ d.mde.cpOther = false ∧
        d.mde.cpCut = (s.dev.mde.inserts.map (·.seq)).foldl min (s.dev.fld Reg.MDE_JSEQ_NEXT_SEQ) ∧ d.flag Reg.MDE_STS_CP_RUN = true ∧
        (∀ id ∈ ({ s.dev with mde := { s.dev.mde with cpOther := false } } : Dev).cpPageIds, MetaPage.mk id [] false 0 ∈ d.lay.metaQ) ∧
        d.raised = s.dev.raised) ∧
    (s.dev.mde.cpRun = true →
      Machine.exec .fullCheckpointStart s = .next { s with dev :=
        ({ s.dev with mde := { s.dev.mde with cpDue := true } }.raise 962 (s.dev.fld Reg.MDE_CP_NUM_NUM) 0 0) }) ∧
    (s.dev.mde.cpRun = true → 2 ≤ s.dev.mde.cpAnchors → s.dev.mde.cpOther = false → s.dev.mde.cpNext = false → s.dev.mde.cpDue = false →
      ∃ d : Dev, Machine.exec .fullCheckpointDone s = .next { s with dev := d } ∧ d.mde.cpRun = false ∧
        d.fld Reg.MDE_CP_NUM_NUM = (s.dev.fld Reg.MDE_CP_NUM_NUM + 1) % 2 ^ 64 ∧ d.fld Reg.MDE_CP_CUT_SEQ = s.dev.mde.cpCut % 2 ^ 64 ∧
        d.mde.freeIds = s.dev.mde.freeIds ++ (s.dev.mde.dying.filter (fun e => decide (e.2 = 1))).map (·.1) ∧
        d.raised = s.dev.raised ++ [⟨961, eventCode 961, (s.dev.fld Reg.MDE_CP_NUM_NUM + 1) % 2 ^ 32, s.dev.mde.cpCut % 2 ^ 32, 0, s.dev.beat⟩]) ∧
    (s.dev.mde.cpRun = false ∨ s.dev.mde.cpAnchors < 2 → Machine.exec .fullCheckpointDone s = .next s) ∧
    (∀ l : DomainLoad,
      (s.dev.fld Reg.FOV_STS_STATE = 0 → s.dev.fov.replayDone = false →
        ∃ d : Dev, Machine.exec (.journalReplay false l) s = .next { s with dev := d } ∧ d.fov.replayDone = true ∧
          d.fld Reg.MDE_STS_REPLAY = 0 ∧ ∃ e ∈ d.raised.drop s.dev.raised.length, e.src = 968) ∧
      (s.dev.fld Reg.FOV_STS_STATE ≠ 0 ∨ s.dev.fov.replayDone = true → Machine.exec (.journalReplay false l) s = .next s)) ∧
    (∀ v : Word, s.dev.fov.handRole ≠ 1 →
      ∃ d : Dev, Machine.exec (.relocCmdWrite v) s = .next { s with dev := d } ∧ d.mde.reloc = s.dev.mde.reloc ++ [v.toNat] ∧
        d.fld Reg.MDE_RELOC_CMD_SEGMENT = v.toNat ∧ d.fld Reg.MDE_RELOC_STS_QUEUED = min 65535 (s.dev.mde.reloc.length + 1) ∧
        d = { s.dev with mde := d.mde, fields := d.fields }) ∧
    (∀ (sl seg : Nat) (m : Move), s.dev.mde.relocReady = [m] → m.seg = seg → relocSlice m.old = sl → (s.dev.grec m.grid).state = .placed → (s.dev.grec m.grid).seg = m.old →
      ∃ d : Dev, Machine.exec (.relocationDone sl seg) s = .next { s with dev := d } ∧
        d.grec m.grid = { s.dev.grec m.grid with seg := m.seg, off := m.off, stored := m.stored } ∧ d.mde.relocReady = [] ∧
        (∀ moved : Nat, m.old ∈ s.dev.mde.reloc → (s.dev.segEnt m.old).relocLeft = [m.grid] → (s.dev.segEnt m.old).moved = moved →
          m.old ≠ m.seg → d.mde.reloc = s.dev.mde.reloc.erase m.old ∧ (d.segEnt m.old).relocNext = [] ∧
          d.raised.getLast? = some ⟨970, eventCode 970, m.old % 2 ^ 32, (moved + 1) % 2 ^ 32, 0, s.dev.beat⟩)) ∧
    (∀ sl seg : Nat, (∀ m ∈ s.dev.mde.relocReady, m.seg ≠ seg ∨ relocSlice m.old ≠ sl) → Machine.exec (.relocationDone sl seg) s = .next s) ∧
    (∀ (rseq : Nat) (ents : List (Nat × Int)), 2 ≤ s.dev.fld Reg.CDX_STS_LINK →
      (rseq ≤ s.dev.mde.peerRseq → ∃ d : Dev, Machine.exec (.refcount rseq ents) s = .next { s with dev := d } ∧ d = { s.dev with cdx := d.cdx } ∧
        d.cdx.txq = s.dev.cdx.txq ++ [.link (.refcountAck s.dev.mde.peerRseq)]) ∧
      (s.dev.mde.peerRseq < rseq → ∃ d : Dev, Machine.exec (.refcount rseq ents) s = .next { s with dev := d } ∧ d.mde.peerRseq = rseq ∧
        d.cdx.txq.getLast? = some (.link (.refcountAck rseq)))) ∧
    (∀ rseq : Nat, ∃ d : Dev, Machine.exec (.refcountAck rseq) s = .next { s with dev := d } ∧
      d.mde.remote = s.dev.mde.remote.filter (fun r => decide (rseq < r.rseq)) ∧
      d.fld Reg.CDX_REMOTE_RECORDS = d.mde.remote.length % 2 ^ 32 ∧ (d.mde.remote = [] → d.fld Reg.MDE_STS_REMOTE_HELD = 0) ∧
      d = { s.dev with mde := d.mde, fields := d.fields })

/-- Accesses of the metadata cache, its commands, and their end (R344, R345, R346, R347, R350, R351, R352, R354, R355, R356). -/
def Obligations.TheMetadataCacheAndItsCommands : Prop :=
  ∀ (s : State),
    (s.dev.flag Reg.MDC_CMD_STS_BUSY = true → ∀ n : Nat,
      Machine.exec .mdcFlush s = .next { s with dev := s.dev.setFld Reg.MDC_CMD_STS_CMD_LOST 1 } ∧
      Machine.exec .mdcFlushInv s = .next { s with dev := s.dev.setFld Reg.MDC_CMD_STS_CMD_LOST 1 } ∧
      Machine.exec .mdcInvalidate s = .next { s with dev := s.dev.setFld Reg.MDC_CMD_STS_CMD_LOST 1 } ∧
      Machine.exec (.prefetchLock n) s = .next { s with dev := s.dev.setFld Reg.MDC_CMD_STS_CMD_LOST 1 } ∧
      Machine.exec (.lockSet n) s = .next { s with dev := s.dev.setFld Reg.MDC_CMD_STS_CMD_LOST 1 } ∧
      Machine.exec (.lockClear n) s = .next { s with dev := s.dev.setFld Reg.MDC_CMD_STS_CMD_LOST 1 } ∧
      Machine.exec .zeroLine s = .next { s with dev := s.dev.setFld Reg.MDC_CMD_STS_CMD_LOST 1 }) ∧
    (s.dev.flag Reg.MDC_CMD_STS_BUSY = false → ∀ n : Nat, n < 16 →
      (∃ d : Dev, Machine.exec .mdcFlush s = .next { s with dev := d } ∧ s.dev.MdcTakes d .flush (s.dev.fld Reg.MDC_CMD_ENTRY)) ∧
      (∃ d : Dev, Machine.exec .mdcFlushInv s = .next { s with dev := d } ∧ s.dev.MdcTakes d .flushInv (s.dev.fld Reg.MDC_CMD_ENTRY)) ∧
      (∃ d : Dev, Machine.exec .mdcInvalidate s = .next { s with dev := d } ∧ s.dev.MdcTakes d .invalidate (s.dev.fld Reg.MDC_CMD_ENTRY)) ∧
      (∃ d : Dev, Machine.exec (.prefetchLock n) s = .next { s with dev := d } ∧ s.dev.MdcTakes d .prefetchLock n) ∧
      (∃ d : Dev, Machine.exec (.lockSet n) s = .next { s with dev := d } ∧ s.dev.MdcTakes d .lockSet n) ∧
      (∃ d : Dev, Machine.exec (.lockClear n) s = .next { s with dev := d } ∧ s.dev.MdcTakes d .lockClear n) ∧
      (∃ d : Dev, Machine.exec .zeroLine s = .next { s with dev := d } ∧ s.dev.MdcTakes d .zeroLine (s.dev.fld Reg.MDC_CMD_ENTRY))) ∧
    (s.dev.mdc.cmd = none → Machine.exec .mdcCommandDone s = .next s) ∧
    (∀ c : MdcCmd, s.dev.mdc.cmd = some c → c.begun = true → s.dev.walkLen c ≤ c.walk →
      ∃ d : Dev, Machine.exec .mdcCommandDone s = .next { s with dev := d } ∧ d.mdc = { s.dev.mdc with cmd := none } ∧
        d.flag Reg.MDC_CMD_STS_BUSY = false ∧ d.fld Reg.MDC_CMD_STS_STATUS = c.status % 2 ^ 8 ∧
        d.raised = s.dev.raised ++ (if c.lockDrop = 0 then [] else
          [⟨1044, eventCode 1044, c.lockEntry % 2 ^ 32, c.lockDrop % 2 ^ 32, c.lockDirty % 2 ^ 32, s.dev.beat⟩]) ∧
        d = { s.dev with mdc := d.mdc, fields := d.fields, raised := d.raised }) ∧
    (∀ l : Nat, l < 2 ^ 36 →
      (∀ k : Nat, s.dev.fld Reg.MDC_STS_STATE = 2 → s.dev.mdcFind l = some k → s.dev.mdc.drain = 0 →
        ∀ (wr : Option (List Byte)) (pf : Bool), ∃ d : Dev, Machine.exec (.cacheAccess l wr none pf) s = .next { s with dev := d } ∧
          d.mdcLine k = { s.dev.mdcLine k with
            prefetched := false, bytes := overLine (s.dev.mdcLine k).bytes wr, dirty := (s.dev.mdcLine k).dirty || wr.isSome } ∧
          (∀ k', k' ≠ k → d.mdcLine k' = s.dev.mdcLine k') ∧ d.ram = s.dev.ram ∧
          d.fld Reg.MDC_HITS_COUNT = (s.dev.fld Reg.MDC_HITS_COUNT + 1) % 2 ^ 64) ∧
      (∀ w : Nat, s.dev.fld Reg.MDC_STS_STATE = 2 → s.dev.mdcFind l = none → s.dev.flag Reg.MDC_CTL_PF_EN = false →
        s.dev.victim (mdcSet l) (s.dev.mayFill l) = some w →
        ∀ (wr : Option (List Byte)) (pf : Bool), ∃ d : Dev, Machine.exec (.cacheAccess l wr none pf) s = .next { s with dev := d } ∧
          d.mdcLine (wayKey (mdcSet l) w) = { valid := true, dirty := wr.isSome, line := l, bytes := overLine (s.dev.memLine l) wr } ∧
          (∀ k', k' ≠ wayKey (mdcSet l) w → d.mdcLine k' = s.dev.mdcLine k') ∧
          d.fld Reg.MDC_MISSES_COUNT = (s.dev.fld Reg.MDC_MISSES_COUNT + 1) % 2 ^ 64) ∧
      (s.dev.fld Reg.MDC_STS_STATE = 0 → s.dev.mdcFind l = none →
        (∀ pf, Machine.exec (.cacheAccess l none none pf) s = .next s) ∧
        (∀ bs pf, Machine.exec (.cacheAccess l (some bs) none pf) s = .next { s with dev := s.dev.putMemLine l (overLine (s.dev.memLine l) (some bs)) }))) ∧
    (∀ k : Nat,
      (s.dev.mdc.wb.find? (fun w => decide (w.key = k)) = none → Machine.exec (.writebackFailed k) s = .next s) ∧
      (∀ w : MdcWb, s.dev.mdc.wb.find? (fun w => decide (w.key = k)) = some w → (s.dev.mdcLine k).valid = false →
        ∃ d : Dev, Machine.exec (.writebackFailed k) s = .next { s with dev := d } ∧
          d.mdcLine k = { valid := true, dirty := true, held := true, line := w.line, bytes := w.bytes } ∧
          (∀ k', k' ≠ k → d.mdcLine k' = s.dev.mdcLine k') ∧ d.ram = s.dev.ram ∧
          d.raised = s.dev.raised ++ [⟨1043, eventCode 1043, adrLo w.line % 2 ^ 32, adrHi w.line % 2 ^ 32, w.cause % 2 ^ 32, s.dev.beat⟩]))

/-- Read, Verify and Compare: how they begin over blocks that were never written, and how they end (R107, R111, R334, R362, R363, R369, R370, R684). -/
def Obligations.ReadCommandsResolveAndEnd : Prop :=
  ∀ (t : Nat) (c : HostCmd) (xs : List Extent) (s : State), c.sgl = .none → c.fwdIn = false →
    xs = s.dev.extents (s.dev.tag t).vol ((cmdInput c (s.dev.vol (s.dev.tag t).vol)).1 / 4096)
      (((cmdInput c (s.dev.vol (s.dev.tag t).vol)).2 - (cmdInput c (s.dev.vol (s.dev.tag t).vol)).1) / 4096) →
    (xs.any (fun y => y.src.needsPage) = true →
      (s.dev.runs t opRead = some c → Machine.exec (.read t) s = .next s) ∧
      (s.dev.runs t opVerify = some c → Machine.exec (.verify t) s = .next s) ∧
      (s.dev.runs t opCompare = some c → Machine.exec (.compare t) s = .next s)) ∧
    (∀ a n : Nat, xs = [⟨.zeros, a, n⟩] → a * 4096 = (cmdInput c (s.dev.vol (s.dev.tag t).vol)).1 →
      (a + n) * 4096 = (cmdInput c (s.dev.vol (s.dev.tag t).vol)).2 → 0 < c.nlb → s.dev.rd.reads = [] →
      (s.dev.tag t).posted = false → (s.dev.tag t).ended = 0 →
      (s.dev.runs t opRead = some c →
        ∃ d : Dev, Machine.exec (.read t) s = .next { s with dev := d } ∧ (d.tag t).begun = true ∧ (d.tag t).ended = s.dev.edges + 1 ∧
          (d.tag t).posted = false ∧ d.cal = s.dev.cal) ∧
      (s.dev.runs t opVerify = some c →
        ∃ d : Dev, Machine.exec (.verify t) s = .next { s with dev := d } ∧ (d.tag t).posted = true ∧ (d.tag t).state = .completing ∧
          (d.tag t).status = some stSuccess ∧ d.cal.own = s.dev.cal.own ∧ d.cal.dirs = s.dev.cal.dirs) ∧
      (s.dev.runs t opCompare = some c → (s.dev.tag t).left ≤ (s.dev.tag t).fetched →
        ∃ d : Dev, Machine.exec (.compare t) s = .next { s with dev := d } ∧ (d.tag t).begun = true ∧ (d.tag t).ended = s.dev.edges + 1 ∧
          (d.tag t).posted = false ∧ d.cal = s.dev.cal)) ∧
    ((s.dev.tag t).cmd = some c → (s.dev.tag t).state = .running → (s.dev.tag t).fwdOut = false → (s.dev.tag t).begun = true →
      (s.dev.tag t).posted = false → (∀ e ∈ s.dev.readsOf t, e.2.step = .sent) → (s.dev.tag t).ended ≠ 0 → (s.dev.tag t).ended ≠ s.dev.edges + 1 →
      (c.opcode = opRead → s.dev.dataQueued t c = false →
        ∃ d : Dev, Machine.exec (.read t) s = .next { s with dev := d } ∧ (d.tag t).posted = true ∧ (d.tag t).state = .completing ∧
          (d.tag t).status = some stSuccess) ∧
      (c.opcode = opCompare → (s.dev.tag t).left ≤ (s.dev.tag t).fetched → (s.dev.tag t).judged = 0 →
        ∃ d : Dev, Machine.exec (.compare t) s = .next { s with dev := d } ∧ (d.tag t).judged = s.dev.edges + 1 ∧ (d.tag t).posted = false ∧
          (d.tag t).status = some (if readBack (s.dev.readsOf t) (cmdRange c (s.dev.vol (s.dev.tag t).vol)).1 (c.nlb * (s.dev.vol (s.dev.tag t).vol).blk) =
            (c.data ++ (s.dev.tag t).data).take (c.nlb * (s.dev.vol (s.dev.tag t).vol).blk) then stSuccess else stCompare)) ∧
      (∀ st : Status, c.opcode = opCompare → (s.dev.tag t).left ≤ (s.dev.tag t).fetched → (s.dev.tag t).judged ≠ 0 → (s.dev.tag t).judged ≠ s.dev.edges + 1 →
        (s.dev.tag t).status = some st →
        ∃ d : Dev, Machine.exec (.compare t) s = .next { s with dev := d } ∧ (d.tag t).posted = true ∧ (d.tag t).state = .completing ∧
          (d.tag t).status = some st))

/-- Read buffer, GCM engines, decompressors and references (R208, R213, R214, R254, R256, R261, R364, R365, R367, R380). -/
def Obligations.RecordsOfAReadOnTheirWay : Prop :=
  ∀ (sl : Nat) (s : State),
    (∀ (r : Nat) (l : List Nat) (x : RdGrain) (d0 : Dev), d0 = s.dev.lookupsEnd sl → d0.rdOf r = x →
      (d0.rd.reads.filter (fun e => decide (e.2.slice = sl) && decide (e.2.step = .bufWait) && d0.serves sl (e.2.tag / Config.tagsPerSlice))).map (·.1) = r :: l →
      (d0.fld (Reg.SLI_RD_RBUF_FREE sl) < x.need → Machine.exec (.readBufferGrant sl) s = .next { s with dev := d0.refreshRd sl }) ∧
      (∀ a loc : Nat, x.need ≤ d0.fld (Reg.SLI_RD_RBUF_FREE sl) → l = [] → (d0.segDesc x.seg).bind (fun y => y.strips[x.strip]?) = some (a, loc) →
        d0.inService a = true →
        ∃ (d : Dev) (cmd : DrvCmd), Machine.exec (.readBufferGrant sl) s = .next { s with dev := d } ∧ d.drv.queue = s.dev.drv.queue ++ [(a, cmd)] ∧
          cmd.req = .record r ∧ cmd.cls = (if x.reloc then 3 else 1) ∧ cmd.op = 0x02 ∧ cmd.lba = d0.lbaOf a (loc * stripBytes + 512 * x.unit) ∧
          d.rdOf r = { x with pages := x.need, step := .drive, issued := s.dev.beat, driveBusy := true } ∧ cmd.asked = s.dev.beat)) ∧
    (∀ (e i seg off : Nat) (j : GcmJob) (x : LaySeg) (rec_ : LayRec), s.dev.gcmRunning sl e = some (i, j) →
      (j.work = .sealRec seg off → s.dev.layOf seg = some x → x.recs.find? (fun r => decide (offsetOf r.strip r.unit = off)) = some rec_ →
        ∃ (d : Dev) (y : LaySeg) (r : LayRec), Machine.exec (.gcmJobDone sl e) s = .next { s with dev := d } ∧ d.layOf seg = some y ∧ r ∈ y.recs ∧
          offsetOf r.strip r.unit = off ∧ r.gen = j.gen ∧
          r.out = sealBytes j.key (decide (rec_.typ ≠ tyData) && !s.dev.flag Reg.KEY_CFG_META_ENC)
            (headBytes rec_.typ ((if rec_.raw then 1 else 0) + (if decide (rec_.typ ≠ tyData) && !s.dev.flag Reg.KEY_CFG_META_ENC then 2 else 0)) rec_.strip
              seg rec_.id off rec_.lsize rec_.stored.length (nonceBytes j.slot s.dev.slotId j.gen j.ctr))
            (nonceBytes j.slot s.dev.slotId j.gen j.ctr) rec_.stored) ∧
      (j.work = .sealRec seg off → i < s.dev.key.jobs.length → j.fails + 1 < 3 →
        ∃ d : Dev, Machine.exec (.gcmParityFault sl e) s = .next { s with dev := d } ∧
          d.key.jobs[i]? = some { j with latched := false, fails := j.fails + 1 } ∧ (∀ y ∈ (d.slice sl).jobs, y.eng ≠ .gcm e)) ∧
      (3 ≤ j.fails + 1 → e < 2 → ∃ d : Dev, Machine.exec (.gcmParityFault sl e) s = .next { s with dev := d } ∧ d.flag (Reg.SLI_GCM_STS_FAULT sl e) = true)) ∧
    (∀ (u r : Nat) (x : RdGrain), s.dev.rd.reads.find? (fun e => decide (e.2.slice = sl) && decide (e.2.step = .inflating) && decide (e.2.dec = u + 1)) = some (r, x) →
      (∀ bs, sinterDecode x.bytes x.gsize = .ok bs →
        Machine.exec (.decompressDone sl u) s = .next { s with dev :=
          ((((s.dev.updSlice sl (fun y => { y with jobs := y.jobs.filter (fun j => decide (j.eng ≠ .snd u)) })).bump (Reg.SLI_SND_OUT_BYTES sl u) bs.length).endSegRef r).rdSend
            r bs) }) ∧
      (sinterDecode x.bytes x.gsize = .malformed →
        Machine.exec (.decompressDone sl u) s = .next { s with dev :=
          ((((s.dev.updSlice sl (fun y => { y with jobs := y.jobs.filter (fun j => decide (j.eng ≠ .snd u)) })).bumpSat (Reg.SLI_SND_MALFORMED_COUNT sl u) 1).raise
            (sliceSrc sl 11) (s.dev.tag x.tag).vol x.grid (x.grid / 2 ^ 32)).badRecord r) })) ∧
    (∀ u : Nat, u < 4 → ∃ d : Dev, Machine.exec (.decompressorFault sl u) s = .next { s with dev := d } ∧ d.flag (Reg.SLI_SND_STS_FAULT sl u) = true ∧
      (∀ j ∈ (d.slice sl).jobs, j.eng ≠ .snd u) ∧
      (∀ e ∈ s.dev.rd.reads, e.2.slice = sl → e.2.step = .inflating → e.2.dec = u + 1 → (d.rdOf e.1).dec = 0) ∧
      d.raised = s.dev.raised ++ [⟨sliceSrc sl 14, eventCode (sliceSrc sl 14), u, 0, 0, s.dev.beat⟩]) ∧
    (∀ r : Nat,
      ((s.dev.rdOf r).active = true ∨ (s.dev.tag (s.dev.rdOf r).tag).out ≠ 0 ∨ (s.dev.rdOf r).driveBusy = true → Machine.exec (.readReferenceDrop r) s = .next s) ∧
      (∀ k : Nat, (s.dev.rdOf r).active = false → (s.dev.tag (s.dev.rdOf r).tag).out = 0 → (s.dev.rdOf r).driveBusy = false → (s.dev.rdOf r).dirRef = some k →
        ∃ d : Dev, Machine.exec (.readReferenceDrop r) s = .next { s with dev := d } ∧ (d.dirKeyed k).refs = (s.dev.dirKeyed k).refs - 1 ∧
          (∀ k', k' ≠ k → d.dirKeyed k' = s.dev.dirKeyed k') ∧
          d.fld (Reg.SLI_RD_RBUF_FREE (s.dev.rdOf r).slice) =
            (s.dev.fld (Reg.SLI_RD_RBUF_FREE (s.dev.rdOf r).slice) + (s.dev.rdOf r).pages) % 2 ^ (Reg.SLI_RD_RBUF_FREE (s.dev.rdOf r).slice).w ∧
          (d.rdOf r).pages = 0 ∧ (d.rdOf r).dirRef = none) ∧
      (∀ y : SegDesc, (s.dev.rdOf r).step = .drive → (s.dev.rdOf r).hedged = false → (s.dev.rdOf r).reloc = false →
        s.dev.fld (Reg.SLI_RD_CFG_HEDGE (s.dev.rdOf r).slice) ≠ 0 →
        s.dev.fld (Reg.SLI_RD_CFG_HEDGE (s.dev.rdOf r).slice) ≤ s.dev.since (s.dev.rdOf r).issued → s.dev.segDesc (s.dev.rdOf r).seg = some y →
        (s.dev.rdOf r).e.length < y.m → s.dev.flag (Reg.SLI_ECU_STS_FAULT (s.dev.rdOf r).slice) = false →
        ∃ d : Dev, Machine.exec (.hedgeTimeout r) s = .next { s with dev := d } ∧ (d.rdOf r).step = .recon ∧ (d.rdOf r).hedged = true ∧
          (d.rdOf r).driveBusy = (s.dev.rdOf r).driveBusy ∧ (s.dev.rdOf r).strip ∈ (d.rdOf r).e) ∧
      ((s.dev.rdOf r).step ≠ .drive ∨ (s.dev.rdOf r).hedged = true ∨ s.dev.fld (Reg.SLI_RD_CFG_HEDGE (s.dev.rdOf r).slice) = 0 →
        Machine.exec (.hedgeTimeout r) s = .next s))

/-- Rounds of a reconstruction, an erasure unit that fails, rebuilds and reclaims (R290, R291, R301, R338, R377, R378, R408, R409). -/
def Obligations.ReconstructionsEnd : Prop :=
  ∀ (s : State),
    (∀ (r : Nat) (y : SegDesc) (x : RdGrain) (round : Round), s.dev.rdOf r = x → x.step = .recon → x.solve = .solved → s.dev.segDesc x.seg = some y →
      round = reconRound s.dev.slotKey x.seg y.k y.m x.unit (512 * unitsOf x.slen)
        (x.strip, fun bs => match x.header bs with
          | some h => recordPasses s.dev.slotKey h bs
          | none => false) x.e ((List.range (y.k + y.m)).map x.col) →
      (∀ strips, round = .ok strips → Machine.exec (.reconstructionRound x.slice r) s = .next { s with dev := s.dev.reconOk r x.e strips }) ∧
      (∀ e1, round = .again e1 → Machine.exec (.reconstructionRound x.slice r) s = .next { s with dev :=
        (((s.dev.updRd r (fun x => { x with e := e1, rounds := x.rounds + 1, solve := .reading })).bumpSat (Reg.SLI_ECU_ROUNDS_COUNT x.slice) 1).reconNext r y
          reconFuel) }) ∧
      (round = .unrecoverable → x.driveBusy = false → Machine.exec (.reconstructionRound x.slice r) s = .next { s with dev :=
        (((s.dev.bumpSat (Reg.SLI_ECU_UNRECOV_COUNT x.slice) 1).raise (sliceSrc x.slice 19) x.seg (stripMask x.e) x.off).rdFail r stUnrecovered) }) ∧
      (round = .unrecoverable → x.driveBusy = true → Machine.exec (.reconstructionRound x.slice r) s = .next { s with dev :=
        (((s.dev.bumpSat (Reg.SLI_ECU_UNRECOV_COUNT x.slice) 1).raise (sliceSrc x.slice 19) x.seg (stripMask x.e) x.off).updRd r (fun x => { x with step := .drive })) })) ∧
    (∀ sl r : Nat, (s.dev.rdOf r).slice ≠ sl ∨ (s.dev.rdOf r).step ≠ .recon ∨ (s.dev.rdOf r).solve ≠ .solved → Machine.exec (.reconstructionRound sl r) s = .next s) ∧
    (∀ sl : Nat, s.dev.rd.reads = [] →
      ∃ d : Dev, Machine.exec (.erasureUnitFault sl) s = .next { s with dev := d } ∧ d.flag (Reg.SLI_ECU_STS_FAULT sl) = true ∧
        (∀ j ∈ (d.slice sl).jobs, j.eng ≠ .ecu) ∧
        d.raised = s.dev.raised ++ [⟨sliceSrc sl 18, eventCode (sliceSrc sl 18), 0, 0, 0, s.dev.beat⟩] ∧
        (∀ e ∈ d.lay.segs, e.2.slice = sl → e.2.ecu ≠ .parity ∧ e.2.ecu ≠ .check) ∧ (∀ e ∈ d.drv.rebSolve, e.1 % 8 ≠ sl) ∧
        d = { s.dev with fields := d.fields, slices := d.slices, raised := d.raised, lay := d.lay, drv := d.drv }) ∧
    (∀ (seg st : Nat) (t : List (Nat × Nat)) (cols : List StripRead), s.dev.drv.rebuilds = (seg, st) :: t →
      (s.dev.flag Reg.DRV_REBUILD_EN = false ∨ s.dev.isOn (.slice (seg % 8)) = false → Machine.exec (.rebuildStrip cols) s = .next s) ∧
      (s.dev.flag Reg.DRV_REBUILD_EN = true → s.dev.drv.rebEpoch ≠ s.dev.epoch →
        ((s.dev.drv.rebuilds.filter (fun e => decide (e.1 = seg))).map (·.2)).length ≤ s.dev.fld Reg.DRV_REBUILD_RATE →
        s.dev.isOn (.slice (seg % 8)) = true → s.dev.flag (Reg.SLI_ECU_STS_FAULT (seg % 8)) = false →
        ∃ d : Dev, Machine.exec (.rebuildStrip cols) s = .next { s with dev := d } ∧
          d.drv.rebuilds = s.dev.drv.rebuilds.filter (fun e => decide (e.1 ≠ seg)) ∧ d.drv.rebEpoch = s.dev.epoch ∧
          d.drv.rebUsed = ((s.dev.drv.rebuilds.filter (fun e => decide (e.1 = seg))).map (·.2)).length)) ∧
    (∀ a : Nat,
      (s.dev.rebuildDue a = true → ∃ d : Dev, Machine.exec (.rebuildComplete a) s = .next { s with dev := d } ∧
        d.flag (Reg.DRV_ATT_STS_REBUILT a) = true ∧
        d.raised = s.dev.raised ++ [⟨23, eventCode 23, a % 2 ^ 32, tget 0 s.dev.drv.rebuilt a % 2 ^ 32, 0, s.dev.beat⟩] ∧
        d = { s.dev with fields := d.fields, raised := d.raised }) ∧
      (s.dev.rebuildDue a = false → Machine.exec (.rebuildComplete a) s = .next s)) ∧
    (∀ seg : Nat,
      (s.dev.reclaimDue seg = true → ∃ d : Dev, Machine.exec (.segmentReclaim seg) s = .next { s with dev := d } ∧ d.segEnt seg = {} ∧
        (∀ seg', seg' ≠ seg → d.segEnt seg' = s.dev.segEnt seg')) ∧
      (s.dev.reclaimDue seg = false → Machine.exec (.segmentReclaim seg) s = .next s))

/-- Ports, presence, and the life of a drive command from issue to its end (R387, R388, R391, R392, R393, R381, R397, R398, R399, R400, R403, R480). -/
def Obligations.DrivePortsAndDriveCommands : Prop :=
  ∀ (p : Nat) (s : State), p < 32 →
    (∀ mode : Nat,
      (s.dev.flag (Reg.DRV_PORT_STS_VAULT p) = true ∨ s.dev.portOff p = false → Machine.exec (.drvPortModeWrite p mode) s = .next s) ∧
      (s.dev.flag (Reg.DRV_PORT_STS_VAULT p) = false → s.dev.portOff p = true →
        Machine.exec (.drvPortModeWrite p mode) s = .next { s with dev := s.dev.setFld (Reg.DRV_PORT_CTL_MODE p) mode })) ∧
    (s.dev.portOff p = false →
      Machine.exec (.perst p) s = .next { s with dev := s.dev.setFld (Reg.DRV_PORT_STS_PERST_REFUSED p) 1 }) ∧
    (s.dev.portOff p = true →
      ∃ d : Dev, Machine.exec (.perst p) s = .next { s with dev := d } ∧ d.flag (Reg.DRV_PORT_CTL_PERST p) = true ∧
        d.flag (Reg.DRV_PORT_STS_PERST_ASSERTED p) = true ∧ d.age (tmPerst p) = 0 ∧ d = { s.dev with fields := d.fields, marks := d.marks }) ∧
    (∀ d : Dev, s.dev.fld Reg.FOV_STS_STATE ≠ 7 → d = s.dev.edgeAct (.fence 5) →
      d.fld Reg.FOV_STS_STATE = 7 ∧ d.fld Reg.FOV_STS_FENCE_CAUSE = 5 ∧ d.fld Reg.FOV_STS_CLAIM_OUT = 0 ∧
        (∀ g, g < 64 → d.fld (Reg.NVT_ANA g) = anaLoss) ∧ (d.raised.getLast?).map (·.src) = some 1636) ∧
    (s.dev.perstDue p = false → Machine.exec (.perstRelease p) s = .next s) ∧
    (s.dev.perstDue p = true →
      ∃ d : Dev, Machine.exec (.perstRelease p) s = .next { s with dev := d } ∧ d.flag (Reg.DRV_PORT_CTL_PERST p) = false ∧
        d.flag (Reg.DRV_PORT_STS_PERST_ASSERTED p) = false ∧ d = { s.dev with fields := d.fields, marks := d.marks }) ∧
    (∀ a : Nat, a < 128 →
      (∀ b : Bool,
        (s.dev.flag (Reg.DRV_ATT_STS_PRESENT a) = b → Machine.exec (.presenceChange a b) s = .next s) ∧
        (s.dev.flag (Reg.DRV_ATT_STS_PRESENT a) ≠ b →
          ∃ d : Dev, Machine.exec (.presenceChange a b) s = .next { s with dev := d } ∧ d.flag (Reg.DRV_ATT_STS_PRESENT a) = b ∧
            d.raised = s.dev.raised ++ [⟨1091 + 4 * a, eventCode (1091 + 4 * a), if b then 1 else 0, 0, 0, s.dev.beat⟩] ∧
            d = { s.dev with fields := d.fields, raised := d.raised })) ∧
      (s.dev.ustate (.att a) ≠ .on → s.dev.ustate (.att a) ≠ .starting → Machine.exec (.surpriseDown a) s = .next s) ∧
      (s.dev.ustate (.att a) = .on ∨ s.dev.ustate (.att a) = .starting → (∀ e ∈ s.dev.slotsOf a, e.2.req = .other) → tget 0 s.dev.hwPend (128 + a) = 0 →
        ∃ d : Dev, Machine.exec (.surpriseDown a) s = .next { s with dev := d } ∧ d.slotsOf a = [] ∧ d.fld (Reg.DRV_ATT_INFL_INFLIGHT a) = 0 ∧
          tget 0 d.hwPend (128 + a) = 0x06 + 1 ∧ (∀ k slot, k ≠ a → slot < 256 → d.slotCmd k slot = s.dev.slotCmd k slot) ∧ d.out = s.dev.out) ∧
      (∀ c : DrvCmd, s.dev.drv.queue = [(a, c)] →
        (s.dev.isOn (.att a) = true → s.dev.driveHeld a = false → 1 ≤ c.cls → c.cls ≤ 12 → s.dev.mayIssue a c = true →
          ∃ (d : Dev) (slot : Nat), Machine.exec (.driveCommandIssue a) s = .next { s with dev := d } ∧ d.drv.queue = [] ∧ slot < 256 ∧
            s.dev.slotCmd a slot = none ∧ (∀ n, n < slot → s.dev.slotCmd a n ≠ none) ∧
            d.slotCmd a slot = some { c with state := .issued, cid := slot, queue := c.slice % max 1 (s.dev.att a).ioq, issued := s.dev.beat } ∧
            (∃ c' : DrvCmd, d.slotCmd a slot = some c' ∧ d.out = s.dev.out ++ [.drive a (s.dev.driveBalls a) c'])) ∧
        (s.dev.isOn (.att a) = false → c.req = .other →
          Machine.exec (.driveCommandIssue a) s = .next { s with dev := { s.dev with drv := { s.dev.drv with queue := [] } } })) ∧
      (∀ slot : Nat, slot < 256 →
        (s.dev.slotCmd a slot = none →
          (∀ sct sc data, Machine.exec (.driveCompletion a slot sct sc data) s = .next s) ∧ Machine.exec (.driveCommandTimeout a slot) s = .next s) ∧
        (∀ c : DrvCmd, s.dev.slotCmd a slot = some c →
          (∀ sct sc data, c.state = .timedOut ∨ (sct = 0 ∧ sc = 0 ∧ c.req = .other) →
            ∃ d : Dev, Machine.exec (.driveCompletion a slot sct sc data) s = .next { s with dev := d } ∧ d.slotCmd a slot = none ∧
              d.drv = { s.dev.drv with slots := d.drv.slots } ∧ d.out = s.dev.out ∧ d.mde = s.dev.mde) ∧
          (∀ data, c.state ≠ .timedOut → c.req = .other → s.dev.isVault a = false → s.dev.fencing = false →
            ∃ d : Dev, Machine.exec (.driveCompletion a slot 0 0x83 data) s = .next { s with dev := d } ∧ d.slotCmd a slot = none ∧
              d.edge = s.dev.edge ++ [.fence 5] ∧ (d.raised.getLast?).map (·.src) = some 25 ∧
              (s.dev.isOn (.att a) = true → tget 0 s.dev.hwPend (128 + a) = 0 → tget 0 d.hwPend (128 + a) = attFenced + 1)) ∧
          (c.state ≠ .issued ∨ s.dev.since (if c.cls = 0 then c.asked else c.issued) < s.dev.fld Reg.DRV_CFG_CMD_TIMEOUT →
            Machine.exec (.driveCommandTimeout a slot) s = .next s) ∧
          (c.state = .issued → c.cls ≠ 0 → s.dev.fld Reg.DRV_CFG_CMD_TIMEOUT ≤ s.dev.since c.issued → c.req = .other →
            ∃ d : Dev, Machine.exec (.driveCommandTimeout a slot) s = .next { s with dev := d } ∧
              d.slotCmd a slot = some { c with state := .timedOut } ∧ d.out = s.dev.out ++ [.driveAdmin a 0x08] ∧
              d.fld (Reg.DRV_ATT_TIMEOUTS_COUNT a) = min (s.dev.fld (Reg.DRV_ATT_TIMEOUTS_COUNT a) + 1) (2 ^ (Reg.DRV_ATT_TIMEOUTS_COUNT a).w - 1)))))

/-- Preempts, the witness record, retiring a drive, a scrub pass, and rewriting the vault log (R298, R299, R404, R406, R407, R409, R517). -/
def Obligations.PreemptsWitnessesRetirementScrubAndTheVaultLog : Prop :=
  ∀ (s : State),
    (∀ prkey : DWord, prkey.toNat ≠ 0 →
      ∃ d : Dev, Machine.exec (.preempt prkey) s = .next { s with dev := d } ∧
        d.drv.queue.map (fun e => (e.1, e.2.op)) =
          s.dev.drv.queue.map (fun e => (e.1, e.2.op)) ++ (s.dev.sharedAtts.filter (fun a => s.dev.isOn (.att a))).map (fun a => (a, 0x11)) ∧
        (d.flag Reg.DRV_STS_PREEMPT_BUSY = true ↔ s.dev.sharedAtts.filter (fun a => s.dev.isOn (.att a)) ≠ []) ∧ d.drv.preBeat = s.dev.beat ∧
        d = { s.dev with drv := d.drv, fields := d.fields }) ∧
    (s.dev.flag Reg.DRV_STS_PREEMPT_BUSY = false ∨ s.dev.since s.dev.drv.preBeat < s.dev.fld Reg.DRV_PREEMPT_TIMEOUT →
      Machine.exec .preemptTimeout s = .next s) ∧
    (s.dev.flag Reg.DRV_STS_PREEMPT_BUSY = true → s.dev.fld Reg.DRV_PREEMPT_TIMEOUT ≤ s.dev.since s.dev.drv.preBeat →
      ∃ d : Dev, Machine.exec .preemptTimeout s = .next { s with dev := d } ∧ d.flag Reg.DRV_STS_PREEMPT_BUSY = false ∧
        (∀ a ∈ s.dev.preOpen, (tget {} d.drv.pre a).result = 3) ∧ (∀ a, a ∉ s.dev.preOpen → tget {} d.drv.pre a = tget {} s.dev.drv.pre a)) ∧
    (∀ old new : List Byte,
      (s.dev.flag Reg.DRV_WIT_CFG_VALID = false →
        ∃ d : Dev, Machine.exec (.witnessCompareAndWrite old new) s = .next { s with dev := d } ∧ d.drv.queue = s.dev.drv.queue ∧
          (∀ i, i < 3 → tget 0 d.drv.wit i = 2 + 1) ∧ d.raised.length = s.dev.raised.length + 3) ∧
      (s.dev.flag Reg.DRV_WIT_CFG_VALID = true → (∀ i, i < 3 → s.dev.isOn (.att (s.dev.fld (Reg.DRV_WIT_CFG_WIT i))) = true) →
        ∃ d : Dev, Machine.exec (.witnessCompareAndWrite old new) s = .next { s with dev := d } ∧ d.drv.wit = [] ∧
          d.drv.queue.map (fun e => (e.1, e.2.req)) = s.dev.drv.queue.map (fun e => (e.1, e.2.req)) ++
            [(s.dev.fld (Reg.DRV_WIT_CFG_WIT 0), .witness 0), (s.dev.fld (Reg.DRV_WIT_CFG_WIT 1), .witness 1),
             (s.dev.fld (Reg.DRV_WIT_CFG_WIT 2), .witness 2)] ∧ d = { s.dev with drv := d.drv })) ∧
    (∀ a : Nat, a < 128 →
      (s.dev.flag (Reg.DRV_ATT_STS_RETIRED a) = false →
        (s.dev.expired (tmRetire a) (s.dev.fld Reg.DRV_REBUILD_DELAY_BEATS) = true → s.dev.isOn (.att a) = false →
          ∃ d : Dev, Machine.exec (.retireTimerExpire a) s = .next { s with dev := d } ∧ s.dev.Retires d a) ∧
        (∃ d : Dev, Machine.exec (.retireWrite a true) s = .next { s with dev := d } ∧ s.dev.Retires d a) ∧
        Machine.exec (.retireWrite a false) s = .next { s with dev := s.dev.setFld (Reg.DRV_ATT_CTL_RETIRE a) 0 }) ∧
      (s.dev.expired (tmRetire a) (s.dev.fld Reg.DRV_REBUILD_DELAY_BEATS) = false ∨ s.dev.isOn (.att a) = true →
        Machine.exec (.retireTimerExpire a) s = .next s) ∧
      (s.dev.flag (Reg.DRV_ATT_STS_RETIRED a) = true → s.dev.flag (Reg.DRV_ATT_STS_REBUILT a) = false →
        Machine.exec (.retireWrite a false) s = .next s) ∧
      (s.dev.flag (Reg.DRV_ATT_STS_RETIRED a) = true → s.dev.flag (Reg.DRV_ATT_STS_REBUILT a) = true →
        ∃ d : Dev, Machine.exec (.retireWrite a false) s = .next { s with dev := d } ∧ d.flag (Reg.DRV_ATT_STS_RETIRED a) = false ∧
          d.flag (Reg.DRV_ATT_CTL_RETIRE a) = false ∧ (∀ e ∈ d.drv.used, e.1 / 2 ^ 32 ≠ a) ∧
          d.fld (Reg.DRV_ATT_FREE_FREE a) = s.dev.fld (Reg.DRV_ATT_STRIPS_TOTAL a) ∧ d = { s.dev with drv := d.drv, fields := d.fields })) ∧
    (∀ found : List (List StripRead),
      (s.dev.flag Reg.GLB_LAY_SCRUB_EN = false ∨ s.dev.cal.pwrfail = true → Machine.exec (.scrub found) s = .next s)) ∧
    (s.dev.flag Reg.GLB_LAY_SCRUB_EN = true → s.dev.cal.pwrfail = false →
      Machine.exec (.scrub []) s = .next { s with dev :=
        ({ s.dev with lay := { s.dev.lay with scrubCredit := s.dev.lay.scrubCredit + s.dev.fld Reg.GLB_LAY_SCRUB_RATE } }) } ∧
      ∀ (seg : Nat) (x : SegDesc) (cols : List StripRead), s.dev.lay.repair = [] → s.dev.scrubList = [seg] → s.dev.isOn (.slice (seg % 8)) = true →
        s.dev.flag (Reg.SLI_ECU_STS_FAULT (seg % 8)) = false →
        s.dev.fld Reg.GLB_LAY_SCRUB_POS_SEGMENT ≤ seg → s.dev.segDesc seg = some x →
        x.k + x.m ≤ s.dev.lay.scrubCredit + s.dev.fld Reg.GLB_LAY_SCRUB_RATE → x.m < cols.length → (∀ c ∈ cols, c = .unreachable) →
        ∃ d : Dev, Machine.exec (.scrub [cols]) s = .next { s with dev := d } ∧ d.fld Reg.GLB_LAY_SCRUB_POS_SEGMENT = 0 ∧
          d.lay.scrubCredit + (x.k + x.m) = s.dev.lay.scrubCredit + s.dev.fld Reg.GLB_LAY_SCRUB_RATE ∧
          (d.raised.drop s.dev.raised.length).map (·.src) = [sliceSrc (x.seg % 8) 19, 20, 21] ∧ d.mde = s.dev.mde) ∧
    (s.dev.rewriteDue = none ∨ s.dev.vaultMay = false ∨ s.dev.vaultsOn = [] → Machine.exec .vaultLogRewrite s = .next s) ∧
    (∀ r : VRec, s.dev.rewriteDue = some r → s.dev.vaultMay = true → s.dev.vaultsOn ≠ [] →
      ∃ (d : Dev) (at_ : List (Nat × Nat)), Machine.exec .vaultLogRewrite s = .next { s with dev := d } ∧ d.mem.vseq = s.dev.mem.vseq + 1 ∧
        d.mem.live = s.dev.mem.live.filter (fun x => decide (x ≠ r)) ++ [{ r with at_ := at_, write := s.dev.mem.next }] ∧
        at_.map (·.1) = s.dev.vaultsOn ∧ (d.kslot vaultSlot).counter = (s.dev.kslot vaultSlot).counter + 1)

/-- What register writes, doorbells, request bytes and the counters' own acts do (R5, R7, R57, R529, R535, R537, R584, R588, R590, R593, R594, R597). -/
def Obligations.RegisterWritesMailboxBuffersAndCounters : Prop :=
  ∀ (s : State),
    (∀ (bar : Bar) (off size : Nat) (v : DWord),
      ((size ≠ 4 ∨ off % 4 ≠ 0) ∧ (size ≠ 8 ∨ off % 8 ≠ 0) ∨ bar = .bar4 → ∀ race : DWord, Machine.exec (.registerWrite bar off size ⟨v, race⟩) s = .next s) ∧
      (off % 8 = 0 → ∃ d : Dev,
        Machine.exec (.registerWrite bar off 4 ⟨BitVec.ofNat 64 (v.toNat % 2 ^ 32), 0⟩) s = .next { s with dev := d } ∧
        Machine.exec (.registerWrite bar off 8 ⟨v, 0⟩) s =
          Machine.exec (.registerWrite bar (off + 4) 4 ⟨BitVec.ofNat 64 (v.toNat / 2 ^ 32), 0⟩) { s with dev := d })) ∧
    (∀ (off : Nat) (v : Word), off % 4 = 0 → off < 0x400_0000 → edgeReg off = true →
      Machine.exec (.registerWrite .bar0 off 4 ⟨BitVec.ofNat 64 v.toNat, 0⟩) s =
        .next { s with dev := { s.dev with edge := s.dev.edge ++ [.write off v.toNat] } }) ∧
    (∀ (sl : Nat) (v : Word), sl < 8 →
      Machine.exec (.registerWrite .bar0 (0x200_0000 + sl * 0x20_0000) 4 ⟨BitVec.ofNat 64 v.toNat, 0⟩) s = Machine.exec (.unitEnWrite (.slice sl) v) s) ∧
    (∀ p : Nat, p < 32 →
      (∃ d : Dev, Machine.exec (.registerWrite .bar0 (0x0C0_1004 + p * 0x40) 4 ⟨0x4, 0⟩) s = .next { s with dev := d } ∧
        d.flag (Reg.DRV_PORT_STS_PERST_REFUSED p) = false ∧
        d.fld (Reg.DRV_PORT_STS_PERST_ASSERTED p) = s.dev.fld (Reg.DRV_PORT_STS_PERST_ASSERTED p) % 2 ∧
        d.fld (Reg.DRV_PORT_STS_VAULT p) = s.dev.fld (Reg.DRV_PORT_STS_VAULT p) % 2 ∧ d = { s.dev with fields := d.fields }) ∧
      (∃ d : Dev, Machine.exec (.registerWrite .bar0 (0x0C0_1004 + p * 0x40) 4 ⟨0x4, 0x4⟩) s = .next { s with dev := d } ∧
        d.fld (Reg.DRV_PORT_STS_PERST_REFUSED p) = s.dev.fld (Reg.DRV_PORT_STS_PERST_REFUSED p) % 2 ∧ d = { s.dev with fields := d.fields })) ∧
    (∀ c : Nat, c < 8 →
      (∀ seq : Word, (∃ d : Dev, Machine.exec (.doorbell c seq) s = .next { s with dev := d } ∧
        .doorbell c seq.toNat ∈ d.edge ∧ (∀ n, .doorbell c n ∈ d.edge → n = seq.toNat) ∧
        (∀ x, (∀ n, x ≠ .doorbell c n) → (x ∈ d.edge ↔ x ∈ s.dev.edge)) ∧ d = { s.dev with edge := d.edge }) ∧
        (∀ d : Dev, d = s.dev.edgeAct (.doorbell c seq.toNat) →
          (s.dev.fld (Reg.MBX_STS_STATE c) = 1 ∨ s.dev.fld (Reg.MBX_STS_STATE c) = 2 →
            d.flag (Reg.MBX_STS_DB_LOST c) = true ∧ d.raised = s.dev.raised ++ [⟨1868, eventCode 1868, c, seq.toNat, 0, s.dev.beat⟩]) ∧
          (s.dev.fld (Reg.MBX_STS_STATE c) ≠ 1 → s.dev.fld (Reg.MBX_STS_STATE c) ≠ 2 →
            d.fld (Reg.MBX_STS_STATE c) = 1 ∧ d.fld (Reg.MBX_DB_SEQ c) = seq.toNat ∧ d.raised = s.dev.raised))) ∧
      (∀ (o : Nat) (bs : List Byte), o < 0x1_0000 →
        (0x1000 < o + bs.length → Machine.exec (.requestBufferWrite (c * 0x1_0000 + o) bs) s = .next s) ∧
        (o + bs.length ≤ 0x1000 → s.dev.fld (Reg.MBX_STS_STATE c) = 1 ∨ s.dev.fld (Reg.MBX_STS_STATE c) = 2 →
          Machine.exec (.requestBufferWrite (c * 0x1_0000 + o) bs) s = .next { s with dev := s.dev.setFld (Reg.MBX_STS_WR_LOST c) 1 }) ∧
        (o + bs.length ≤ 0x1000 → s.dev.fld (Reg.MBX_STS_STATE c) ≠ 1 → s.dev.fld (Reg.MBX_STS_STATE c) ≠ 2 →
          ∃ d : Dev, Machine.exec (.requestBufferWrite (c * 0x1_0000 + o) bs) s = .next { s with dev := d } ∧
            readBytes d.mbx.mem (c * 0x1_0000 + o) bs.length = bs ∧
            (∀ a, a < c * 0x1_0000 + o ∨ c * 0x1_0000 + o + bs.length ≤ a → readByte d.mbx.mem a = readByte s.dev.mbx.mem a) ∧
            d = { s.dev with mbx := d.mbx }))) ∧
    (∀ b n : Nat, b < 9 → n < 8 →
      (s.dev.pmcRuns b n = false → Machine.exec (.counterOverflow b n) s = .next s) ∧
      (s.dev.pmcRuns b n = true → s.dev.pmcHigh b n = false → s.dev.pmcLow b n = false → s.dev.fld Reg.GLB_MODE_MODE = 0 →
        s.dev.fld (Reg.PMC_CFG_EVENT b n) ∈ pmcEvents b → s.dev.fld (Reg.PMC_CNT_COUNT b n) < 2 ^ 32 →
        ∃ d : Dev, Machine.exec (.counterOverflow b n) s = .next { s with dev := d } ∧
          d.fld (Reg.PMC_CNT_COUNT b n) = (if s.dev.flag (Reg.PMC_CFG_SAMPLE b n) then s.dev.fld (Reg.PMC_RELOAD_RELOAD b n) % 2 ^ 32 else 0) ∧
          Nat.testBit (d.fld (Reg.PMC_BLK_STS_OVF b)) n = true ∧ (d.raised.getLast?).map (·.src) = some (1992 + b) ∧
          d.raised.length = s.dev.raised.length + 1) ∧
      (∀ v : Word,
        Machine.exec (.counterWrite b n v false) s = .next { s with dev := s.dev.setFld (Reg.PMC_CNT_COUNT b n) v.toNat } ∧
        (s.dev.pmcRuns b (if s.dev.pmcHigh b n then n - 1 else n) = false →
          Machine.exec (.counterWrite b n v true) s = .next { s with dev := s.dev.setFld (Reg.PMC_CNT_COUNT b n) v.toNat }) ∧
        (s.dev.pmcHigh b n = false → s.dev.pmcRuns b n = true → s.dev.fld Reg.GLB_MODE_MODE = 0 →
          ∃ d : Dev, Machine.exec (.counterWrite b n v true) s = .next { s with dev := d } ∧ d.fld (Reg.PMC_CNT_COUNT b n) = v.toNat ∧
            Nat.testBit (d.fld (Reg.PMC_BLK_STS_LOST_CARRY b)) n = true ∧ d = { s.dev with fields := d.fields })) ∧
      ((∀ x ∈ s.dev.pmc.due, x.1 ≠ b) → Machine.exec (.sampleDeliver b) s = .next s) ∧
      (∀ stamp : Nat, s.dev.pmc.due = [(b, n, stamp)] →
        (s.dev.flag (Reg.PMC_SMP_STS_SAMPLE_VALID b) = true →
          ∃ d : Dev, Machine.exec (.sampleDeliver b) s = .next { s with dev := d } ∧ d.pmc.due = [] ∧ d.raised = s.dev.raised ∧
            d.fld (Reg.PMC_SMP_STS_SAMPLE_LOST b) = min (s.dev.fld (Reg.PMC_SMP_STS_SAMPLE_LOST b) + 1) (2 ^ 8 - 1)) ∧
        (s.dev.flag (Reg.PMC_SMP_STS_SAMPLE_VALID b) = false →
          ∃ d : Dev, Machine.exec (.sampleDeliver b) s = .next { s with dev := d } ∧ d.pmc.due = [] ∧
            d.flag (Reg.PMC_SMP_STS_SAMPLE_VALID b) = true ∧ d.fld (Reg.PMC_SMP_STS_COUNTER b) = n ∧
            d.fld (Reg.PMC_SMP_OVF_OVF_BEAT b) = stamp % 2 ^ 64 ∧ d.fld (Reg.PMC_SMP_DLV_DLV_BEAT b) = s.dev.beat % 2 ^ 64 ∧
            (d.raised.getLast?).map (·.src) = some (2001 + b))) ∧
      (∃ d : Dev, Machine.exec .counterSnapshot s = .next { s with dev := d } ∧
        d.fld (Reg.PMC_SNAP_CNT_COUNT b n) = s.dev.fld (Reg.PMC_CNT_COUNT b n) % 2 ^ 32 ∧ d.fld (Reg.PMC_SNAP_EPOCH_EPOCH b) = s.dev.epoch % 2 ^ 64 ∧
        d.fld (Reg.PMC_SNAP_CYCLE_CYCLE b) = s.dev.pmc.cycles % 2 ^ 64 ∧
        d.fld (Reg.PMC_CNT_COUNT b n) = s.dev.fld (Reg.PMC_CNT_COUNT b n) ∧ d = { s.dev with fields := d.fields }))

/-- The Fissure pins, power-on reset, the boot ROM, the start-up steps and restarts of the steward (R601, R606, R610, R611, R615, R616, R617, R618, R619, R557, R558, R647). -/
def Obligations.PinsResetBootAndStartUp : Prop :=
  ∀ (s : State),
    (s.dev.fld Reg.FIS_STS_PHASE ≠ 0 ∨ s.dev.flag Reg.FIS_STS_STRAP_BAD = true ∨ s.dev.fis.switchAt ≠ 0 ∨ s.dev.steward ≠ stRunning →
      Machine.exec .service s = .next s) ∧
    (s.dev.fld Reg.FIS_STS_PHASE = 0 → s.dev.flag Reg.FIS_STS_STRAP_BAD = false → s.dev.fis.switchAt = 0 → s.dev.steward = stRunning →
      ∃ d : Dev, Machine.exec .service s = .next { s with dev := d } ∧ d.fld Reg.FIS_STS_PHASE = 0 ∧
        d.fis = { s.dev.fis with switchAt := s.dev.edges + 2, toProbe := false } ∧ .switching ∈ d.edge ∧
        d = { s.dev with fis := d.fis, fields := d.fields, edge := d.edge }) ∧
    ((s.dev.edgeAct .switching).flag Reg.FIS_STS_SWITCHING = true) ∧
    (∀ levels : Nat,
      (s.dev.fis.switchAt = 0 ∨ s.dev.edges + 1 < s.dev.fis.switchAt + 16 → Machine.exec (.phaseChangeDone levels) s = .next s) ∧
      (s.dev.fis.switchAt ≠ 0 → s.dev.fis.switchAt + 16 ≤ s.dev.edges + 1 →
        (s.dev.fis.toProbe = true → ∃ d : Dev, Machine.exec (.phaseChangeDone levels) s = .next { s with dev := d } ∧ d.fld Reg.FIS_STS_PHASE = 2 ∧
          d.flag Reg.FIS_STS_SWITCHING = false ∧ d.fis.switchAt = 0 ∧ (d.raised.getLast?).map (·.src) = some 27) ∧
        (s.dev.fis.toProbe = false → Nat.testBit (levels % 2 ^ 16) 6 = true →
          ∃ d : Dev, Machine.exec (.phaseChangeDone levels) s = .next { s with dev := d } ∧ d.fld Reg.FIS_STS_PHASE = 1 ∧
            d.flag Reg.FIS_STS_SWITCHING = false ∧ d.fis.switchAt = 0 ∧ d.flag Reg.FOV_STS_PULSE_IN = Nat.testBit (levels % 2 ^ 16) 1 ∧
            d.flag Reg.FOV_STS_CLAIM_IN = Nat.testBit (levels % 2 ^ 16) 3 ∧ d.flag Reg.FIS_STS_BUTTON = !(Nat.testBit (levels % 2 ^ 16) 13) ∧
            d.cal.holdupOk = Nat.testBit (levels % 2 ^ 16) 7 ∧ d.flag Reg.FOV_STS_FENCE_IN = Nat.testBit (levels % 2 ^ 16) 5 ∧
            d.raised = s.dev.raised ++ [⟨27, eventCode 27, s.dev.fld Reg.FIS_STS_PHASE % 2 ^ 32, 1, 0, s.dev.beat⟩]))) ∧
    (s.dev.fld Reg.FIS_STS_PHASE ≠ 1 → Machine.exec .ledShift s = .next s ∧ ∀ b : Bool, Machine.exec (.serviceButtonPress b) s = .next s) ∧
    (s.dev.fld Reg.FIS_STS_PHASE = 1 →
      (s.dev.flag Reg.FIS_STS_SWITCHING = false → 1 ≤ s.dev.fld Reg.FIS_LED_CFG_LEN → s.dev.fld Reg.FIS_LED_CFG_LEN ≤ 32 →
        ∃ bits : List Bool, Machine.exec .ledShift s = .next { s with dev := { s.dev with out := s.dev.out ++ [.led bits] } } ∧
          bits.length = s.dev.fld Reg.FIS_LED_CFG_LEN ∧
          ∀ i, i < bits.length → bits[i]? = some (Nat.testBit (s.dev.fld Reg.FIS_LED_DATA_DATA) (bits.length - 1 - i))) ∧
      (s.dev.flag Reg.FIS_STS_BUTTON = true → Machine.exec (.serviceButtonPress true) s = .next s) ∧
      (s.dev.flag Reg.FIS_STS_BUTTON = false → ∃ d : Dev, Machine.exec (.serviceButtonPress true) s = .next { s with dev := d } ∧
        d.flag Reg.FIS_STS_BUTTON = true ∧ d.fis.pressed = s.dev.edges + 1 ∧ d.raised = s.dev.raised ++ [⟨30, eventCode 30, 0, 0, 0, s.dev.beat⟩]) ∧
      (∃ d : Dev, Machine.exec (.serviceButtonPress false) s = .next { s with dev := d } ∧ d.flag Reg.FIS_STS_BUTTON = false ∧
        d.fis.pressed = 0 ∧ d.raised = s.dev.raised)) ∧
    (∃ d : Dev, Machine.exec .powerOnReset s = .next { s with dev := d } ∧ (∀ f : Fld, d.fld f = f.reset) ∧ d.beat = 0 ∧ d.raised = [] ∧
      d.cal = {} ∧ d.xpt = {} ∧ d.mde = {} ∧ d.drv = {} ∧ d.fov = {} ∧ d.key = {} ∧ d.ram = [] ∧ d.sec.fuses = s.dev.sec.fuses ∧ d.upd.slots = s.dev.upd.slots ∧
      d.fum.nor = s.dev.fum.nor ∧ d.mbx.kek = s.dev.mbx.kek ∧ d.nvt.subsys = s.dev.nvt.subsys) ∧
    (∀ value dir : Nat,
      (s.dev.flag Reg.FUM_STS_SEQ_LOADED = true ∨ s.dev.steward ≠ stBoot → Machine.exec (.bootRomStart value dir) s = .next s) ∧
      (s.dev.flag Reg.FUM_STS_SEQ_LOADED = false → s.dev.steward = stBoot →
        ∃ d : Dev, Machine.exec (.bootRomStart value dir) s = .next { s with dev := d } ∧ d.fld Reg.FIS_STRAP_VALUE = value % 2 ^ 16 ∧
          d.fld Reg.FIS_STRAP_DIR = dir % 2 ^ 16 ∧ d.fld Reg.KEY_STS_HEAD = value % 2 ∧ d.flag Reg.FUM_STS_SEQ_LOADED = true ∧
          d.flag Reg.FIS_STS_STRAP_BAD = strapBad (value % 2 ^ 16) (dir % 2 ^ 16) ∧
          (∀ p ∈ vaultPorts (value / 2 ^ 6 % 4), d.flag (Reg.DRV_PORT_STS_VAULT p) = true))) ∧
    (∀ card : Option (List Byte),
      (s.dev.steward ≠ stBoot ∨ s.dev.flag Reg.FUM_STS_SEQ_LOADED = false ∨ s.dev.bootSrc = 3 → Machine.exec (.bootImageVerify card) s = .next s) ∧
      (s.dev.steward = stBoot → s.dev.flag Reg.FUM_STS_SEQ_LOADED = true → s.dev.bootSrc ≠ 3 →
        ∃ d : Dev, Machine.exec (.bootImageVerify card) s = .next { s with dev := d } ∧ d.flag Reg.UPD_BOOT_SEL_VALID = false ∧
          match (s.dev.tryBoot card (s.dev.bootCands card)).1 with
          | none => d.steward = stHalted ∧ (d.raised.getLast?).map (·.src) = some 1866 ∧ d.fis = s.dev.fis
          | some n => d.steward = stRunning ∧ d.fis.step = 1 ∧
              d.fld Reg.UPD_REL_RUN_REL = pkgRel (s.dev.bootCand card n) % 2 ^ 32)) ∧
    (s.dev.fis.step = 0 ∨ s.dev.steward ≠ stRunning ∨ s.dev.stepOver s.dev.fis.step = false → Machine.exec .startUpStepDone s = .next s) ∧
    (s.dev.steward = stRunning → s.dev.stepOver s.dev.fis.step = true →
      (s.dev.fis.step = 13 → Machine.exec .startUpStepDone s = .next { s with dev := { s.dev with fis := { s.dev.fis with step := 0 } } }) ∧
      (1 ≤ s.dev.fis.step → s.dev.fis.step ≤ 12 → ∃ d : Dev, Machine.exec .startUpStepDone s = .next { s with dev := d } ∧
        d.fis.step = s.dev.fis.step + 1 ∧
        (s.dev.fis.step = 6 → EdgeAct.write 0x030 3 ∈ d.edge ∧ ∀ sl, sl < 8 → d.flag (Reg.SLI_CTL_EN sl) = true) ∧
        (s.dev.fis.step = 12 → EdgeAct.write 0x030 0 ∈ d.edge))) ∧
    (max (s.dev.fld Reg.MBX_WDOG_TIMEOUT) (2 ^ 20) ≤ s.dev.since (s.dev.fld Reg.MBX_KICK_BEAT) →
      Machine.exec .watchdogExpire s = .next { s with dev := s.dev.edgeAct (.stewardRestart 0) }) ∧
    (s.dev.since (s.dev.fld Reg.MBX_KICK_BEAT) < max (s.dev.fld Reg.MBX_WDOG_TIMEOUT) (2 ^ 20) → Machine.exec .watchdogExpire s = .next s) ∧
    (∃ d : Dev, Machine.exec .firmwareFault s = .next { s with dev := d } ∧ .stewardRestart 3 ∈ d.edge ∧ d = { s.dev with edge := d.edge }) ∧
    (∀ (cause : Nat) (d : Dev), d = s.dev.edgeAct (.stewardRestart cause) →
      (s.dev.steward ≠ stRunning → d = s.dev) ∧
      (s.dev.steward = stRunning → d.steward = stRestarting ∧
        d.mbx.restart = some (cause, s.dev.beat) ∧ d.fld Reg.MBX_GLB_STS_RESTARTS = min (s.dev.fld Reg.MBX_GLB_STS_RESTARTS + 1) (2 ^ 8 - 1)))

/-- What each replication message, and each wait of a session, does to the session (R420, R423, R424, R425, R426, R427, R428, R429, R430, R431, R432). -/
def Obligations.ReplicationSessionsFollowTheirMessages : Prop :=
  ∀ (q : Nat) (m : List Byte) (s : State),
    (∀ (loads : List (Nat × Option (List (List Byte)))) (found : List (Bool × List Byte)) (c : Instr) (typ : Nat) (tgt : Bool),
      (c, typ, tgt) ∈ ([(.extents q m loads, 3, true), (.need q m found, 4, false), (.grains q m, 5, true), (.windowAck q m, 6, false),
        (.commit q m, 7, true), (.commitAck q m, 8, false)] : List (Instr × Nat × Bool)) →
      ((s.dev.sessOf q = none ∨ ∃ i, s.dev.sessOf q = some i ∧ (s.dev.sess i).state = .suspended) →
        ∃ d : Dev, Machine.exec c s = .next { s with dev := d } ∧ d = { s.dev with xpt := d.xpt }) ∧
      (∀ i, s.dev.sessOf q = some i → (s.dev.sess i).state ≠ .suspended → s.dev.repInOrder q typ i m tgt = false →
        ∃ d : Dev, Machine.exec c s = .next { s with dev := d } ∧ (d.sess i).state = .failed ∧
          (d.sess i).reason = (if repWf typ m = true ∧ leField m 2 1 ≠ 1 then rcVersion else rcBadMessage) ∧
          ⟨982, eventCode 982, i % 2 ^ 32, (d.sess i).reason, 0, s.dev.beat⟩ ∈ d.raised ∧ (d.sess i).mr = none)) ∧
    (s.dev.sessOf q = none → Machine.exec (.openAck q m) s = .next s ∧ Machine.exec (.repAbort q m) s = .next s) ∧
    (repWf 1 m = true → leField m 16 8 = 0 →
      (leField m 2 1 ≠ 1 ∨ s.dev.rep.sess.find? (fun e => e.2.target && decide (e.2.session = leField m 8 8)) = none →
        ∃ d : Dev, Machine.exec (.open_ q m) s = .next { s with dev := d } ∧ d.rep = s.dev.rep) ∧
      (∀ i base k, leField m 2 1 = 1 → (s.dev.rep.sess.find? (fun e => e.2.target && decide (e.2.session = leField m 8 8))).map (·.1) = some i →
        (s.dev.sess i).mr = none → s.dev.openResult i m = rcOk → s.dev.repWindowBase (s.dev.sess i).want = some base →
        (List.range 1024).find? (fun k => decide ((s.dev.region k).state = .free)) = some k →
        ∃ d : Dev, Machine.exec (.open_ q m) s = .next { s with dev := d } ∧ (d.sess i).state = .streaming ∧ (d.sess i).qp = q ∧
          (d.sess i).mr = some k ∧ (d.sess i).base = base ∧ (d.sess i).newGen = leField m 48 8 ∧ (d.region k).state = .valid ∧ (d.region k).base = base)) ∧
    (∀ i, s.dev.sessOf q = some i →
      (s.dev.repInOrder q 6 i m false = true → (s.dev.sess i).sendQ = [] →
        ∃ d : Dev, Machine.exec (.windowAck q m) s = .next { s with dev := d } ∧ (d.sess i).rxSeq = (s.dev.sess i).rxSeq + 1 ∧
          (d.sess i).slots = (s.dev.sess i).slots ++ (List.range (leField m 32 2)).map (fun k => leField m (40 + 2 * k) 2)) ∧
      (s.dev.repInOrder q 8 i m false = true → (s.dev.sess i).state = .committing → leField m 32 2 = rcOk →
        ((s.dev.sess i).final = true → ∃ d : Dev, Machine.exec (.commitAck q m) s = .next { s with dev := d } ∧ (d.sess i).state = .done ∧
          (d.sess i).cursor = 0 ∧ (d.raised.getLast?).map (·.src) = some 980) ∧
        ((s.dev.sess i).final = false → ∃ d : Dev, Machine.exec (.commitAck q m) s = .next { s with dev := d } ∧ (d.sess i).state = .streaming ∧
          (d.sess i).cursor = leField m 40 8 % 2 ^ 40 ∧ (d.sess i).batch = (s.dev.sess i).batch + 1 ∧ (d.sess i).batched = false)) ∧
      (s.dev.repInOrder q 7 i m true = true → (s.dev.sess i).state = .streaming →
        (s.dev.repDurable i = false → ∃ d : Dev, Machine.exec (.commit q m) s = .next { s with dev := d } ∧ (d.sess i).commit = true ∧
          (d.sess i).nextKey = leField m 40 8 % 2 ^ 40 ∧ (d.sess i).cursor = (s.dev.sess i).cursor ∧ d.xpt = s.dev.xpt) ∧
        (s.dev.repDurable i = true → leField m 36 4 % 2 = 0 → ∃ d : Dev, Machine.exec (.commit q m) s = .next { s with dev := d } ∧
          (d.sess i).commit = false ∧ (d.sess i).cursor = leField m 40 8 % 2 ^ 40 ∧ (d.sess i).batch = (s.dev.sess i).batch + 1 ∧
          (d.sess i).state = .streaming)) ∧
      (∀ loads, s.dev.repInOrder q 3 i m true = true →
        ∃ d : Dev, Machine.exec (.extents q m loads) s = .next { s with dev := d } ∧
          (d.sess i).ents = (s.dev.sess i).ents ++ (List.range (leField m 36 2)).map (repEntOf m) ∧
          (leField m 36 2 = 1 → (repEntOf m 0).zero = true →
            ∃ r ∈ d.mde.inserts, r.body = .insert (s.dev.sess i).dstVol (repEntOf m 0).key 0 false true)) ∧
      (∀ found e, s.dev.repInOrder q 4 i m false = true → (s.dev.sess i).slots = [] →
        (s.dev.sess i).exts.find? (fun e => decide (e.1 = leField m 32 8)) = some e → leField m 32 8 ≠ 0 →
        ∃ d : Dev, Machine.exec (.need q m found) s = .next { s with dev := d } ∧
          (d.sess i).exts = (s.dev.sess i).exts.filter (fun e => decide (e.1 ≠ leField m 32 8)) ∧
          (d.sess i).sendQ.map (·.1) = (s.dev.sess i).sendQ.map (·.1) ++
            (((List.range (leField m 40 2)).filter (fun k => decide (leNat (m.drop 48) / 2 ^ k % 2 = 1))).map (fun k => e.2.1 + k)).take found.length) ∧
      (∀ ent, s.dev.repInOrder q 5 i m true = true → (s.dev.sess i).state = .streaming → leField m 32 2 = 1 →
        (s.dev.sess i).ents[leField m 40 4]? = some ent →
        ∃ d : Dev, Machine.exec (.grains q m) s = .next { s with dev := d } ∧
          (let bs := s.dev.repGrain (s.dev.sess i) (leField m 44 2) (leField m 46 1) (leField m 48 4) (keyBytes ent.key)
           if bs.length = keyBytes ent.key ∧ fingerprint bs = ent.fp then
             ∃ c : HostCmd, (d.slice (home (s.dev.sess i).qp)).waiting = (s.dev.slice (home (s.dev.sess i).qp)).waiting ++ [c] ∧ c.opcode = opWrite ∧
               c.nsid = (s.dev.sess i).dstVol ∧ c.data = bs ∧ c.rep = some (i, leField m 44 2)
           else ⟨983, eventCode 983, i % 2 ^ 32, leField m 40 4 % 2 ^ 32, 0, s.dev.beat⟩ ∈ d.raised)) ∧
      ((s.dev.sess i).state = .opening → (s.dev.sess i).target = false → repWf 2 m = true → leField m 2 1 = 1 →
        leField m 8 8 = (s.dev.sess i).session → leField m 16 8 = 0 →
        (leField m 36 2 = rcOk → ∃ d : Dev, Machine.exec (.openAck q m) s = .next { s with dev := d } ∧ (d.sess i).state = .streaming ∧
          (d.sess i).cursor = leField m 48 8 % 2 ^ 40 ∧ (d.sess i).batch = leField m 56 4 ∧ (d.sess i).base = leField m 64 8 ∧
          (d.sess i).slots = List.range (leField m 72 4)) ∧
        (leField m 36 2 = rcNotOwner → (s.dev.sess i).other = false → ∃ d : Dev, Machine.exec (.openAck q m) s = .next { s with dev := d } ∧
          (d.sess i).other = true ∧ (d.sess i).opened = false ∧ (d.sess i).state = .opening) ∧
        (leField m 36 2 ≠ rcOk → leField m 36 2 ≠ rcNotOwner ∨ (s.dev.sess i).other = true →
          ∃ d : Dev, Machine.exec (.openAck q m) s = .next { s with dev := d } ∧ (d.sess i).state = .failed ∧ (d.sess i).reason = leField m 36 2)) ∧
      (repWf 9 m = true → leField m 8 8 = (s.dev.sess i).session → leField m 16 8 = (s.dev.sess i).rxSeq + 1 →
        ∃ d : Dev, Machine.exec (.repAbort q m) s = .next { s with dev := d } ∧ (d.sess i).state = .failed ∧ (d.sess i).reason = leField m 32 2 ∧
          d.xpt = s.dev.xpt)) ∧
    (∀ i : Nat,
      ((s.dev.sess i).state ≠ .streaming ∨ (s.dev.sess i).target = true ∨ (s.dev.sess i).batched = true ∨ (∃ n, (s.dev.sess i).diff = some (n + 1)) →
        Machine.exec (.repDiffBatch i) s = .next s) ∧
      ((s.dev.sess i).state = .streaming → (s.dev.sess i).target = false → (s.dev.sess i).batched = false →
        ((s.dev.sess i).diff = none → Machine.exec (.repDiffBatch i) s = .next { s with dev :=
          (s.dev.updSess i (fun x => { x with diff := some (s.dev.diffPlan (s.dev.sess i)).pairs })) }) ∧
        (∀ p : DiffPlan, (s.dev.sess i).diff = some 0 → p = s.dev.diffPlan (s.dev.sess i) → p.ready = true → (s.dev.sess i).exts = [] →
          (s.dev.sess i).sendQ = [] →
          (p.ents = [] → ∃ d : Dev, Machine.exec (.repDiffBatch i) s = .next { s with dev := d } ∧ (d.sess i).state = .committing ∧
            (d.sess i).final = p.final ∧ (d.sess i).ents = []) ∧
          (p.ents ≠ [] → p.ents.length ≤ 1024 → ∃ d : Dev, Machine.exec (.repDiffBatch i) s = .next { s with dev := d } ∧ (d.sess i).state = .streaming ∧
            (d.sess i).batched = true ∧ (d.sess i).ents = p.ents ∧ (d.sess i).exts = [((s.dev.sess i).txSeq + 1, 0, p.ents.length)]))) ∧
      ((s.dev.sess i).state ∉ [RepState.opening, .streaming, .committing] ∨
          s.dev.expired (tmRep i) (s.dev.fld Reg.MDE_REP_TIMEOUT_TIMEOUT) = false → Machine.exec (.repTimeout i) s = .next s) ∧
      ((s.dev.sess i).state ∈ [RepState.opening, .streaming, .committing] → s.dev.expired (tmRep i) (s.dev.fld Reg.MDE_REP_TIMEOUT_TIMEOUT) = true →
        ∃ d : Dev, Machine.exec (.repTimeout i) s = .next { s with dev := d } ∧ (d.sess i).state = .suspended ∧ (d.sess i).reason = rcTimeout ∧
          d.raised = s.dev.raised ++ [⟨981, eventCode 981, i % 2 ^ 32, 1, 0, s.dev.beat⟩]) ∧
      ((s.dev.sess i).state ≠ .suspended ∨ (s.dev.sess i).target = true ∨ s.dev.fld Reg.MDE_REP_RETRY_RETRY = 0 ∨
          s.dev.expired (tmRep i) (s.dev.fld Reg.MDE_REP_RETRY_RETRY) = false → Machine.exec (.repRetry i) s = .next s) ∧
      ((s.dev.sess i).state = .suspended → (s.dev.sess i).target = false → s.dev.fld Reg.MDE_REP_RETRY_RETRY ≠ 0 →
        s.dev.expired (tmRep i) (s.dev.fld Reg.MDE_REP_RETRY_RETRY) = true →
        ∃ d : Dev, Machine.exec (.repRetry i) s = .next { s with dev := d } ∧ (d.sess i).state = .opening ∧ (d.sess i).reason = 0))

/-- Lane starts, INIT, WIDTH and WIDTH_ACK records, and the timers of the peer link's states (R438, R439, R447, R448, R449, R450, R458, R463, R621). -/
def Obligations.TheLinkFollowsItsRecordsAndTimers : Prop :=
  ∀ (s : State),
    (∀ (l : Nat) (fail : Option Nat) (inv : Bool),
      (16 ≤ l ∨ s.dev.ustate (.lane l) ≠ .starting → Machine.exec (.laneStart l fail inv) s = .next s) ∧
      (l < 16 → s.dev.ustate (.lane l) = .starting →
        (∀ c, fail = some c → s.dev.canFail (.lane l) c = false → Machine.exec (.laneStart l fail inv) s = .next s) ∧
        (∀ c, fail = some c → s.dev.canFail (.lane l) c = true → ∃ d : Dev, Machine.exec (.laneStart l fail inv) s = .next { s with dev := d } ∧
          d.seqPend = tput .none s.dev.seqPend (48 + l) (.fail c) ∧ d.flag (Reg.CDX_LANE_STS_SIGNAL l) = decide (c ≠ 1) ∧
          d = { s.dev with fields := d.fields, seqPend := d.seqPend }) ∧
        (fail = none → ∃ d : Dev, Machine.exec (.laneStart l fail inv) s = .next { s with dev := d } ∧
          d.seqPend = tput .none s.dev.seqPend (48 + l) .done ∧ d.flag (Reg.CDX_LANE_STS_SIGNAL l) = true ∧
          d.flag (Reg.CDX_LANE_STS_INVERTED l) = inv ∧ d = { s.dev with fields := d.fields, seqPend := d.seqPend }) ∧
        (∀ c, s.dev.canFail (.lane l) c = true ↔
          c = 1 ∨ c = 4 ∨ c = 2 ∧ s.dev.expired (tmStart (.lane l)) (s.dev.fld Reg.CDX_LANE_CFG_LANE_TIMEOUT) = true))) ∧
    (∀ r : CtrlRec,
      (s.dev.fld Reg.CDX_STS_LINK ≠ 1 → Machine.exec (.initRecord r) s = .next s) ∧
      (s.dev.fld Reg.CDX_STS_LINK = 1 → s.dev.flag Reg.FIS_STS_SLOT_CONFLICT = false →
        (r.slot = s.dev.slotId → ∃ d : Dev, Machine.exec (.initRecord r) s = .next { s with dev := d } ∧ d.flag Reg.FIS_STS_SLOT_CONFLICT = true ∧
          d.fld Reg.CDX_STS_LINK = 1 ∧ (d.raised.getLast?).map (·.src) = some 29) ∧
        (r.slot ≠ s.dev.slotId → lanesChoice (Nat.land s.dev.lanesOk (r.lanesOk % 2 ^ 16)) = some (r.width, r.first) →
          (s.dev.cdx.inits + 1 < 8 → ∃ d : Dev, Machine.exec (.initRecord r) s = .next { s with dev := d } ∧
            d.cdx = { s.dev.cdx with inits := s.dev.cdx.inits + 1 } ∧ d.fld Reg.CDX_STS_LINK = 1) ∧
          (8 ≤ s.dev.cdx.inits + 1 → ∃ d : Dev, Machine.exec (.initRecord r) s = .next { s with dev := d } ∧ d.fld Reg.CDX_STS_LINK = 2 ∧
            d.fld Reg.CDX_STS_WIDTH = r.width ∧ d.fld Reg.CDX_STS_FIRST = r.first ∧ d.cdx.txNext = 0 ∧ d.cdx.rxNext = 0 ∧ d.cdx.rxAck = 0 ∧
            d.cdx.unacked = [] ∧ d.sync.measured = false ∧
            (d.fld Reg.GLB_SYNC_STS_ROLE = roleReference ∨ d.fld Reg.GLB_SYNC_STS_ROLE = roleFollower) ∧
            (r.epochLo < s.dev.epoch % 2 ^ 32 → d.fld Reg.GLB_SYNC_STS_ROLE = roleReference) ∧
            (s.dev.epoch % 2 ^ 32 < r.epochLo → d.fld Reg.GLB_SYNC_STS_ROLE = roleFollower)))) ∧
      (s.dev.linkSends = false → Machine.exec (.width r) s = .next s) ∧
      (s.dev.linkUp = true →
        (∀ w f, lanesChoice (Nat.land s.dev.lanesOk (r.lanesOk % 2 ^ 16)) = some (w, f) →
          ∃ d : Dev, Machine.exec (.width r) s = .next { s with dev := d } ∧ d.fld Reg.CDX_STS_LINK = 4 ∧
            d.cdx.txq = s.dev.cdx.txq ++ [.ctrl 3 w f 0] ++ (if r.width = w ∧ r.first = f then [.ctrl 4 w f 0] else [])) ∧
        (lanesChoice (Nat.land s.dev.lanesOk (r.lanesOk % 2 ^ 16)) = none →
          ∃ d : Dev, Machine.exec (.width r) s = .next { s with dev := d } ∧ d.fld Reg.CDX_STS_LINK = 0 ∧ d.cdx.txq = [] ∧
            d.raised = s.dev.raised ++ [⟨1617, eventCode 1617, 3, 0, 0, s.dev.beat⟩])) ∧
      (s.dev.fld Reg.CDX_STS_LINK ≠ 4 → Machine.exec (.widthAck r) s = .next s) ∧
      (s.dev.fld Reg.CDX_STS_LINK = 4 →
        (lanesChoice (Nat.land s.dev.lanesOk (r.lanesOk % 2 ^ 16)) = some (r.width, r.first) → s.dev.cdx.unacked = [] →
          ∃ d : Dev, Machine.exec (.widthAck r) s = .next { s with dev := d } ∧ d.fld Reg.CDX_STS_LINK = 3 ∧ d.fld Reg.CDX_STS_WIDTH = r.width ∧
            d.fld Reg.CDX_STS_FIRST = r.first ∧ d.armed tmResize = false) ∧
        (lanesChoice (Nat.land s.dev.lanesOk (r.lanesOk % 2 ^ 16)) ≠ some (r.width, r.first) →
          ∃ d : Dev, Machine.exec (.widthAck r) s = .next { s with dev := d } ∧ d.fld Reg.CDX_STS_LINK = 4 ∧ d = { s.dev with fields := d.fields }))) ∧
    (s.dev.fld Reg.CDX_STS_LINK ≠ 1 ∨ s.dev.expired tmNegotiate (2 ^ 14) = false ∨ s.dev.flag Reg.FIS_STS_SLOT_CONFLICT = true →
      Machine.exec .negotiateTimeout s = .next s) ∧
    (s.dev.fld Reg.CDX_STS_LINK = 1 → s.dev.expired tmNegotiate (2 ^ 14) = true → s.dev.flag Reg.FIS_STS_SLOT_CONFLICT = false →
      ∃ d : Dev, Machine.exec .negotiateTimeout s = .next { s with dev := d } ∧ d.fld Reg.CDX_STS_LINK = 0 ∧
        (d.raised.getLast?).map (·.src) = some 1619 ∧ d.raised.length = s.dev.raised.length + 1) ∧
    (s.dev.fld Reg.CDX_STS_LINK ≠ 4 ∨ s.dev.expired tmResize 512 = false → Machine.exec .resizeTimeout s = .next s) ∧
    (s.dev.fld Reg.CDX_STS_LINK = 4 → s.dev.expired tmResize 512 = true →
      ∃ d : Dev, Machine.exec .resizeTimeout s = .next { s with dev := d } ∧ d.fld Reg.CDX_STS_LINK = 0 ∧ d.cdx.unacked = [] ∧ d.cdx.txq = [] ∧
        d.fld Reg.CDX_DOWNS_COUNT = min (s.dev.fld Reg.CDX_DOWNS_COUNT + 1) (2 ^ 32 - 1) ∧
        d.raised = s.dev.raised ++ [⟨1617, eventCode 1617, 3, 0, 0, s.dev.beat⟩]) ∧
    (s.dev.fld Reg.CDX_STS_LINK ≠ 2 ∧ s.dev.fld Reg.CDX_STS_LINK ≠ 3 ∨
      s.dev.expired tmFlitLoss (s.dev.fld Reg.CDX_TIMERS_LOSS_TIMEOUT) = false → Machine.exec .lossTimeout s = .next s) ∧
    (s.dev.fld Reg.CDX_STS_LINK = 2 ∨ s.dev.fld Reg.CDX_STS_LINK = 3 →
      s.dev.expired tmFlitLoss (s.dev.fld Reg.CDX_TIMERS_LOSS_TIMEOUT) = true →
      ∃ d : Dev, Machine.exec .lossTimeout s = .next { s with dev := d } ∧ d.fld Reg.CDX_STS_LINK = 0 ∧ d.cdx.unacked = [] ∧ d.cdx.txq = [] ∧
        d.fld Reg.CDX_DOWNS_COUNT = min (s.dev.fld Reg.CDX_DOWNS_COUNT + 1) (2 ^ 32 - 1) ∧
        d.raised = s.dev.raised ++ [⟨1617, eventCode 1617, 2, 0, 0, s.dev.beat⟩]) ∧
    (s.dev.linkChoice = none ∨ s.dev.linkUp = false ∨ s.dev.flag Reg.CDX_CTL_WIDEN_EN = false ∨ s.dev.newEpoch = false →
      Machine.exec .linkWiden s = .next s) ∧
    (∀ w f, s.dev.linkChoice = some (w, f) → s.dev.linkUp = true → s.dev.flag Reg.CDX_CTL_WIDEN_EN = true → s.dev.newEpoch = true →
      (w ≤ s.dev.fld Reg.CDX_STS_WIDTH → Machine.exec .linkWiden s = .next s) ∧
      (s.dev.fld Reg.CDX_STS_WIDTH < w → ∃ d : Dev, Machine.exec .linkWiden s = .next { s with dev := d } ∧ d.fld Reg.CDX_STS_LINK = 4 ∧
        d.cdx.txq = s.dev.cdx.txq ++ [.ctrl 3 w f 0])) ∧
    (s.dev.fld Reg.CDX_STS_LINK ≠ 2 ∨ s.dev.sync.measured = false ∨ s.dev.stepPend ≠ 0 → Machine.exec .linkUp s = .next s) ∧
    (s.dev.fld Reg.CDX_STS_LINK = 2 → s.dev.sync.measured = true → s.dev.stepPend = 0 →
      ∃ d : Dev, Machine.exec .linkUp s = .next { s with dev := d } ∧ d.fld Reg.CDX_STS_LINK = 3 ∧ (∀ r ∈ d.mde.remote, r.sent = true) ∧
        d.mde.remote.length = s.dev.mde.remote.length ∧
        d.cdx.txq = s.dev.cdx.txq ++ s.dev.mde.remote.map (fun r => .link (.refcount r.rseq [(r.grid, r.delta)])) ∧ .linkUp ∈ d.edge ∧
        (d.raised.drop s.dev.raised.length).map (·.src) = 1616 :: (if s.dev.mde.remote = [] then [] else [1622]))

/-- Flits, replays, packets, pairs of contexts, and the heartbeat of the peer link (R440, R444, R445, R446, R447, R448, R455, R460, R470, R685). -/
def Obligations.FlitsPacketsPairsAndHeartbeats : Prop :=
  ∀ (s : State),
    (∀ f : FlitRx, s.dev.fld Reg.CDX_STS_LINK = 0 → Machine.exec (.flitReceive f) s = .next s) ∧
    (2 ≤ s.dev.fld Reg.CDX_STS_LINK →
      (s.dev.cdx.nakWait = false →
        (∃ d : Dev, Machine.exec (.flitReceive .bad) s = .next { s with dev := d } ∧ d.cdx.nakWait = true ∧
          d.fld Reg.CDX_RS_UNCORR_COUNT = min (s.dev.fld Reg.CDX_RS_UNCORR_COUNT + 1) (2 ^ 32 - 1) ∧ d.out.length = s.dev.out.length + 1 ∧
          d.cdx.rxSlots = s.dev.cdx.rxSlots ∧ d.cdx.rxNext = s.dev.cdx.rxNext) ∧
        (∀ fseq ack pay, fseq % 512 ≠ s.dev.cdx.rxNext → ∃ d : Dev, Machine.exec (.flitReceive (.good 1 fseq ack pay [])) s = .next { s with dev := d } ∧
          d.cdx.nakWait = true ∧ d.cdx.rxSlots = s.dev.cdx.rxSlots ∧ d.cdx.rxNext = s.dev.cdx.rxNext ∧ d.out.length = s.dev.out.length + 1)) ∧
      (∀ fseq ack pay, fseq % 512 = s.dev.cdx.rxNext →
        ∃ d : Dev, Machine.exec (.flitReceive (.good 1 fseq ack pay [])) s = .next { s with dev := d } ∧
          d.cdx.rxSlots = s.dev.cdx.rxSlots ++ payloadSlots pay ∧ d.cdx.rxAck = s.dev.cdx.rxNext ∧ d.cdx.rxNext = (s.dev.cdx.rxNext + 1) % 512 ∧
          d.cdx.nakWait = false ∧ d.out = s.dev.out) ∧
      (∀ fseq ack pay, ∃ d : Dev, Machine.exec (.flitReceive (.good 2 fseq ack pay [])) s = .next { s with dev := d } ∧
        d.cdx.inbox = s.dev.cdx.inbox ++ ctrlInstr pay ∧ d.cdx.rxSlots = s.dev.cdx.rxSlots ∧ d.out = s.dev.out)) ∧
    (∀ r : CtrlRec, s.dev.fld Reg.CDX_STS_LINK < 2 ∨ s.dev.fld Reg.CDX_STS_LINK = 4 → Machine.exec (.nak r) s = .next s) ∧
    (s.dev.cdx.unacked = [] ∨ s.dev.fld Reg.CDX_STS_LINK = 4 ∨ s.dev.expired tmFlitAck (s.dev.fld Reg.CDX_TIMERS_ACK_TIMEOUT) = false →
      Machine.exec .flitAckTimeout s = .next s) ∧
    (∀ f : TxFlit, s.dev.cdx.unacked = [f] → 2 ≤ s.dev.fld Reg.CDX_STS_LINK → s.dev.fld Reg.CDX_STS_LINK ≠ 4 →
      (∀ r : CtrlRec, r.expect % 512 = f.fseq →
        (f.sent < s.dev.fld Reg.CDX_TIMERS_REPLAY_MAX → ∃ d : Dev, Machine.exec (.nak r) s = .next { s with dev := d } ∧
          d.cdx.unacked = [{ f with sent := f.sent + 1 }] ∧ d.out = s.dev.out ++ [.flit (flitSymbols 1 f.fseq s.dev.cdx.rxAck f.payload)] ∧
          d.fld Reg.CDX_STS_LINK = s.dev.fld Reg.CDX_STS_LINK ∧ d.fld Reg.CDX_RETRY_STS_LAST_NAK = r.expect % 512) ∧
        (s.dev.fld Reg.CDX_TIMERS_REPLAY_MAX ≤ f.sent → ∃ d : Dev, Machine.exec (.nak r) s = .next { s with dev := d } ∧
          d.fld Reg.CDX_STS_LINK = 0 ∧ d.cdx.unacked = [] ∧ d.raised = s.dev.raised ++ [⟨1617, eventCode 1617, 1, 0, 0, s.dev.beat⟩])) ∧
      (s.dev.expired tmFlitAck (s.dev.fld Reg.CDX_TIMERS_ACK_TIMEOUT) = true →
        (f.sent < s.dev.fld Reg.CDX_TIMERS_REPLAY_MAX → ∃ d : Dev, Machine.exec .flitAckTimeout s = .next { s with dev := d } ∧
          d.cdx.unacked = [{ f with sent := f.sent + 1 }] ∧ d.out = s.dev.out ++ [.flit (flitSymbols 1 f.fseq s.dev.cdx.rxAck f.payload)] ∧
          d.fld Reg.CDX_STS_LINK = s.dev.fld Reg.CDX_STS_LINK) ∧
        (s.dev.fld Reg.CDX_TIMERS_REPLAY_MAX ≤ f.sent → ∃ d : Dev, Machine.exec .flitAckTimeout s = .next { s with dev := d } ∧
          d.fld Reg.CDX_STS_LINK = 0 ∧ d.cdx.unacked = [] ∧ d.raised = s.dev.raised ++ [⟨1617, eventCode 1617, 1, 0, 0, s.dev.beat⟩]))) ∧
    (s.dev.cdx.nakWait = false ∨ s.dev.expired tmFlitNak (s.dev.fld Reg.CDX_TIMERS_NAK_RESEND) = false → Machine.exec .nakResendTimeout s = .next s) ∧
    (s.dev.cdx.nakWait = true → s.dev.expired tmFlitNak (s.dev.fld Reg.CDX_TIMERS_NAK_RESEND) = true →
      ∃ (d : Dev) (sy : List Nat), Machine.exec .nakResendTimeout s = .next { s with dev := d } ∧ d.out = s.dev.out ++ [.flit sy] ∧ d.age tmFlitNak = 0 ∧
        d.cdx = s.dev.cdx) ∧
    (∀ l : List (List Byte), skipIdle s.dev.cdx.rxSlots = l →
      (l = [] → Machine.exec .credioxPacket s = .next { s with dev := { s.dev with cdx := { s.dev.cdx with rxSlots := [] } } }) ∧
      (∀ (len n : Nat) (p : List Byte), l ≠ [] → len = leField (l.headD []) 0 2 → n = (len + 31) / 32 → p = (l.take n).flatten.take len →
        (l.length < n → Machine.exec .credioxPacket s = .next { s with dev := { s.dev with cdx := { s.dev.cdx with rxSlots := l } } }) ∧
        (n ≤ l.length → crcGood p = false → ∃ d : Dev, Machine.exec .credioxPacket s = .next { s with dev := d } ∧ d.cdx.rxSlots = l.drop n ∧
          d.fld Reg.CDX_PKT_BAD_COUNT = min (s.dev.fld Reg.CDX_PKT_BAD_COUNT + 1) (2 ^ 32 - 1) ∧ d.cdx.inbox = s.dev.cdx.inbox) ∧
        (∀ r : Nat, n ≤ l.length → 16 ≤ len → len ≤ 4096 → crcGood p = true → leField p 2 1 = 2 →
          msgOf (leField p 3 1) ((p.drop 8).take (len - 12)) = some (.refcountAck r) →
          Machine.exec .credioxPacket s = .next { s with dev :=
            ({ s.dev with cdx := { s.dev.cdx with rxSlots := l.drop n, inbox := s.dev.cdx.inbox ++ [.refcountAck r] } }) }))) ∧
    (∀ q : Nat,
      (∀ b : Bool, 64 ≤ q → Machine.exec (.qpPair q b) s = .next s) ∧
      (q < 64 →
        (s.dev.ustate (.qp q) = .off → Machine.exec (.qpPair q false) s = .next s ∧
          Machine.exec (.qpPair q true) s = .next { s with dev := s.dev.updWork q (fun w => { w with partnerStart := true }) }) ∧
        (s.dev.ustate (.qp q) = .starting →
          Machine.exec (.qpPair q true) s = .next { s with dev := s.dev.updWork q (fun w => { w with peerReady := true }) }) ∧
        (s.dev.ustate (.qp q) = .on → tget 0 s.dev.hwPend (1024 + q) = 0 → ∀ b : Bool, ∃ d : Dev, Machine.exec (.qpPair q b) s = .next { s with dev := d } ∧
          tget 0 d.hwPend (1024 + q) = qpPeerRestart + 1 ∧ (b = true → (d.work q).partnerStart = true) ∧ d.ustate (.qp q) = .on)) ∧
      (64 ≤ q ∨ s.dev.ustate (.qp q) ≠ .starting ∨ (s.dev.work q).peerReady = true ∨ s.dev.expired (tmStart (.qp q)) (2 ^ 14) = false →
        Machine.exec (.qpPairTimeout q) s = .next s) ∧
      (q < 64 → s.dev.ustate (.qp q) = .starting → (s.dev.work q).peerReady = false → s.dev.expired (tmStart (.qp q)) (2 ^ 14) = true →
        ∃ d : Dev, Machine.exec (.qpPairTimeout q) s = .next { s with dev := d } ∧
          d.seqPend = tput .none s.dev.seqPend (1024 + q) (.fail qpPeerRestart) ∧
          d.cdx.txq = s.dev.cdx.txq ++ (if 2 ≤ s.dev.fld Reg.CDX_STS_LINK then [.link (.qpPair q false)] else []) ∧
          d = { s.dev with seqPend := d.seqPend, cdx := d.cdx })) ∧
    (s.dev.linkUp = false ∨ s.dev.beat % 64 ≠ 0 ∨ s.dev.cdx.hbSent = s.dev.beat + 1 ∨ s.dev.fld Reg.FOV_STS_STATE = 0 ∨ s.dev.fld Reg.FOV_STS_STATE = 7 →
      Machine.exec .heartbeatSend s = .next s) ∧
    (s.dev.linkUp = true → s.dev.beat % 64 = 0 → s.dev.cdx.hbSent ≠ s.dev.beat + 1 → s.dev.fld Reg.FOV_STS_STATE ≠ 0 → s.dev.fld Reg.FOV_STS_STATE ≠ 7 →
      s.dev.geyOver = false →
      Machine.exec .heartbeatSend s = .next { s with dev :=
        ({ s.dev with cdx := { s.dev.cdx with hbSeq := s.dev.cdx.hbSeq + 1, hbSent := s.dev.beat + 1, txq := s.dev.cdx.txq ++ [.link (.heartbeat (s.dev.cdx.hbSeq + 1) s.dev.beat s.dev.fovStateByte s.dev.ownMask)] } }) })

/-- Heartbeats, pulses, suspicion, the witness record and the claims of an arbitration (R470, R471, R472, R474, R475, R476, R477, R478, R479, R480, R486). -/
def Obligations.LivenessSuspicionAndArbitration : Prop :=
  ∀ (s : State),
    (∀ (q : Word) (bt st own : Nat),
      let known := (s.dev.fov.witness.map (·.gen)).getD 0
      let s1 := if s.dev.fovState = 3 ∧ s.dev.fov.why ≠ some .claim ∧ known = s.dev.fov.unchanged then s.dev.fov.before % 8 else s.dev.fovState
      ∃ d : Dev, Machine.exec (.heartbeat q bt st own) s = .next { s with dev := d } ∧ d.fld Reg.FOV_LAST_HB_BEAT = s.dev.beat % 2 ^ 64 ∧
        d.fld Reg.CDX_HB_SEQ_SEQ = q.toNat % 2 ^ 32 ∧ d.fov.peerState = st ∧ d.fov.peerOwn = own ∧ d.fov.alive = true ∧ d.raised = s.dev.raised ∧
        d.fovState = (if st % 8 ≠ 6 then (if s1 = 6 ∧ s.dev.fov.handRole = 2 then 2 else s1) else if s1 = 2 then 6 else s1) ∧
        (s.dev.fovState = 3 → s1 ≠ 3 → d.fld Reg.FOV_STS_CLAIM_OUT = 0 ∧ d.armed tmClaim = false ∧ d.armed tmRepeat = false) ∧
        (s1 ≠ 3 → s.dev.linkUp = true → s.dev.fov.holdBeat ≤ s.dev.beat % 2 ^ 64 → d.flag Reg.FOV_STS_WRITE_HOLD = false)) ∧
    (s.dev.pinsOn = false → (∀ b : Bool, Machine.exec (.pulseInEdge b) s = .next s ∧ Machine.exec (.claimInEdge b) s = .next s) ∧
      Machine.exec .fenceInAssert s = .next s) ∧
    (s.dev.pinsOn = true →
      (∀ b : Bool,
        (∃ d : Dev, Machine.exec (.pulseInEdge b) s = .next { s with dev := d } ∧ d.flag Reg.FOV_STS_PULSE_IN = b ∧
          d.fld Reg.FOV_LAST_PULSE_BEAT = s.dev.beat % 2 ^ 64 ∧ d.edge = s.dev.edge ++ [.heard] ∧ d.raised = s.dev.raised) ∧
        (∃ d : Dev, Machine.exec (.claimInEdge b) s = .next { s with dev := d } ∧ d.flag Reg.FOV_STS_CLAIM_IN = b ∧
          d.fov = { s.dev.fov with claimIn := s.dev.fov.claimIn || (b && decide (s.dev.fovState = 3)) } ∧ d.raised = s.dev.raised)) ∧
      (∃ d : Dev, Machine.exec .fenceInAssert s = .next { s with dev := d } ∧ d.flag Reg.FOV_STS_FENCE_IN = true ∧
        d.edge = s.dev.edge ++ (if s.dev.fencing then [] else [.fence 4]))) ∧
    (s.dev.edgeAct .heard).fov.alive = true ∧
    (∀ cause : Nat, cause < 8 → s.dev.fovState ≠ 7 → ∀ d : Dev, d = s.dev.edgeAct (.fence cause) →
      d.fovState = 7 ∧ d.fld Reg.FOV_STS_FENCE_CAUSE = cause ∧ (d.raised.getLast?).map (fun e => (e.src, e.p0)) = some (1636, cause)) ∧
    (s.dev.beat % 2 ^ 12 ≠ 0 ∨ s.dev.fov.pulseSent = s.dev.beat + 1 ∨ s.dev.fovState = 7 ∨ s.dev.geyOver = true ∨ s.dev.pinsOn = false ∨
        s.dev.fovState = 0 ∧ s.dev.upd.hand ≠ 2 ∧ s.dev.upd.hand ≠ 3 →
      Machine.exec .pulseOutToggle s = .next s) ∧
    (s.dev.beat % 2 ^ 12 = 0 → s.dev.fov.pulseSent ≠ s.dev.beat + 1 → s.dev.fovState ≠ 0 ∨ s.dev.upd.hand = 2 ∨ s.dev.upd.hand = 3 → s.dev.fovState ≠ 7 →
      s.dev.geyOver = false → s.dev.pinsOn = true → Machine.exec .pulseOutToggle s = .next { s with dev :=
        ({ s.dev with fov := { s.dev.fov with pulseLevel := !s.dev.fov.pulseLevel, pulseSent := s.dev.beat + 1 } }) }) ∧
    (∀ path : Nat,
      let hb := decide (2 ^ 13 < s.dev.since (s.dev.fld Reg.FOV_LAST_HB_BEAT))
      let pu := decide (2 ^ 13 < s.dev.since (s.dev.fld Reg.FOV_LAST_PULSE_BEAT))
      let ready := s.dev.fov.alive = true ∧ (path = 0 ∧ hb = true ∧ pu = false ∨ path = 1 ∧ pu = true ∧ hb = false) ∧ bitOf s.dev.fov.single path = false
      (¬ready → Machine.exec (.singlePathLost path) s = .next s) ∧
      (ready → ∃ d : Dev, Machine.exec (.singlePathLost path) s = .next { s with dev := d } ∧ d.fovState = s.dev.fovState ∧
        d.raised = s.dev.raised ++ [⟨1646, eventCode 1646, path, 0, 0, s.dev.beat⟩])) ∧
    (∀ ready : Prop, (ready ↔ s.dev.fov.alive = true ∧ 2 ^ 13 < s.dev.since (s.dev.fld Reg.FOV_LAST_HB_BEAT) ∧
        2 ^ 13 < s.dev.since (s.dev.fld Reg.FOV_LAST_PULSE_BEAT) ∧ s.dev.fovState ∈ [1, 2, 5, 6]) →
      (¬ready → Machine.exec .peerSuspect s = .next s) ∧
      (ready → ∃ d : Dev, Machine.exec .peerSuspect s = .next { s with dev := d } ∧ s.dev.Suspects d)) ∧
    (∀ ready : Prop, (ready ↔ s.dev.fovState = 0 ∧ s.dev.dbgActive = false ∧ s.dev.fov.replayDone = true ∧ s.dev.linkUp = false ∧
        s.dev.fov.replayEpoch + s.dev.fld Reg.FOV_CFG_PEER_WAIT ≤ s.dev.epoch) →
      (¬ready → Machine.exec .peerWaitExpire s = .next s) ∧
      (ready → ∃ d : Dev, Machine.exec .peerWaitExpire s = .next { s with dev := d } ∧ s.dev.Suspects d)) ∧
    (∀ copies : List (Option (List Byte)),
      (s.dev.fovState ≠ 3 ∨ s.dev.expired tmClaim (2 ^ 14) = false ∨ s.dev.fov.why ≠ none → Machine.exec (.claimWaitExpire copies) s = .next s) ∧
      (s.dev.fovState ≠ 3 ∨ s.dev.expired tmRepeat (2 ^ 14) = false ∨ s.dev.fov.why ≠ none → Machine.exec (.inconclusiveRepeat copies) s = .next s) ∧
      (s.dev.fovState = 3 → s.dev.expired tmClaim (2 ^ 14) = true → s.dev.fov.why = none → s.dev.fov.claimIn = true →
        ∀ b w, majority (s.dev.fld Reg.DRV_ARRAY_TAG_TAG) copies = some (b, w) → w.owner ≠ allGroups s.dev.peerSlot ∨ w.gen ≤ s.dev.fov.unchanged →
          ∃ d : Dev, Machine.exec (.claimWaitExpire copies) s = .next { s with dev := d } ∧ d.fovState = 3 ∧ d.fov.why = none ∧ d.armed tmClaim = true ∧
            d.fov.claimIn = s.dev.flag Reg.FOV_STS_CLAIM_IN ∧ d.fld Reg.FOV_WIT_STS_ATTEMPTS = s.dev.fld Reg.FOV_WIT_STS_ATTEMPTS) ∧
      (s.dev.fovState = 3 → s.dev.fov.why = none → s.dev.fencing = false →
        (s.dev.expired tmClaim (2 ^ 14) = true → s.dev.fov.claimIn = false →
          ∃ d : Dev, Machine.exec (.claimWaitExpire copies) s = .next { s with dev := d } ∧ s.dev.Claims d copies) ∧
        (s.dev.expired tmRepeat (2 ^ 14) = true →
          ∃ d : Dev, Machine.exec (.inconclusiveRepeat copies) s = .next { s with dev := d } ∧ s.dev.Claims d copies) ∧
        (s.dev.slotId = 0 → s.dev.fld Reg.FOV_WIT_STS_ATTEMPTS = 0 →
          ∃ d : Dev, Machine.exec (.witnessReadResult copies) s = .next { s with dev := d } ∧ s.dev.Claims d copies)) ∧
      (s.dev.fovState = 7 ∨ s.dev.beat % Config.epochBeats < 3 * 2 ^ 21 + s.dev.slotId * 2 ^ 20 ∨ tget 0 s.dev.seen 0x40002 = s.dev.epoch + 1 →
        Machine.exec (.witnessRefresh copies) s = .next s) ∧
      (s.dev.fovState ≠ 7 → 3 * 2 ^ 21 + s.dev.slotId * 2 ^ 20 ≤ s.dev.beat % Config.epochBeats → tget 0 s.dev.seen 0x40002 ≠ s.dev.epoch + 1 →
        (majority (s.dev.fld Reg.DRV_ARRAY_TAG_TAG) copies = none → ∃ d : Dev, Machine.exec (.witnessRefresh copies) s = .next { s with dev := d } ∧
          d.fov.why = s.dev.fov.why ∧ d.flag Reg.FOV_WIT_STS_MAJORITY = false ∧ (d.raised.getLast?).map (fun e => (e.src, e.p0)) = some (1647, 1)) ∧
        (∀ b w, majority (s.dev.fld Reg.DRV_ARRAY_TAG_TAG) copies = some (b, w) → w.gen ≤ (s.dev.fov.witness.map (·.gen)).getD 0 →
          s.dev.fov.why = none → s.dev.fov.todo = [] → s.dev.fencing = false → ∃ d : Dev, Machine.exec (.witnessRefresh copies) s = .next { s with dev := d } ∧
            d.fov.why = some .refresh ∧ d.fov.witness = some w ∧ d.flag Reg.FOV_WIT_STS_MAJORITY = true ∧
            d.fov.newRec = (if s.dev.slotId = 0 then { w with refresh0 := w.refresh0 + 1, stamp0 := s.dev.beat } else { w with refresh1 := w.refresh1 + 1, stamp1 := s.dev.beat }) ∧
            (s.dev.flag Reg.FOV_STS_FENCE_OUT = true → s.dev.fld Reg.FOV_PEER_REFRESH_COUNT < w.refresh s.dev.peerSlot →
              ∃ e ∈ d.raised, e.src = 1645))) ∧
      (∀ b w, majority (s.dev.fld Reg.DRV_ARRAY_TAG_TAG) copies = some (b, w) →
        (s.dev.fovState ∉ [0, 3, 7] → (s.dev.fov.witness.map (·.gen)).getD 0 < w.gen → s.dev.fencing = false →
          ∃ d : Dev, Machine.exec (.witnessReadResult copies) s = .next { s with dev := d } ∧ d.fov.witness = some w ∧
            (if s.dev.givesAway w then d.edge = s.dev.edge ++ [.fence 3] else EdgeAct.assign ∈ d.edge)) ∧
        (s.dev.fovState = 0 → s.dev.dbgActive = false → s.dev.upd.hand = 0 → s.dev.strap 5 = true → s.dev.fov.replayDone = true → s.dev.linkUp = true → w.mode = 1 →
          ∃ d : Dev, Machine.exec (.witnessReadResult copies) s = .next { s with dev := d } ∧ d.fovState = 2 ∧ d.fov.witness = some w ∧
            d.flag Reg.FOV_STS_RESYNC_SRC = true ∧ d.flag Reg.FOV_STS_RESYNC_TGT = true))) ∧
    (s.dev.fov.why = none ∨ s.dev.fov.witness = none → Machine.exec .witnessAttemptResult s = .next s) ∧
    (∀ (why : WitWhy) (old : WitRec), s.dev.fov.why = some why → s.dev.fov.witness = some old →
      let outs := (List.range 3).map (fun i => tget 0 s.dev.drv.wit i)
      (0 ∈ outs → Machine.exec .witnessAttemptResult s = .next s) ∧
      (0 ∉ outs → ∃ d : Dev, Machine.exec .witnessAttemptResult s = .next { s with dev := d } ∧
        (2 ≤ outs.count 1 → d.fov.witness = some s.dev.fov.newRec ∧ d.fov.why = none ∧
          (why = .claim → d.fovState = 4 ∧ d.flag Reg.FOV_STS_WRITE_HOLD = false ∧ d.fov.step = 1) ∧
          (why = .refresh → d.fovState = s.dev.fovState)) ∧
        (outs.count 1 < 2 → why = .claim → s.dev.fovState = 3 → s.dev.fencing = false →
          (d.raised.getLast?).map (fun e => (e.src, e.p0)) = some (1633, if 2 ≤ outs.count 2 then 1 else 2) ∧ d.fovState = 3 ∧
          (2 ≤ outs.count 2 → d.edge = s.dev.edge ++ [.fence 1]) ∧
          (outs.count 2 < 2 → s.dev.fld Reg.FOV_CFG_WIT_TRIES ≤ s.dev.fld Reg.FOV_WIT_STS_ATTEMPTS → d.edge = s.dev.edge ++ [.fence 2]) ∧
          (outs.count 2 < 2 → s.dev.fld Reg.FOV_WIT_STS_ATTEMPTS < s.dev.fld Reg.FOV_CFG_WIT_TRIES →
            d.armed tmRepeat = true)) ∧
        (outs.count 1 < 2 → why ≠ .claim → d.fov.witness = some old ∧ d.fov.why = none ∧ d.fovState = s.dev.fovState)))

/-- The steps of a takeover, the release of FENCE_OUT, a rejoin, the resync messages and leaving (R482, R483, R485, R486, R488, R489, R493, R497). -/
def Obligations.TakeoverRejoinAndResync : Prop :=
  ∀ (s : State),
    let known := (s.dev.fov.witness.map (·.gen)).getD 0
    let carries := 2 ≤ s.dev.fld Reg.CDX_STS_LINK
    (∀ (vault : Option (List (List Byte))) (load : DomainLoad),
      (s.dev.fovState ≠ 4 ∨ s.dev.fov.step ∉ [1, 3, 4] → Machine.exec (.takeoverStepDone vault load) s = .next s) ∧
      (s.dev.fovState = 4 →
        (s.dev.fov.step = 1 → s.dev.flag Reg.DRV_STS_PREEMPT_BUSY = true → Machine.exec (.takeoverStepDone vault load) s = .next s) ∧
        (s.dev.fov.step = 1 → s.dev.flag Reg.DRV_STS_PREEMPT_BUSY = false → ∃ d : Dev, Machine.exec (.takeoverStepDone vault load) s = .next { s with dev := d } ∧
          d.flag Reg.FOV_STS_FENCE_OUT = true ∧ (∀ x ∈ d.cal.mirDirs, x ∈ s.dev.cal.mirDirs ∧ x.2.state ≠ .free) ∧
          (∀ x sl i, s.dev.cal.mirDirs = [x] → x.2.state ≠ .free → x.1 / Config.dirEntries = sl → (s.dev.freeIdx sl 1).head? = some i →
            d.cal.mirDirs = [] ∧ (d.dir sl i).adopted = true ∧ (d.dir sl i).grid = x.2.grid ∧ (d.dir sl i).page = x.2.page) ∧ d.fov.step = (if s.dev.flag Reg.FOV_STS_VAULT_NEEDED then 3 else 4) ∧
          (d.raised.getLast?).map (fun e => (e.src, e.p0)) = some (1634, s.dev.fov.moved % 2 ^ 32)) ∧
        (s.dev.fov.step = 3 → vault = none →
          (s.dev.flag Reg.FOV_STS_VAULT_HOLD = true → Machine.exec (.takeoverStepDone vault load) s = .next s) ∧
          (s.dev.flag Reg.FOV_STS_VAULT_HOLD = false → ∃ d : Dev, Machine.exec (.takeoverStepDone vault load) s = .next { s with dev := d } ∧
            d.flag Reg.FOV_STS_VAULT_HOLD = true ∧ d.fov = s.dev.fov ∧ (d.raised.getLast?).map (·.src) = some 1638)) ∧
        (∀ l, s.dev.fov.step = 3 → vault = some l → ∃ d : Dev, Machine.exec (.takeoverStepDone vault load) s = .next { s with dev := d } ∧
          d.flag Reg.FOV_STS_VAULT_HOLD = false ∧ d.fov.step = 4 ∧ d.fov.changeBeat = s.dev.beat ∧
          ∀ g, g < 64 → bitOf s.dev.fov.moved g = true → EdgeAct.ana g anaChange ∈ d.edge) ∧
        (s.dev.fov.step = 4 → 64 * s.dev.since s.dev.fov.changeBeat < s.dev.replayLen load → Machine.exec (.takeoverStepDone vault load) s = .next s) ∧
        (s.dev.fov.step = 4 → s.dev.replayLen load ≤ 64 * s.dev.since s.dev.fov.changeBeat → ∃ d : Dev, Machine.exec (.takeoverStepDone vault load) s = .next { s with dev := d } ∧ d.fovState = 5 ∧ d.fov.step = 0 ∧
          d.fov.alive = false ∧ d.flag Reg.FOV_STS_VAULT_HOLD = false ∧ (d.raised.getLast?).map (·.src) = some 1635))) ∧
    (s.dev.fov.step ≠ 3 ∨ s.dev.flag Reg.FOV_STS_VAULT_HOLD = false → Machine.exec .acceptLoss s = .next s) ∧
    (s.dev.fov.step = 3 → s.dev.flag Reg.FOV_STS_VAULT_HOLD = true → ∃ d : Dev, Machine.exec .acceptLoss s = .next { s with dev := d } ∧
      d.flag Reg.FOV_STS_VAULT_HOLD = false ∧ d.fov = { s.dev.fov with step := 4, changeBeat := s.dev.beat } ∧ d.raised = s.dev.raised ∧
      ∀ g, g < 64 → bitOf s.dev.fov.moved g = true → EdgeAct.ana g anaChange ∈ d.edge) ∧
    (s.dev.flag Reg.FOV_STS_FENCE_OUT = false → Machine.exec .unfence s = .next s) ∧
    (s.dev.flag Reg.FOV_STS_FENCE_OUT = true → ∃ d : Dev, Machine.exec .unfence s = .next { s with dev := d } ∧ d.flag Reg.FOV_STS_FENCE_OUT = false ∧
      d.fovState = s.dev.fovState ∧ d.raised = s.dev.raised ++ [⟨1637, eventCode 1637, 1, 0, 0, s.dev.beat⟩]) ∧
    (∀ ready : Prop, (ready ↔ s.dev.flag Reg.FOV_STS_FENCE_OUT = true ∧ s.dev.fld Reg.FOV_CFG_FENCE_RELEASE ≠ 0 ∧ s.dev.fov.step = 0 ∧
        s.dev.fov.doneEpoch + s.dev.fld Reg.FOV_CFG_FENCE_RELEASE ≤ s.dev.epoch ∧
        (s.dev.fov.takeovers.filter (fun e => decide (s.dev.epoch < e + 256))).length < 3) →
      (¬ready → Machine.exec .fenceReleaseExpire s = .next s) ∧
      (ready → ∃ d : Dev, Machine.exec .fenceReleaseExpire s = .next { s with dev := d } ∧ d.flag Reg.FOV_STS_FENCE_OUT = false ∧
        d.fovState = s.dev.fovState ∧ d.raised = s.dev.raised ++ [⟨1637, eventCode 1637, 0, 0, 0, s.dev.beat⟩])) ∧
    (∀ gen r : Nat,
      (s.dev.fov.witness = none → Machine.exec (.joinReq gen r) s = .next s ∧ Machine.exec (.joinAck gen r) s = .next s) ∧
      (∀ w, s.dev.fov.witness = some w →
        (gen < w.gen → Machine.exec (.joinReq gen r) s = .next s) ∧
        (w.gen ≤ gen → s.dev.fovState ≠ 5 ∨ 0 < s.dev.mirPagesUsed →
          (¬carries → Machine.exec (.joinReq gen r) s = .next s) ∧
          (carries → Machine.exec (.joinReq gen r) s = .next { s with dev :=
            ({ s.dev with cdx := { s.dev.cdx with txq := s.dev.cdx.txq ++ [.link (.ownership 2 w.gen 0 1)] } }) })) ∧
        (w.gen ≤ gen → s.dev.fovState = 5 → s.dev.mirPagesUsed = 0 →
          (s.dev.fov.joining = true → Machine.exec (.joinReq gen r) s = .next s) ∧
          (s.dev.fov.joining = false → ∃ d : Dev, Machine.exec (.joinReq gen r) s = .next { s with dev := d } ∧ d.fov.joining = true ∧
            WitWhy.join (r % 2 ^ 24) ∈ d.fov.todo ∧ d.drv.preBeat = s.dev.beat ∧ d.fovState = 5)) ∧
        (gen < w.gen ∨ s.dev.fovState ≠ 1 ∨ s.dev.flag Reg.FOV_STS_RESYNC_TGT = true ∨ r ≠ 0 → Machine.exec (.joinAck gen r) s = .next s) ∧
        (w.gen ≤ gen → s.dev.fovState = 1 → s.dev.flag Reg.FOV_STS_RESYNC_TGT = false → r = 0 →
          ∃ d : Dev, Machine.exec (.joinAck gen r) s = .next { s with dev := d } ∧ d.cal.dirs = [] ∧ d.cal.mirDirs = [] ∧ d.mde.ring = [] ∧
            d.mem.live = [] ∧ d.fld Reg.DRV_RESV_GEN_GEN = (w.resv s.dev.slotId + 1) % 2 ^ 24 ∧ d.flag Reg.FOV_STS_RESYNC_TGT = true ∧
            d.fovState = 1 ∧ d.raised = s.dev.raised ++ [⟨1639, eventCode 1639, 1, 0, 0, s.dev.beat⟩]))) ∧
    (∀ gen batch : Nat,
      (gen < known ∨ s.dev.flag Reg.FOV_STS_RESYNC_TGT = false →
        Machine.exec (.resyncCommit gen batch) s = .next s ∧ Machine.exec (.resyncDone gen batch) s = .next s) ∧
      (known ≤ gen → s.dev.flag Reg.FOV_STS_RESYNC_TGT = true →
        (∃ d : Dev, Machine.exec (.resyncCommit gen batch) s = .next { s with dev := d } ∧ d.fov.tgtPend = [] ∧
          d.fld Reg.FOV_RESYNC_BATCH_BATCH = batch % 2 ^ 32 ∧ (carries → d.cdx.txq.getLast? = some (.link (.ownership 4 known 0 batch)))) ∧
        (∃ d : Dev, Machine.exec (.resyncDone gen batch) s = .next { s with dev := d } ∧ d.flag Reg.FOV_STS_RESYNC_TGT = false ∧ d.fov.tgtPend = [] ∧
          d.raised = s.dev.raised ++ [⟨1640, eventCode 1640, 1, batch % 2 ^ 32, 0, s.dev.beat⟩] ∧
          (carries → d.cdx.txq = s.dev.cdx.txq ++ [.link (.ownership 4 known 0 batch)]) ∧
          (s.dev.fovState ≠ 1 → d.fovState = s.dev.fovState) ∧
          (s.dev.fovState = 1 → d.fovState = 2 ∧ d.fld Reg.FOV_STS_HEALTHY = 0 ∧ d.fld Reg.FOV_HOLDOFF_LEFT_EPOCHS = s.dev.fld Reg.FOV_CFG_HOLDOFF % 2 ^ 16 ∧
            d.flag Reg.GLB_CAL_STS_PEER_ABSENT = false))) ∧
      (gen < known ∨ s.dev.flag Reg.FOV_STS_RESYNC_SRC = false ∨ (s.dev.fov.closing = true ∧ batch ≠ s.dev.fov.batch - 1) ∨
          (s.dev.fov.closing = false ∧ (s.dev.fov.sent = false ∨ batch ≠ s.dev.fov.batch)) → Machine.exec (.resyncAck gen batch) s = .next s) ∧
      (known ≤ gen → s.dev.flag Reg.FOV_STS_RESYNC_SRC = true →
        (s.dev.fov.closing = true → batch = s.dev.fov.batch - 1 → ∃ d : Dev, Machine.exec (.resyncAck gen batch) s = .next { s with dev := d } ∧
          d.flag Reg.FOV_STS_RESYNC_SRC = false ∧ d.flag Reg.GLB_CAL_STS_PEER_ABSENT = false ∧
          d.flag Reg.GLB_CAL_STS_MIRROR_BROKEN = (!s.dev.mirrorsOn && s.dev.flag Reg.GLB_CAL_STS_MIRROR_BROKEN) ∧
          d.raised = s.dev.raised ++ [⟨1640, eventCode 1640, 0, batch % 2 ^ 32, 0, s.dev.beat⟩] ∧
          (s.dev.fovState = 5 → d.fovState = 2 ∧ WitWhy.shared ∈ d.fov.todo) ∧
          (s.dev.fovState ≠ 5 → d.fovState = s.dev.fovState ∧
            (d.flag Reg.GLB_CAL_STS_MIRROR_BROKEN = false → WitWhy.vaultOnly false ∈ d.fov.todo))) ∧
        (s.dev.fov.closing = false → s.dev.fov.sent = true → batch = s.dev.fov.batch → ∃ d : Dev, Machine.exec (.resyncAck gen batch) s = .next { s with dev := d } ∧
          d.fld Reg.FOV_RESYNC_BATCH_BATCH = batch % 2 ^ 32 ∧ d.raised = s.dev.raised ∧
          d.fov = { s.dev.fov with kept := s.dev.fov.kept ++ s.dev.fov.batchIds, batchPuts := [], batchIds := [], sent := false, batch := batch + 1 }))) ∧
    (∀ gen : Nat,
      (gen < known ∨ s.dev.fovState ≠ 2 → Machine.exec (.leave gen) s = .next s) ∧
      (known ≤ gen → s.dev.fovState = 2 → ∃ d : Dev, Machine.exec (.leave gen) s = .next { s with dev := d } ∧ d.fovState = 5 ∧
        d.flag Reg.GLB_CAL_STS_PEER_ABSENT = true ∧ WitWhy.sole ∈ d.fov.todo ∧ d.raised = s.dev.raised)) ∧
    (s.dev.ownMask ≠ 0 ∨ s.dev.fovState ≠ 2 → Machine.exec .fovLeave s = .next s) ∧
    (s.dev.ownMask = 0 → s.dev.fovState = 2 → ∃ d : Dev, Machine.exec .fovLeave s = .next { s with dev := d } ∧ d.fovState = 0 ∧
      (carries → d.cdx.txq = s.dev.cdx.txq ++ [.link (.ownership 10 known 0 0)]) ∧ d.raised = s.dev.raised)

/-- The steps of a hand-over on both heads, its limit, acknowledgement and abort, and the failback count (R486, R492, R493, R494, R497). -/
def Obligations.HandOverAndFailback : Prop :=
  ∀ (s : State),
    let known := (s.dev.fov.witness.map (·.gen)).getD 0
    let carries := 2 ≤ s.dev.fld Reg.CDX_STS_LINK
    (s.dev.fovState ≠ 2 ∨ s.dev.ownMask = 0 → Machine.exec .handoverCtl s = .next s) ∧
    (s.dev.fovState = 2 → s.dev.ownMask ≠ 0 → ∃ d : Dev, Machine.exec .handoverCtl s = .next { s with dev := d } ∧ d.fovState = 6 ∧
      d.flag Reg.FOV_CTL_HANDOVER = true ∧ d.armed tmHandover = true ∧
      d.fov = { s.dev.fov with handStep := 1, handRole := 1, handMask := s.dev.ownMask, handDomain := !s.dev.mde.ownGone, handWhole := true, handBack := false, cpTarget := 0 } ∧
      d.raised = s.dev.raised ++ [⟨1642, eventCode 1642, 0, s.dev.ownMask % 2 ^ 32, s.dev.ownMask / 2 ^ 32 % 2 ^ 32, s.dev.beat⟩]) ∧
    (∀ gen mask : Nat,
      let m := Nat.land mask s.dev.ownMask
      (gen < known ∨ (s.dev.fovState = 2 ∧ m = 0 ∧ s.dev.mde.peerHeld = false) ∨ (s.dev.fovState ≠ 2 ∧ ¬carries) →
        Machine.exec (.handoverReq gen mask) s = .next s) ∧
      (known ≤ gen → s.dev.fovState ≠ 2 → carries → Machine.exec (.handoverReq gen mask) s = .next { s with dev :=
        ({ s.dev with cdx := { s.dev.cdx with txq := s.dev.cdx.txq ++ [.link (.ownership 9 known mask 2)] } }) }) ∧
      (known ≤ gen → s.dev.fovState = 2 → m ≠ 0 ∨ s.dev.mde.peerHeld = true → ∃ d : Dev, Machine.exec (.handoverReq gen mask) s = .next { s with dev := d } ∧
        d.fovState = 6 ∧ d.armed tmHandover = true ∧
        d.fov = { s.dev.fov with handStep := 1, handRole := 1, handMask := m, handDomain := s.dev.mde.peerHeld, handWhole := false, handBack := true, cpTarget := 0 } ∧
        d.raised = s.dev.raised ++ [⟨1642, eventCode 1642, 1, m % 2 ^ 32, m / 2 ^ 32 % 2 ^ 32, s.dev.beat⟩])) ∧
    (∀ copies : List (Option (List Byte)),
      (s.dev.fovState ≠ 6 ∨ s.dev.fov.handRole ≠ 1 ∨ s.dev.fov.handStep ∉ [1, 2, 3, 4, 5] → Machine.exec (.handoverStepDone copies) s = .next s) ∧
      (s.dev.fovState = 6 → s.dev.fov.handRole = 1 →
        (s.dev.fov.handStep = 1 → 256 * s.dev.fld Reg.FOV_CFG2_HANDOVER_MARK < s.dev.ownDirty → Machine.exec (.handoverStepDone copies) s = .next s) ∧
        (s.dev.fov.handStep = 1 → s.dev.ownDirty ≤ 256 * s.dev.fld Reg.FOV_CFG2_HANDOVER_MARK →
          ∃ d : Dev, Machine.exec (.handoverStepDone copies) s = .next { s with dev := d } ∧ d.fov = { s.dev.fov with handStep := 2 } ∧
            ∀ g, g < 64 → bitOf s.dev.fov.handMask g = true → EdgeAct.ana g anaChange ∈ d.edge) ∧
        (∀ g, s.dev.fov.handStep = 2 → g < 64 → bitOf s.dev.fov.handMask g = true → s.dev.grpRunning (g + 1) = true →
          Machine.exec (.handoverStepDone copies) s = .next s) ∧
        (s.dev.fov.handStep = 2 → (∀ g, g < 64 → bitOf s.dev.fov.handMask g = true → s.dev.grpRunning (g + 1) = false) →
          Machine.exec (.handoverStepDone copies) s = .next { s with dev := { s.dev with fov := { s.dev.fov with handStep := 3 } } }) ∧
        (s.dev.fov.handStep = 3 → s.dev.handDrained = false → Machine.exec (.handoverStepDone copies) s = .next s) ∧
        (s.dev.fov.handStep = 3 → s.dev.handDrained = true →
          (s.dev.fov.handDomain = false → Machine.exec (.handoverStepDone copies) s = .next { s with dev := { s.dev with fov := { s.dev.fov with handStep := 5 } } }) ∧
          (s.dev.fov.handDomain = true → ∃ d : Dev, Machine.exec (.handoverStepDone copies) s = .next { s with dev := d } ∧ d.fov.handStep = 4 ∧
            s.dev.handCp < d.fov.cpTarget)) ∧
        (s.dev.fov.handStep = 4 → s.dev.handCp < s.dev.fov.cpTarget → Machine.exec (.handoverStepDone copies) s = .next s) ∧
        (s.dev.fov.handStep = 5 → s.dev.fov.why ≠ none → Machine.exec (.handoverStepDone copies) s = .next s) ∧
        (∀ b w, s.dev.fov.handStep = 4 ∧ s.dev.fov.cpTarget ≤ s.dev.handCp ∨ s.dev.fov.handStep = 5 → s.dev.fov.why = none → s.dev.fov.todo = [] → s.dev.fencing = false →
          majority (s.dev.fld Reg.DRV_ARRAY_TAG_TAG) copies = some (b, w) → w.gen ≤ known →
          ∃ d : Dev, Machine.exec (.handoverStepDone copies) s = .next { s with dev := d } ∧ d.fovState = 6 ∧ d.fov.handStep = 5 ∧ d.fov.why = some .handover ∧
            d.armed tmHandover = false ∧ d.fov.newRec.gen = w.gen + 1 ∧ d.fov.newRec.mode = w.mode ∧
            d.fov.newRec.owner = ((List.range 64).filter (bitOf s.dev.fov.handMask)).foldl (fun m g => bitPut m g (decide (s.dev.peerSlot = 1))) w.owner ∧
            (s.dev.fov.handDomain = false → d.fov.newRec.dom = w.dom)))) ∧
    (s.dev.fovState ≠ 6 ∨ s.dev.fov.handRole ≠ 1 ∨ 5 ≤ s.dev.fov.handStep ∨ s.dev.expired tmHandover (s.dev.fld Reg.FOV_HANDOVER_LIMIT_BEATS) = false →
      Machine.exec .handoverLimitExpire s = .next s) ∧
    (s.dev.fovState = 6 → s.dev.fov.handRole = 1 → s.dev.fov.handStep < 5 → s.dev.expired tmHandover (s.dev.fld Reg.FOV_HANDOVER_LIMIT_BEATS) = true →
      ∃ d : Dev, Machine.exec .handoverLimitExpire s = .next { s with dev := d } ∧ d.fovState = 2 ∧ d.flag Reg.FOV_CTL_HANDOVER = false ∧
        d.fov = { s.dev.fov with handStep := 0, handRole := 0 } ∧ d.armed tmHandover = false ∧
        (carries → d.cdx.txq = s.dev.cdx.txq ++ [.link (.ownership 9 known s.dev.fov.handMask 1)]) ∧
        d.raised = s.dev.raised ++ [⟨1644, eventCode 1644, 1, 0, 0, s.dev.beat⟩] ∧
        ∀ g, g < 64 → bitOf s.dev.fov.handMask g = true → EdgeAct.ana g anaOptimized ∈ d.edge) ∧
    (∀ (gen mask arg : Nat) (load : DomainLoad),
      (s.dev.fov.witness = none ∨ gen < known → Machine.exec (.handover gen mask arg load) s = .next { s with dev :=
        ({ s.dev with cdx := { s.dev.cdx with held := s.dev.cdx.held.filter (fun m => decide (m ≠ LinkMsg.ownership 7 gen mask arg)) } }) }) ∧
      (∀ w, s.dev.fov.witness = some w → w.gen ≤ gen → ∃ d : Dev, Machine.exec (.handover gen mask arg load) s = .next { s with dev := d } ∧
        (d.fov.witness.map (·.gen)) = some gen ∧ (∀ g, g < 64 → bitOf mask g = true → d.flag (Reg.NVT_ANA_OWN g) = true ∧ EdgeAct.ana g anaOptimized ∈ d.edge) ∧
        (arg % 2 = 1 → s.dev.mde.ownGone = true → d.mde.ownGone = false) ∧ (arg % 2 = 1 → s.dev.mde.ownGone = false → d.mde.peerHeld = true) ∧
        (carries → d.cdx.txq.getLast? = some (.link (.ownership 8 gen mask 0))) ∧
        (d.raised.getLast?).map (fun e => (e.src, e.p0)) = some (1643, 1) ∧
        (s.dev.fovState = 6 → s.dev.fov.handRole = 2 → d.fovState = 2))) ∧
    (∀ gen mask arg : Nat,
      (gen < known ∨ s.dev.fovState ≠ 6 ∨ s.dev.fov.handStep ≠ 6 → Machine.exec (.handoverAck gen mask) s = .next s) ∧
      (known ≤ gen → s.dev.fovState = 6 → s.dev.fov.handStep = 6 → ∃ d : Dev, Machine.exec (.handoverAck gen mask) s = .next { s with dev := d } ∧
        d.fovState = 2 ∧ d.fov = { s.dev.fov with handStep := 0, handRole := 0 } ∧ d.flag Reg.FOV_CTL_HANDOVER = false ∧
        d.fld Reg.FOV_HANDOVERS_COUNT = min (s.dev.fld Reg.FOV_HANDOVERS_COUNT + 1) (2 ^ 32 - 1) ∧
        d.raised = s.dev.raised ++ [⟨1643, eventCode 1643, 0, mask % 2 ^ 32, mask / 2 ^ 32 % 2 ^ 32, s.dev.beat⟩] ∧
        ∀ g, g < 64 → bitOf s.dev.fov.handMask g = true → EdgeAct.ana g anaNonOptimized ∈ d.edge) ∧
      (gen < known → Machine.exec (.handoverAbort gen mask arg) s = .next s) ∧
      (known ≤ gen → ∃ d : Dev, Machine.exec (.handoverAbort gen mask arg) s = .next { s with dev := d } ∧ d.fld Reg.FOV_STS_HEALTHY = 0 ∧
        d.raised = s.dev.raised ++ [⟨1644, eventCode 1644, arg % 2 ^ 32, 0, 0, s.dev.beat⟩] ∧
        d.fovState = (if s.dev.fovState = 6 ∧ s.dev.fov.handRole = 2 then 2 else s.dev.fovState))) ∧
    (tget 0 s.dev.seen 0x40001 = s.dev.epoch + 1 ∨ s.dev.fovState ≠ 2 ∨ (s.dev.homeAway = 0 ∧ s.dev.mde.ownGone = false) →
      Machine.exec .failbackEpochCount s = .next s) ∧
    (tget 0 s.dev.seen 0x40001 ≠ s.dev.epoch + 1 → s.dev.fovState = 2 → s.dev.homeAway ≠ 0 ∨ s.dev.mde.ownGone = true →
      let n := s.dev.fld Reg.FOV_STS_HEALTHY
      let left := s.dev.fld Reg.FOV_HOLDOFF_LEFT_EPOCHS
      let req : Out := .link (.ownership 6 known s.dev.homeAway 0)
      ∃ d : Dev, Machine.exec .failbackEpochCount s = .next { s with dev := d } ∧ tget 0 d.seen 0x40001 = s.dev.epoch + 1 ∧ d.fov.epochOk = true ∧
        (s.dev.fov.epochOk = false ∨ s.dev.healthy = false → d.fld Reg.FOV_STS_HEALTHY = 0 ∧
          d.fld Reg.FOV_HOLDOFF_LEFT_EPOCHS = s.dev.fld Reg.FOV_CFG_HOLDOFF % 2 ^ 16 ∧ d.cdx = s.dev.cdx) ∧
        (s.dev.fov.epochOk = true → s.dev.healthy = true →
          (n < 3 → d.fld Reg.FOV_STS_HEALTHY = n + 1 ∧ d.fld Reg.FOV_HOLDOFF_LEFT_EPOCHS = s.dev.fld Reg.FOV_CFG_HOLDOFF % 2 ^ 16 ∧ d.cdx = s.dev.cdx) ∧
          (3 ≤ n → d.fld Reg.FOV_STS_HEALTHY = 4 ∧
            (s.dev.fov.skipHoldoff = true → s.dev.dbgActive = false → d.cdx.txq = s.dev.cdx.txq ++ [req] ∧ d.flag Reg.FOV_CTL_FAILBACK = false) ∧
            (s.dev.fov.skipHoldoff = false →
              (n = 3 → d.fld Reg.FOV_HOLDOFF_LEFT_EPOCHS = left ∧ d.cdx = s.dev.cdx) ∧
              (3 < n → 1 < left → d.fld Reg.FOV_HOLDOFF_LEFT_EPOCHS = (left - 1) % 2 ^ 16 ∧ d.cdx = s.dev.cdx) ∧
              (3 < n → left ≤ 1 → d.fld Reg.FOV_HOLDOFF_LEFT_EPOCHS = 0 ∧
                d.cdx.txq = s.dev.cdx.txq ++ (if s.dev.flag Reg.FOV_CTL_AUTO_FB = true ∧ left = 1 ∧ s.dev.dbgActive = false then [req] else [])))))) ∧
    (s.dev.fovState ≠ 2 → Machine.exec .failback s = .next s) ∧
    (s.dev.fovState = 2 → ∃ d : Dev, Machine.exec .failback s = .next { s with dev := d } ∧ d.flag Reg.FOV_CTL_FAILBACK = true ∧
      d.fov = { s.dev.fov with skipHoldoff := true } ∧ d.raised = s.dev.raised)

/-- Training, load classes, calibration, retraining, memory errors by region, patrol scrub, and the Geyser flush (R501, R502, R507, R508, R509, R510, R511, R512, R513, R514, R518, R522). -/
def Obligations.MemoriesTrainFailAndFlush : Prop :=
  ∀ (s : State),
    (∀ (fail : Option (Nat × Nat)) (gb : Nat) (temps repairs : List (Nat × Nat)),
      (s.dev.fld Reg.MEM_STS_START = 2 ∨ s.dev.fld Reg.MEM_STS_START = 3 → Machine.exec (.memoryStart fail gb temps repairs) s = .next s) ∧
      (s.dev.fld Reg.MEM_STS_START ≠ 2 → s.dev.fld Reg.MEM_STS_START ≠ 3 →
        (∀ code ch, fail = some (code, ch) ∨ fail = none ∧ s.dev.ddrPopulated gb = false ∧ code = 3 ∧ ch = 64 → ∃ d : Dev, Machine.exec (.memoryStart fail gb temps repairs) s = .next { s with dev := d } ∧
          d.fld Reg.MEM_STS_START = 3 ∧ d.fld Reg.MEM_STS_FAIL_CODE = code % 2 ^ 8 ∧
          d.raised = s.dev.raised ++ [⟨1728, eventCode 1728, code % 2 ^ 32, ch % 2 ^ 32, 0, s.dev.beat⟩]) ∧
        (fail = none → s.dev.ddrPopulated gb = true → ∃ d : Dev, Machine.exec (.memoryStart fail gb temps repairs) s = .next { s with dev := d } ∧
          d.fld Reg.MEM_STS_START = 2 ∧ d.fld Reg.MEM_STS_DDR_GIB = gb % 2 ^ 13 ∧ d.raised = s.dev.raised ∧
          ∀ c ∈ s.dev.memChans, d.memCh c = { state := 1, temp := tget 0 temps c, now := tget 0 temps c, epoch := s.dev.epoch % 2 ^ 32, repairs := tget 0 repairs c }))) ∧
    (∀ (hbm ddr : Nat) (temps : List (Nat × Nat)),
      (s.dev.fld Reg.MEM_STS_START ≠ 2 → Machine.exec (.loadClassUpdate hbm ddr temps) s = .next s) ∧
      (s.dev.fld Reg.MEM_STS_START = 2 → ∃ d : Dev, Machine.exec (.loadClassUpdate hbm ddr temps) s = .next { s with dev := d } ∧
        d.fld Reg.MEM_STS_HBM_CLASS = s.dev.loadClass hbm ∧ d.fld Reg.MEM_STS_DDR_CLASS = s.dev.loadClass ddr ∧
        (s.dev.fld Reg.MEM_STS_HBM_CLASS ≠ s.dev.loadClass hbm → ∃ e ∈ d.raised, e.src = 1733 ∧ e.p0 = 0 ∧ e.p2 = s.dev.loadClass hbm) ∧
        ∀ c ∈ s.dev.memChans,
          let x := s.dev.memCh c
          let now := ((temps.find? (fun t => decide (t.1 = c))).map (·.2)).getD x.now
          let due := x.state = 1 ∧ (s.dev.fld Reg.MEM_RETRAIN_TEMP_DELTA < (tempOf now - tempOf x.temp).natAbs ∨
            (if c < 64 then s.dev.loadClass hbm else s.dev.loadClass ddr) ≠ x.cls ∨
            s.dev.fld Reg.MEM_RETRAIN_EPOCHS ≤ (s.dev.epoch + 2 ^ 32 - x.epoch) % 2 ^ 32)
          (due → d.memCh c = { x with cal := 0, now := now, state := 2, left := if c < 64 then 32 else 64 }) ∧
          (¬due → d.memCh c = { x with cal := 0, now := now }))) ∧
    (∀ c : Nat,
      (s.dev.mayCalibrate c = false → Machine.exec (.calibrationBeat c) s = .next s) ∧
      (s.dev.mayCalibrate c = true → ∃ d : Dev, Machine.exec (.calibrationBeat c) s = .next { s with dev := d } ∧
        d.memCh c = { s.dev.memCh c with left := (s.dev.memCh c).left - 1, cal := min 255 ((s.dev.memCh c).cal + 1), calBeat := s.dev.edges + 1 } ∧
        ∀ j, j ≠ c → d.memCh j = s.dev.memCh j) ∧
      (∀ ok : Bool,
        ((s.dev.memCh c).state ≠ 2 ∨ (s.dev.memCh c).left ≠ 0 → Machine.exec (.retrainDone c ok) s = .next s) ∧
        ((s.dev.memCh c).state = 2 → (s.dev.memCh c).left = 0 → ∃ d : Dev, Machine.exec (.retrainDone c ok) s = .next { s with dev := d } ∧
          (∀ j, j ≠ c → d.memCh j = s.dev.memCh j) ∧
          (ok = true → d.raised = s.dev.raised ∧ d.memCh c = { s.dev.memCh c with state := 1, fails := 0, temp := (s.dev.memCh c).now, epoch := s.dev.epoch % 2 ^ 32, cls := s.dev.fld (if c < 64 then Reg.MEM_STS_HBM_CLASS else Reg.MEM_STS_DDR_CLASS) }) ∧
          (ok = false → d.memCh c = { s.dev.memCh c with fails := min 15 ((s.dev.memCh c).fails + 1), state := if 2 ≤ (s.dev.memCh c).fails then 3 else 1 } ∧
            d.raised = s.dev.raised ++ (if 2 ≤ (s.dev.memCh c).fails then [⟨1734, eventCode 1734, c % 2 ^ 32, min 15 ((s.dev.memCh c).fails + 1), 0, s.dev.beat⟩] else []))))) ∧
    (∀ (addr hit : Nat) (bytes : List Byte),
      let a := addr % 2 ^ 44
      (∀ found : MemErr, s.dev.channelOf a = none → ∃ d : Dev, Machine.exec (.memoryReadError addr found hit bytes) s = .next { s with dev := d } ∧
        d.fld Reg.MEM_UE_COUNT = (s.dev.fld Reg.MEM_UE_COUNT + 1) % 2 ^ 64 ∧
        d.raised = s.dev.raised ++ [⟨1731, eventCode 1731, a % 2 ^ 32, a / 2 ^ 32 % 2 ^ 32, 0, s.dev.beat⟩]) ∧
      (∀ c, s.dev.channelOf a = some c →
        (∃ d : Dev, Machine.exec (.memoryReadError addr .corrected hit bytes) s = .next { s with dev := d } ∧
          d.fld Reg.MEM_CE_COUNT = (s.dev.fld Reg.MEM_CE_COUNT + 1) % 2 ^ 64 ∧ (d.memCh c).ce = min (2 ^ 32 - 1) ((s.dev.memCh c).ce + 1) ∧
          d.raised = s.dev.raised ++ (if tget 0 s.dev.seen 0x40000 = s.dev.epoch + 1 then [] else [⟨1730, eventCode 1730, c % 2 ^ 32, 1, 0, s.dev.beat⟩])) ∧
        Machine.exec (.memoryReadError addr (.uncorrected true) hit bytes) s = .next s ∧
        (EdgeAct.memFail a hit bytes ∉ s.dev.edge → Machine.exec (.memoryReadError addr (.uncorrected false) hit bytes) s =
          .next { s with dev := { s.dev with edge := s.dev.edge ++ [.memFail a hit bytes] } })) ∧
      (let r := s.dev.regionOf a
       let k := (match r with | .grain k => k | _ => 0)
       let isGrain := (match r with | .grain _ => true | _ => false)
       let row := s.dev.regionRow r hit
       let ev : Raise := ⟨1729, eventCode 1729, a % 2 ^ 32, a / 2 ^ 32 % 2 ^ 32, row % 2 ^ 32, s.dev.beat⟩
       ∀ d : Dev, d = s.dev.edgeAct (.memFail a hit bytes) →
        (r ≠ .readBuffer → ev ∈ d.raised ∧ d.fld Reg.MEM_UE_COUNT = (s.dev.fld Reg.MEM_UE_COUNT + 1) % 2 ^ 64 ∧ d.flag Reg.MEM_ERR_ADDR_VALID = true ∧
          d.fld Reg.MEM_ERR_ADDR_ADDR = (if s.dev.flag Reg.MEM_ERR_ADDR_VALID then s.dev.fld Reg.MEM_ERR_ADDR_ADDR else a)) ∧
        (isGrain = true ∧ row = 2 ∨ r = .ring ∧ s.dev.flag Reg.GLB_CAL_STS_PEER_ABSENT = false → s.dev.fencing = false →
          d.edge = s.dev.edge ++ [.fence 6]) ∧
        (isGrain = true → row = 0 → d.dirKeyed k = { s.dev.dirKeyed k with bad := true }) ∧
        (isGrain = true → row = 1 → d.cal.dirs = s.dev.cal.dirs) ∧
        (isGrain = true → row = 1 → (s.dev.dirKeyed k).adopted = false →
          d.cal.own = writeBytes s.dev.cal.own ((s.dev.dirKeyed k).page * pageBytes) (bytes.take (s.dev.dirKeyed k).bytes)) ∧
        (isGrain = true → row = 3 → d.dirKeyed k = { s.dev.dirKeyed k with lost := true } ∧ (d.raised.getLast?).map (·.src) = some 1732) ∧
        (r = .ring → s.dev.flag Reg.GLB_CAL_STS_PEER_ABSENT = true → (d.raised.getLast?).map (·.src) = some 1732 ∧
          ∀ x ∈ d.mde.ring, x.seq / recsPerPage % ringPages = hit → x.good = false) ∧
        (r = .manifest → d.tph.mans = s.dev.tph.mans.filter (fun m => decide (m.seg ≠ hit))) ∧
        (r = .metadata → pageClass hit = 1 → hit ∈ d.mde.away) ∧
        (r = .metadata → pageClass hit ≠ 1 → (s.dev.mde.pages.find? (fun e => decide (e.1 = hit))).isSome = true → (tget {} d.mde.pages hit).resident = false) ∧
        (r = .bucket → d.lineNow (a / 256) = List.replicate 256 0) ∧
        (r = .window → d.ram = writeByte s.dev.ram a (readByte s.dev.ram a ^^^ 1)) ∧
        (r = .heap → EdgeAct.stewardRestart 3 ∈ d.edge) ∧
        (∀ p e, r = .mirror p → s.dev.cal.mirDirs.find? (fun e => decide (e.2.page ≤ p) && decide (p < e.2.page + 2 ^ e.2.size)) = some e →
          s.dev.ustate (.qp e.2.mirrorQp) ≠ .off → tget 0 d.hwPend (1024 + e.2.mirrorQp) ≠ 0))) ∧
    (∀ errs : List (Nat × MemErr × Nat),
      s.dev.flag Reg.MEM_PATROL_EN = false ∨ s.dev.fld Reg.MEM_STS_START ≠ 2 ∨ s.dev.fld Reg.MEM_PATROL_RATE = 0 ∨ errs = [] →
      Machine.exec (.patrolScrub errs) s = .next s) ∧
    (s.dev.flag Reg.MEM_PATROL_EN = true → s.dev.fld Reg.MEM_STS_START = 2 → 0 < s.dev.fld Reg.MEM_PATROL_RATE → ∀ e f : Nat × MemErr × Nat,
      Machine.exec (.patrolScrub [e]) s = Machine.exec (.memoryReadError e.1 e.2.1 e.2.2 []) s ∧
      (s.dev.channelOf (e.1 % 2 ^ 44) = s.dev.channelOf (f.1 % 2 ^ 44) → s.dev.fld Reg.MEM_PATROL_RATE = 1 →
        Machine.exec (.patrolScrub [e, f]) s = Machine.exec (.patrolScrub [e]) s) ∧
      (s.dev.channelOf (e.1 % 2 ^ 44) ≠ s.dev.channelOf (f.1 % 2 ^ 44) ∨ 2 ≤ s.dev.fld Reg.MEM_PATROL_RATE → ∃ d : Dev,
        Machine.exec (.memoryReadError e.1 e.2.1 e.2.2 []) s = .next { s with dev := d } ∧
        Machine.exec (.patrolScrub [e, f]) s = Machine.exec (.memoryReadError f.1 f.2.1 f.2.2 []) { s with dev := d })) ∧
    (s.dev.cal.pwrfail = true ∨ s.dev.pinsOn = false → Machine.exec .pwrfail s = .next s) ∧
    (s.dev.cal.pwrfail = false → s.dev.pinsOn = true → ∃ d : Dev, Machine.exec .pwrfail s = .next { s with dev := d } ∧ d.cal.pwrfail = true ∧
      d.mem.selfRefresh = true ∧ d.fld Reg.MEM_GEY_BEAT_BEAT = s.dev.beat % 2 ^ 64 ∧ EdgeAct.geyser ∈ d.edge ∧ d.raised = s.dev.raised ∧
      d.drv.queue = s.dev.drv.queue.filter (fun e => decide (e.2.cls ≠ vcCatchup)) ∧
      ∀ p, p < 16 → s.dev.ustate (.port p) ≠ .off → tget 0 d.hwPend (16 + p) ≠ 0) ∧
    (s.dev.geyserDue = false → Machine.exec .geyserFlushDone s = .next s) ∧
    (s.dev.geyserDue = true → ∃ d : Dev, Machine.exec .geyserFlushDone s = .next { s with dev := d } ∧ d.fld Reg.MEM_GEY_STS_STATE = 2 ∧
      d.mem = s.dev.mem ∧ d.raised = s.dev.raised ++ [⟨1736, eventCode 1736, s.dev.fld Reg.MEM_GEY_STS_RESULT % 2 ^ 32, s.dev.fld Reg.MEM_GEY_BYTES_BYTES / 2 ^ 20 % 2 ^ 32, 0, s.dev.beat⟩]) ∧
    (∀ (labels : List (Option (List Byte))) (image logs : List (List (Nat × List Byte))),
      (s.dev.fis.step ≠ 9 ∨ s.dev.fis.restored = true → Machine.exec (.geyserRestore labels image logs) s = .next s) ∧
      (s.dev.fis.step = 9 → s.dev.fis.restored = false →
        let good := s.dev.goodLabels labels
        let use := s.dev.imageGood good ((List.range 2).map (s.dev.imageRecs good image))
        ∃ d : Dev, Machine.exec (.geyserRestore labels image logs) s = .next { s with dev := d } ∧ d.flag Reg.MEM_GEY_STS_RESTORED = use ∧ d.fis.restored = true ∧
          d.mem.image = (s.dev.mem.image || use) ∧ s.dev.mem.vseq ≤ d.mem.vseq ∧ (use = true → (d.raised.getLast?).map (·.src) = some 1737) ∧
          (use = false → good.any (fun g => labelValid g.2) = true → (d.raised.getLast?).map (·.src) = some 1738)))

/-- Taking a request, tickets, and the mailbox commands that only read (R528, R532, R533, R536, R537, R538, R540, R541, R542, R544, R545, R553). -/
def Obligations.MailboxRequestsAndReads : Prop :=
  ∀ (s : State),
    (∀ c : Nat,
      (8 ≤ c ∨ s.dev.steward ≠ stRunning ∨ s.dev.fld (Reg.MBX_STS_STATE c) ≠ 1 → Machine.exec (.requestTake c) s = .next s) ∧
      (c < 8 → s.dev.steward = stRunning → s.dev.fld (Reg.MBX_STS_STATE c) = 1 →
        (∀ n, s.dev.envelopeBad c = some n → Answered (Machine.exec (.requestTake c) s) s c (replyNo 0x02 n) (fun d => d.fld (Reg.MBX_REQ_SEQ_SEQ c) = s.dev.fld (Reg.MBX_REQ_SEQ_SEQ c))) ∧
        (s.dev.envelopeBad c = none →
          (s.dev.req c 4 4 = s.dev.fld (Reg.MBX_REQ_SEQ_SEQ c) → ∃ d : Dev, Machine.exec (.requestTake c) s = .next { s with dev := d } ∧
            d.fld (Reg.MBX_STS_STATE c) = 3 ∧ readBytes d.mbx.mem (respBase c) 2 = readBytes s.dev.mbx.mem (respBase c) 2 ∧
            readBytes d.mbx.mem (respBase c + 3) 25 = readBytes s.dev.mbx.mem (respBase c + 3) 25 ∧
            leNat (readBytes d.mbx.mem (respBase c + 2) 1) = Nat.lor (leNat (readBytes s.dev.mbx.mem (respBase c + 2) 1)) 1) ∧
          (s.dev.req c 4 4 ≠ s.dev.fld (Reg.MBX_REQ_SEQ_SEQ c) →
            (mbxCodes.contains (s.dev.req c 0 2) = false → Answered (Machine.exec (.requestTake c) s) s c (replyNo 0x03 0) (fun d => d.fld (Reg.MBX_REQ_SEQ_SEQ c) = s.dev.req c 4 4)) ∧
            (mbxCodes.contains (s.dev.req c 0 2) = true → ∃ d : Dev, Machine.exec (.requestTake c) s = .next { s with dev := d } ∧
              d.fld (Reg.MBX_STS_STATE c) = 2 ∧ d.fld (Reg.MBX_REQ_SEQ_SEQ c) = s.dev.req c 4 4 ∧ d.mbx.mem = s.dev.mbx.mem ∧ d.raised = s.dev.raised))))) ∧
    (s.dev.newEpoch = false → Machine.exec .ticketDone s = .next s) ∧
    (s.dev.newEpoch = true → ∃ d : Dev, Machine.exec .ticketDone s = .next { s with dev := d } ∧
      d.fld Reg.MBX_GLB_STS_TICKETS = (d.mbx.tickets.filter (fun t => decide (t.done = 0))).length % 2 ^ 9 ∧
      ∀ t ∈ s.dev.mbx.tickets, t.done = 0 → ∀ r, t.result = some r →
        { t with done := s.dev.epoch + 1 } ∈ d.mbx.tickets ∧ ∃ e ∈ d.raised, e.src = 1864 ∧ e.p0 = t.num % 2 ^ 32 ∧ e.p1 = r.1 % 2 ^ 32) ∧
    AnswersRead s .identify 0x0101 32 (fun _ => replyOk s.dev.identifyBody) ∧
    AnswersRead s .status 0x0102 32 (fun _ => replyOk (leBytes 1 s.dev.fovState ++ leBytes 1 (s.dev.fld Reg.GLB_MODE_MODE) ++
          leBytes 1 (s.dev.fld Reg.GLB_CAL_STS_MODE) ++ leBytes 1 (s.dev.fld Reg.CDX_STS_LINK) ++ leBytes 8 s.dev.ownMask ++ leBytes 8 s.dev.epoch ++ leBytes 4 s.dev.ownDirty)) ∧
    AnswersRead s .portAddrs 0x0103 36 (fun c =>
          let p := s.dev.req c 32 1
          if 16 ≤ p then replyNo 0x04 32 else replyOk (leBytes 6 (s.dev.fld (Reg.HPT_MAC_MAC p)) ++ leBytes 2 0 ++ leBytes 4 (s.dev.port p).ip4.toNat ++
            leBytes 1 (s.dev.port p).ip6.length ++ leBytes 3 0 ++ (List.range 4).flatMap (fun i => padTo 16 ((s.dev.port p).ip6.getD i [])))) ∧
    AnswersRead s .ticketStatus 0x0104 36 (fun c =>
          match s.dev.mbx.tickets.find? (fun t => decide (t.num = s.dev.req c 32 4)) with
          | none => replyNo 0x04 32
          | some t => if t.done = 0 then replyOk (leBytes 1 0 ++ leBytes 1 0x0D ++ leBytes 2 0 ++ leBytes 2 t.code ++ leBytes 10 0)
            else replyOk (leBytes 1 1 ++ leBytes 1 (t.result.getD (0, 0)).1 ++ leBytes 2 (t.result.getD (0, 0)).2 ++ leBytes 2 t.code ++ leBytes 2 0 ++ leBytes 8 (t.done - 1))) ∧
    AnswersRead s .settingGet 0x0201 36 (fun c =>
          let a := s.dev.req c 32 4
          let v := s.dev.settingsCopy.bind (fun i => ((s.dev.flashCopy i).vals.find? (fun x => decide (x.1 = a))).map (·.2))
          if a % 4 ≠ 0 ∨ 0x400_0000 ≤ a then replyNo 0x04 32 else replyOk (leBytes 4 (v.getD 0) ++ leBytes 1 (if v.isSome then 1 else 0))) ∧
    AnswersRead s .volQuery 0x0308 36 (fun c =>
          let v := s.dev.req c 32 2
          if 32768 ≤ v ∨ (s.dev.vol v).valid = false then replyNo 0x04 32
          else if s.dev.flag (Reg.NVT_ANA_OWN (s.dev.vol v).anaGrp) = false then replyNo 0x05 s.dev.peerSlot
          else replyOk ((s.dev.nsWords v).flatMap (leBytes 4) ++ leBytes 1 (s.dev.volRed v).code ++ leBytes 1 0 ++ leBytes 2 (s.dev.volRed v).kslot ++ leBytes 1 (s.dev.tree v).state.code)) ∧
    AnswersRead s .snapList 0x0404 36 (fun c =>
          let l := (s.dev.snapsFrom (s.dev.req c 32 4)).take 253
          replyOk (leBytes 2 l.length ++ leBytes 6 0 ++ l.flatMap (fun t => leBytes 4 (t - 32768) ++ leBytes 2 (s.dev.tree t).source ++
            leBytes 1 (s.dev.tree t).state.code ++ leBytes 1 0 ++ leBytes 8 (tget 0 s.dev.rep.gens t)))) ∧
    AnswersRead s .keyQuery 0x0603 36 (fun c =>
          if 4096 ≤ s.dev.req c 32 2 then replyNo 0x04 32 else replyOk ((s.dev.slotWords (s.dev.req c 32 2)).flatMap (leBytes 4))) ∧
    AnswersRead s .witnessRead 0x0701 32 (fun _ => replyOk (padTo 80 s.dev.fov.raw ++ leBytes 1 (s.dev.fld Reg.FOV_WIT_STS_MAJORITY))) ∧
    AnswersRead s .fumRead 0x0802 40 (fun c =>
          let l := (s.dev.fumFrom (s.dev.req c 32 4)).take (s.dev.req c 36 1)
          if 126 < s.dev.req c 36 1 then replyNo 0x04 36
          else replyOk (leBytes 1 l.length ++ leBytes 3 0 ++ leBytes 4 (s.dev.fld Reg.FUM_OLDEST_SEQ) ++ List.replicate 24 0 ++ l.flatMap (padTo 32))) ∧
    AnswersRead s .pmcSnapshot 0x0902 36 (fun c =>
          let b := s.dev.req c 32 1
          if 9 ≤ b then replyNo 0x04 32 else replyOk (leBytes 8 (s.dev.fld (Reg.PMC_SNAP_EPOCH_EPOCH b)) ++ leBytes 8 (s.dev.fld (Reg.PMC_SNAP_CYCLE_CYCLE b)) ++
            (List.range 8).flatMap (fun n => leBytes 8 (s.dev.fld (Reg.PMC_SNAP_CNT_COUNT b n))))) ∧
    AnswersRead s .updateStatus 0x0A06 32 (fun _ => replyOk ((List.range 8).flatMap (fun i => leBytes 4 (s.dev.fieldWord (0x140_0010 + 4 * i))))) ∧
    (s.dev.steward ≠ stRunning ∨ s.dev.mbxChannel 0x0B01 = none → Machine.exec .echo s = .next s) ∧
    (s.dev.steward ≠ stRunning ∨ s.dev.mbxChannel 0x0901 = none → Machine.exec .pmcEvents s = .next s) ∧
    (s.dev.steward ≠ stRunning ∨ s.dev.mbxChannel 0x0B03 = none → Machine.exec .laneMargin s = .next s) ∧
    (∀ c, s.dev.steward = stRunning →
      (s.dev.mbxChannel 0x0B01 = some c → Answered (Machine.exec .echo s) s c (replyOk (s.dev.reqBytes c 32 (s.dev.req c 8 4 - 32))) (ReadsOnly s)) ∧
      (s.dev.mbxChannel 0x0901 = some c → s.dev.req c 8 4 ≠ 36 → Answered (Machine.exec .pmcEvents s) s c (replyNo 0x04 8) (ReadsOnly s)) ∧
      (s.dev.mbxChannel 0x0B03 = some c → s.dev.req c 8 4 ≠ 36 → Answered (Machine.exec .laneMargin s) s c (replyNo 0x04 8) (ReadsOnly s)) ∧
      (s.dev.mbxChannel 0x0901 = some c → s.dev.req c 8 4 = 36 →
        (9 ≤ s.dev.req c 32 1 → Answered (Machine.exec .pmcEvents s) s c (replyNo 0x04 32) (ReadsOnly s)) ∧
        (s.dev.req c 32 1 < 9 →
          let l := ((pmcEvents (s.dev.req c 32 1)).filter (fun e => decide (s.dev.req c 34 2 ≤ e))).take 253
          ∃ body : List Byte, body.length = 16 * l.length ∧ (∀ k e, l[k]? = some e → leField body (16 * k) 2 = e % 2 ^ 16) ∧
            Answered (Machine.exec .pmcEvents s) s c (replyOk (leBytes 2 l.length ++ List.replicate 14 0 ++ body)) (fun d =>
              d = { s.dev with mbx := d.mbx, fields := d.fields, raised := d.raised, free := d.free }))) ∧
      (s.dev.mbxChannel 0x0B03 = some c → s.dev.req c 8 4 = 36 →
        (128 ≤ s.dev.req c 32 1 → Answered (Machine.exec .laneMargin s) s c (replyNo 0x04 32) (ReadsOnly s)) ∧
        (s.dev.req c 32 1 < 128 → 4 ≤ s.dev.req c 33 1 → Answered (Machine.exec .laneMargin s) s c (replyNo 0x04 33) (ReadsOnly s)) ∧
        (s.dev.req c 32 1 < 128 → s.dev.req c 33 1 < 4 → s.dev.isOn (.att (s.dev.req c 32 1)) = false →
          Answered (Machine.exec .laneMargin s) s c (replyNo 0x01 0) (ReadsOnly s)) ∧
        (s.dev.req c 32 1 < 128 → s.dev.req c 33 1 < 4 → s.dev.isOn (.att (s.dev.req c 32 1)) = true →
          Answered (Machine.exec .laneMargin s) s c (replyOk (leBytes 2 (Config.freeNat s.dev.free) ++ leBytes 2 (Config.freeNat s.dev.free / 2 ^ 16))) (fun d =>
            d = { s.dev with mbx := d.mbx, fields := d.fields, raised := d.raised, free := s.dev.free + 1 })))) ∧
    (∀ kind : Nat, ∃ d : Dev, Machine.exec (.managementReset kind) s = .next { s with dev := d } ∧
      d.raised = s.dev.raised ++ [⟨1869, eventCode 1869, kind % 2 ^ 32, 0, 0, s.dev.beat⟩] ∧
      ∀ f : Fld, d.fld f = (if 8 * (Reg.bar2 + 0xC_0000) ≤ f.key ∧ f.key < 8 * (Reg.bar2 + 0xD_0100) then f.reset else s.dev.fld f))

/-- Mailbox commands for settings, subsystems, hosts, volumes, snapshots, clones and replication (R539, R540, R542, R543, R545, R546, R547, R548, R549, R550). -/
def Obligations.MailboxConfigurationCommands : Prop :=
  ∀ (s : State),
    let req := s.dev.req
    AnswersChange s .settingSet 0x0202 (fun c => req c 8 4 = 48)
      (fun c => if settableAt (req c 32 4) = [] then some (replyNo 0x04 32) else noTicket s)
      (fun _ => pending s [])
      (fun c d => d.mbx.sets = s.dev.mbx.sets ++
          [(req c 32 4, req c 36 4, req c 40 4, 2 * s.dev.mbx.nextTicket + req c 44 1 % 2)]) ∧
    AnswersChange s .portSet 0x0203 (fun c => 48 + 16 * min 4 (req c 40 1) ≤ req c 8 4 ∧ req c 8 4 ≤ 112 ∧ req c 8 4 % 16 = 0)
      (fun c => if 16 ≤ req c 32 1 then some (replyNo 0x04 32) else if 4 < req c 40 1 then some (replyNo 0x04 40)
            else if s.dev.ustate (.port (req c 32 1)) ≠ .off then some (replyNo 0x01 0) else none)
      (fun _ => replyOk [])
      (fun c d => (d.port (req c 32 1)).ip4 = BitVec.ofNat 32 (req c 36 4) ∧
          (d.port (req c 32 1)).ip6 = (List.range (req c 40 1)).map (fun k => s.dev.reqBytes c (48 + 16 * k) 16)) ∧
    AnswersChange s .tephraRebuild 0x0205 (fun c => req c 8 4 = 36)
      (fun _ => none)
      (fun c => replyOk (leBytes 4 (if req c 32 4 = 0 ∨ s.dev.mbx.rebuild.2 ≠ [] then s.dev.mbx.rebuild.2 else s.dev.manifestSegs).length))
      (fun c d => d.mbx.rebuild = (req c 32 4, if req c 32 4 = 0 ∨ s.dev.mbx.rebuild.2 ≠ [] then s.dev.mbx.rebuild.2 else s.dev.manifestSegs)) ∧
    AnswersChange s .subsysCreate 0x0301 (fun c => req c 8 4 = 260)
      (fun c =>
          (noArray s).orElse (fun _ => if (s.dev.subsystem (req c 32 1)).valid then some (replyNo 0x06 0) else noTicket s))
      (fun _ => pending s [])
      (fun c d =>
          d.subsystem (req c 32 1) = { valid := true, nqn := s.dev.reqBytes c 36 224 } ∧ ⟨s.dev.mbx.nextTicket, 0x0301, some (0, 0), 0⟩ ∈ d.mbx.tickets) ∧
    AnswersChange s .subsysDelete 0x0302 (fun c => req c 8 4 = 36)
      (fun c =>
          (noArray s).orElse (fun _ => if (s.dev.subsystem (req c 32 1)).valid = false then some (replyNo 0x04 32)
            else if s.dev.nvt.ns.any (fun e => (e.2.valid || e.2.deleting) && decide (e.2.subsys = req c 32 1)) ∨
              s.dev.nvt.ctrls.any (fun e => e.2.valid && decide (e.2.subsys = req c 32 1)) then some (replyNo 0x01 0) else noTicket s))
      (fun _ => pending s [])
      (fun c d => d.subsystem (req c 32 1) = {}) ∧
    AnswersChange s .hostSet 0x0303 (fun c => req c 8 4 = 264)
      (fun c =>
          (noArray s).orElse (fun _ => if (s.dev.subsystem (req c 32 1)).valid = false then some (replyNo 0x04 32)
            else if req c 33 1 ≠ 1 ∧ req c 33 1 ≠ 2 then some (replyNo 0x04 33) else if 4096 ≤ req c 34 2 then some (replyNo 0x06 0) else noTicket s))
      (fun _ => pending s [])
      (fun c d => req c 34 2 ∈ (d.subsystem (req c 32 1)).hosts ↔ req c 33 1 = 1) ∧
    AnswersChange s .volCreate 0x0304 (fun c => req c 8 4 = 52)
      (fun c =>
          if 32768 ≤ req c 32 2 then some (replyNo 0x04 32) else if (s.dev.subsystem (req c 34 1)).valid = false then some (replyNo 0x04 34)
          else if 2 ≤ req c 35 1 then some (replyNo 0x04 35) else if req c 36 4 = 0 ∨ 32768 < req c 36 4 then some (replyNo 0x04 36)
          else if 2 ^ 35 < req c 40 8 then some (replyNo 0x04 40) else if 64 ≤ req c 48 1 then some (replyNo 0x04 48)
          else if bitOf (req c 49 1) 3 ∨ bitOf (req c 49 1) 7 then some (replyNo 0x04 49) else if 4094 ≤ req c 50 2 then some (replyNo 0x04 50)
          else if s.dev.flag (Reg.NVT_ANA_OWN (req c 48 1)) = false then some (replyNo 0x05 s.dev.peerSlot)
          else if s.dev.volTaken (req c 32 2) (req c 34 1) (req c 36 4) then some (replyNo 0x06 0)
          else if (s.dev.kslot (req c 50 2)).state = .empty then some (replyNo 0x08 (req c 50 2)) else none)
      (fun _ => replyOk [])
      (fun c d => (d.vol (req c 32 2)) = { valid := true, lbaf := decide (req c 35 1 = 1), anaGrp := req c 48 1, subsys := req c 34 1, nsid := req c 36 4, size := req c 40 8 } ∧
          (d.tree (req c 32 2)).state = .ready ∧ (d.volRed (req c 32 2)).kslot = req c 50 2 ∧ EdgeAct.red (req c 32 2) (req c 49 1) ∈ d.edge) ∧
    AnswersChange s .volResize 0x0305 (fun c => req c 8 4 = 48)
      (fun c => (noVol s (req c 32 2)).orElse (fun _ =>
          if req c 40 8 < (s.dev.vol (req c 32 2)).size ∨ 2 ^ 35 < req c 40 8 then some (replyNo 0x04 40) else none))
      (fun _ => replyOk [])
      (fun c d => d.vol (req c 32 2) = { s.dev.vol (req c 32 2) with size := req c 40 8 }) ∧
    AnswersChange s .volSet 0x0306 (fun c => req c 8 4 = 36)
      (fun c => (noVol s (req c 32 2)).orElse (fun _ =>
          if 2 ≤ req c 34 1 then some (replyNo 0x04 34) else if bitOf (req c 35 1) 3 ∨ bitOf (req c 35 1) 7 then some (replyNo 0x04 35) else none))
      (fun _ => replyOk [])
      (fun c d => d.vol (req c 32 2) = { s.dev.vol (req c 32 2) with roVol := decide (req c 34 1 = 1) } ∧
          EdgeAct.red (req c 32 2) (req c 35 1) ∈ d.edge) ∧
    AnswersChange s .volDelete 0x0307 (fun c => req c 8 4 = 36)
      (fun c => (noVol s (req c 32 2)).orElse (fun _ =>
          if s.dev.rep.sess.any (fun e => (decide (e.2.state ≠ .free) || decide (e.2.session ≠ 0)) &&
              decide ((if e.2.target then e.2.dstVol else e.2.srcVol) = req c 32 2)) ∨ s.dev.cloneSource (req c 32 2) then some (replyNo 0x01 0) else noTicket s))
      (fun _ => pending s [])
      (fun c d => (d.vol (req c 32 2)).valid = false ∧ (d.vol (req c 32 2)).deleting = true ∧
          (d.tree (req c 32 2)).state = .deleting ∧ (req c 32 2, s.dev.mbx.nextTicket) ∈ d.mbx.treeTickets) ∧
    AnswersChange s .groupHome 0x0309 (fun c => req c 8 4 = 36)
      (fun c => (noArray s).orElse (fun _ =>
          if 64 ≤ req c 32 1 then some (replyNo 0x04 32) else if 2 ≤ req c 33 1 then some (replyNo 0x04 33)
          else if s.dev.nvt.ns.any (fun e => (e.2.valid || e.2.deleting) && decide (e.2.anaGrp = req c 32 1)) then some (replyNo 0x01 0) else noTicket s))
      (fun _ => pending s [])
      (fun c d =>
          WitWhy.home (bitPut (s.dev.fld Reg.FOV_HOME_MASK) (req c 32 1) (decide (req c 33 1 = 1))) ∈ d.fov.todo) ∧
    AnswersChange s .snapDelete 0x0402 (fun c => req c 8 4 = 36)
      (fun c =>
          let t := 32768 + req c 32 4
          if 1048576 ≤ req c 32 4 ∨ (s.dev.tree t).state = .free then some (replyNo 0x04 32)
          else if s.dev.ownsVol (s.dev.tree t).source = false then some (replyNo 0x05 s.dev.peerSlot)
          else if s.dev.snapHeld t ∨ (s.dev.tree t).state = .pending ∨ (s.dev.tree t).state = .deleting then some (replyNo 0x01 0) else noTicket s)
      (fun _ => pending s [])
      (fun c d => (d.tree (32768 + req c 32 4)).state = .deleting ∧
          (32768 + req c 32 4, s.dev.mbx.nextTicket) ∈ d.mbx.treeTickets) ∧
    AnswersChange s .cloneCreate 0x0403 (fun c => req c 8 4 = 44)
      (fun c =>
          let t := 32768 + req c 32 4
          if 1048576 ≤ req c 32 4 ∨ (s.dev.tree t).state = .free then some (replyNo 0x04 32) else if 32768 ≤ req c 36 2 then some (replyNo 0x04 36)
          else if (s.dev.subsystem (req c 38 1)).valid = false then some (replyNo 0x04 38) else if 64 ≤ req c 39 1 then some (replyNo 0x04 39)
          else if req c 40 4 = 0 ∨ 32768 < req c 40 4 then some (replyNo 0x04 40)
          else if s.dev.flag (Reg.NVT_ANA_OWN (req c 39 1)) = false then some (replyNo 0x05 s.dev.peerSlot)
          else if s.dev.volTaken (req c 36 2) (req c 38 1) (req c 40 4) then some (replyNo 0x06 0)
          else if (s.dev.tree t).state ≠ .ready then some (replyNo 0x01 0) else none)
      (fun _ => replyOk [])
      (fun c d => (d.vol (req c 36 2)).valid = true ∧ (d.vol (req c 36 2)).anaGrp = req c 39 1 ∧
          (d.vol (req c 36 2)).nsid = req c 40 4 ∧ (d.tree (req c 36 2)).root = (s.dev.tree (32768 + req c 32 4)).root ∧ (d.tree (req c 36 2)).state = .ready ∧
          (d.tree (req c 36 2)).source = 32768 + req c 32 4) ∧
    AnswersChange s .repCreate 0x0501 (fun c => req c 8 4 = 80)
      (fun c =>
          let role := req c 32 1
          if 2 ≤ role then some (replyNo 0x04 32) else if 16 ≤ req c 33 1 then some (replyNo 0x04 33)
          else if 32768 ≤ req c 34 2 ∨ (role = 0 ∧ (s.dev.vol (req c 34 2)).valid = false) then some (replyNo 0x04 34)
          else if 32768 ≤ req c 36 2 ∨ (role = 1 ∧ (s.dev.vol (req c 36 2)).valid = false) then some (replyNo 0x04 36)
          else if role = 1 ∧ (req c 38 2 = 0 ∨ 2048 < req c 38 2) then some (replyNo 0x04 38)
          else if req c 40 8 = 0 ∨ s.dev.rep.sess.any (fun e => decide (e.2.session = req c 40 8)) then some (replyNo 0x04 40)
          else if s.dev.ownsVol (if role = 0 then req c 34 2 else req c 36 2) = false then some (replyNo 0x05 s.dev.peerSlot)
          else if s.dev.freeSess = none then some (replyNo 0x06 0) else none)
      (fun _ => replyOk (leBytes 1 (s.dev.freeSess.getD 0)))
      (fun c d => d.sess (s.dev.freeSess.getD 0) = { target := decide (req c 32 1 = 1), port := req c 33 1, srcVol := req c 34 2, dstVol := req c 36 2, want := req c 38 2, session := req c 40 8, addr0 := s.dev.reqBytes c 48 16, addr1 := s.dev.reqBytes c 64 16 }) ∧
    AnswersChange s .repStart 0x0502 (fun c => req c 8 4 = 56)
      (fun c => (noSess s (req c 32 1)).orElse (fun _ =>
          let x := s.dev.sess (req c 32 1)
          if x.state ≠ .free ∧ x.state ≠ .done ∧ x.state ≠ .failed then some (replyNo 0x01 0)
          else if req c 40 8 ≠ 0 ∧ x.target = false ∧ (s.dev.genTree x.srcVol (req c 40 8)).isNone then some (replyNo 0x04 40)
          else if req c 48 8 ≤ req c 40 8 ∨ (x.target = false ∧ (s.dev.genTree x.srcVol (req c 48 8)).isNone) then some (replyNo 0x04 48) else noTicket s))
      (fun _ => pending s [])
      (fun c d => (d.sess (req c 32 1)).state = .opening ∧
          (d.sess (req c 32 1)).baseGen = req c 40 8 ∧ (d.sess (req c 32 1)).newGen = req c 48 8 ∧ (d.sess (req c 32 1)).ticket = s.dev.mbx.nextTicket) ∧
    AnswersChange s .repSuspend 0x0503 (fun c => req c 8 4 = 36)
      (fun c => noSess s (req c 32 1))
      (fun _ => replyOk [])
      (fun c d =>
          ((s.dev.sess (req c 32 1)).state ∈ [RepState.opening, .streaming, .committing] → (d.sess (req c 32 1)).state = .suspended) ∧
          ((s.dev.sess (req c 32 1)).state ∉ [RepState.opening, .streaming, .committing] → d.rep = s.dev.rep)) ∧
    AnswersChange s .repResume 0x0504 (fun c => req c 8 4 = 36)
      (fun c => (noSess s (req c 32 1)).orElse (fun _ =>
          if (s.dev.sess (req c 32 1)).state ≠ .suspended then some (replyNo 0x01 0) else none))
      (fun _ => replyOk [])
      (fun c d => (d.sess (req c 32 1)).state = .opening) ∧
    AnswersChange s .repDelete 0x0505 (fun c => req c 8 4 = 36)
      (fun c => noSess s (req c 32 1))
      (fun _ => replyOk [])
      (fun c d => d.sess (req c 32 1) = {}) ∧
    (s.dev.steward ≠ stRunning ∨ s.dev.mbxChannel 0x0204 = none → Machine.exec .lockEntry s = .next s) ∧
    (∀ c, RunsOn s 0x0204 c → req c 8 4 ≠ 56 → Answered (Machine.exec .lockEntry s) s c (replyNo 0x04 8) (ReadsOnly s)) ∧
    (s.dev.steward ≠ stRunning ∨ s.dev.mbxChannel 0x0401 = none → Machine.exec .snapCreate s = .next s) ∧
    (∀ c, RunsOn s 0x0401 c → req c 8 4 ≠ 48 + 8 * req c 32 2 → Answered (Machine.exec .snapCreate s) s c (replyNo 0x04 8) (ReadsOnly s)) ∧
    (∀ c, RunsOn s 0x0204 c → req c 8 4 = 56 →
      let k := req c 32 1
      let op := req c 33 1
      let busy := s.dev.flag Reg.MDC_CMD_STS_BUSY
      let st := s.dev.fld Reg.MDC_CMD_STS_STATUS
      (s.dev.mbx.lock = c + 1 → busy = true → Machine.exec .lockEntry s = .next s) ∧
      (s.dev.mbx.lock = c + 1 → busy = false → Answered (Machine.exec .lockEntry s) s c { st := st, detail := if st = 0x04 then 36 else 0, body := leBytes 1 st } (fun d => d.mbx.lock = 0)) ∧
      (s.dev.mbx.lock ≠ c + 1 →
        (12 ≤ k → Answered (Machine.exec .lockEntry s) s c (replyNo 0x04 32) (Untouched s)) ∧
        (k < 12 → op ≠ 1 → op ≠ 2 → Answered (Machine.exec .lockEntry s) s c (replyNo 0x04 33) (Untouched s)) ∧
        (k < 12 → op = 1 ∨ op = 2 → s.dev.isOn .mdc = false → Answered (Machine.exec .lockEntry s) s c (replyNo 0x01 0) (Untouched s)) ∧
        (k < 12 → op = 1 ∨ op = 2 → s.dev.isOn .mdc = true → busy = true → Machine.exec .lockEntry s = .next s) ∧
        (k < 12 → op = 1 ∨ op = 2 → s.dev.isOn .mdc = true → busy = false → ∃ d : Dev, Machine.exec .lockEntry s = .next { s with dev := d } ∧
          d.mbx.lock = c + 1 ∧ d.fld (Reg.MBX_STS_STATE c) = 2 ∧ d.flag Reg.MDC_CMD_STS_BUSY = true ∧ d.fld Reg.MDC_CMD_ENTRY = k ∧
          (op = 1 → d.fld (Reg.MDC_LOCK_WAYS_WAYS k) = req c 36 2)))) ∧
    (∀ c, RunsOn s 0x0401 c → req c 8 4 = 48 + 8 * req c 32 2 →
      let run := s.dev.mbx.snapRuns.find? (fun r => decide (r.chan = c))
      let part := (List.range (req c 32 2)).map (fun k => (req c (48 + 8 * k) 2, req c (52 + 8 * k) 4))
      let held := ((run.map (·.vols)).getD []) ++ part
      let dead := (run.map (·.dead)).getD false
      let other := (run.map (fun r => decide (r.grp ≠ req c 34 2) || decide (r.gen ≠ req c 40 8))).getD false
      (dead = true → Answered (Machine.exec .snapCreate s) s c (replyNo 0x04 36) (fun d => ∀ r ∈ d.mbx.snapRuns, r.chan ≠ c)) ∧
      (dead = false → part = [] ∨ 506 < part.length ∨ 1024 < held.length → Answered (Machine.exec .snapCreate s) s c (replyNo 0x04 32) (Untouched s)) ∧
      (dead = false → part ≠ [] → part.length ≤ 506 → held.length ≤ 1024 → 2 ≤ req c 36 1 → Answered (Machine.exec .snapCreate s) s c (replyNo 0x04 36) (Untouched s)) ∧
      (dead = false → part ≠ [] → part.length ≤ 506 → held.length ≤ 1024 → req c 36 1 < 2 → other = true → ∃ o, (o = 34 ∨ o = 40) ∧
        Answered (Machine.exec .snapCreate s) s c (replyNo 0x04 o) (Untouched s)) ∧
      (dead = false → part ≠ [] → part.length ≤ 506 → held.length ≤ 1024 → req c 36 1 < 2 → other = false →
        ∀ r, (s.dev.snapRefused part (some 48)).orElse (fun _ => s.dev.snapRefused held none) = some r → Answered (Machine.exec .snapCreate s) s c r (Untouched s)) ∧
      (dead = false → part ≠ [] → part.length ≤ 506 → held.length ≤ 1024 → other = false →
        (s.dev.snapRefused part (some 48)).orElse (fun _ => s.dev.snapRefused held none) = none →
        (req c 36 1 = 1 → Answered (Machine.exec .snapCreate s) s c (replyOk (leBytes 8 0 ++ leBytes 2 held.length)) (fun d =>
          ∃ r ∈ d.mbx.snapRuns, r.chan = c ∧ r.vols = held ∧ r.dead = false ∧ r.beat = s.dev.fld (Reg.MBX_DB_BEAT_BEAT c))) ∧
        (req c 36 1 = 0 → (s.dev.mbx.tickets.filter (fun t => decide (t.done = 0))).length < 256 → Answered (Machine.exec .snapCreate s) s c (pending s (leBytes 8 (s.dev.beat + 1 + s.dev.stepPend) ++ leBytes 2 held.length)) (fun d =>
          ∀ x ∈ held, (d.tree (32768 + x.2)).state = .pending ∧ (d.tree (32768 + x.2)).source = x.1 ∧ tget 0 d.rep.gens (32768 + x.2) = req c 40 8)))) ∧
    Machine.exec .snapRunTimeout s = .next { s with dev :=
      ({ s.dev with mbx := { s.dev.mbx with snapRuns := s.dev.mbx.snapRuns.map (fun r => if 2 ^ 20 < s.dev.since r.beat then { r with dead := true } else r) } }) }

/-- Mailbox commands for keys, the witness, hand-over, events, updates and debug, and the restart of the steward (R493, R539, R540, R541, R551, R552, R553, R554, R555, R556, R557, R653). -/
def Obligations.MailboxKeysOwnershipUpdatesAndDiagnostics : Prop :=
  ∀ (s : State),
    let req := s.dev.req
    let cause : Nat := if s.dev.dbgActive then 2 else 1
    let wraps (n : Nat) : Nat := (n + 3) / 4 * 4
    let own (i : Instr) (code : Nat) (fits : Nat → Prop) : Prop :=
      (s.dev.steward ≠ stRunning ∨ s.dev.mbxChannel code = none → Machine.exec i s = .next s) ∧
      (∀ c, RunsOn s code c → ¬fits c → Answered (Machine.exec i s) s c (replyNo 0x04 8) (ReadsOnly s))
    AnswersChange s .witnessSet 0x0702 (fun c => req c 8 4 = 44)
      (fun c => (noArray s).orElse (fun _ =>
          if 128 ≤ req c 32 1 then some (replyNo 0x04 32) else if 128 ≤ req c 33 1 then some (replyNo 0x04 33) else if 128 ≤ req c 34 1 then some (replyNo 0x04 34)
          else if s.dev.isOn (.att (req c 32 1)) && s.dev.isOn (.att (req c 33 1)) && s.dev.isOn (.att (req c 34 1)) then noTicket s else some (replyNo 0x01 0)))
      (fun _ => pending s [])
      (fun c d => d.flag Reg.DRV_WIT_CFG_VALID = true ∧ d.fld Reg.DRV_ARRAY_TAG_TAG = req c 40 4 ∧ ∀ k, k < 3 → d.fld (Reg.DRV_WIT_CFG_WIT k) = req c (32 + k) 1) ∧
    AnswersChange s .mbxHandover 0x0703 (fun c => req c 8 4 = 40)
      (fun c => if s.dev.fovState ≠ 2 then some (replyNo 0x0B s.dev.fovState)
          else if (List.range 64).any (fun g => bitOf (req c 32 8) g && !s.dev.flag (Reg.NVT_ANA_OWN g)) then some (replyNo 0x05 s.dev.peerSlot) else noTicket s)
      (fun _ => pending s [])
      (fun c d =>
          (req c 32 8 = 0 → s.dev.ownMask = 0 → d.fov = s.dev.fov ∧ (⟨s.dev.mbx.nextTicket, 0x0703, some (0, 0), 0⟩ : Ticket) ∈ d.mbx.tickets) ∧
          (req c 32 8 ≠ 0 ∨ s.dev.ownMask ≠ 0 → d.fovState = 6 ∧ d.fov.handStep = 1 ∧ d.mbx.handTicket = s.dev.mbx.nextTicket ∧
            d.fov.handMask = (if req c 32 8 = 0 then s.dev.ownMask else req c 32 8))) ∧
    AnswersChange s .fovAction 0x0704 (fun c => req c 8 4 = 36)
      (fun c => if req c 32 1 = 0 ∨ 4 < req c 32 1 then some (replyNo 0x04 32) else if req c 32 1 = 4 ∧ s.dev.ownMask ≠ 0 then some (replyNo 0x01 0) else none)
      (fun _ => replyOk [])
      (fun c d =>
          (req c 32 1 = 1 → s.dev.fovState = 2 → d.flag Reg.FOV_CTL_FAILBACK = true ∧ d.fov.skipHoldoff = true) ∧
          (req c 32 1 = 2 → d.flag Reg.FOV_STS_FENCE_OUT = false) ∧
          (req c 32 1 = 3 → s.dev.fov.step = 3 → s.dev.flag Reg.FOV_STS_VAULT_HOLD = true → d.fov.step = 4 ∧ d.flag Reg.FOV_STS_VAULT_HOLD = false) ∧
          (req c 32 1 = 4 → s.dev.fovState = 2 → d.fovState = 0)) ∧
    AnswersChange s .evtRoute 0x0801 (fun c => req c 8 4 = 40)
      (fun c => if 2048 ≤ req c 32 2 then some (replyNo 0x04 32) else if 2048 < req c 32 2 + req c 34 2 then some (replyNo 0x04 34)
          else if 16 ≤ req c 36 1 then some (replyNo 0x04 36) else if 2048 ≤ req c 38 2 then some (replyNo 0x04 38) else none)
      (fun _ => replyOk [])
      (fun c d => ∀ j, req c 32 2 ≤ j → j < req c 32 2 + req c 34 2 →
        EdgeAct.write (0x010_1000 + 4 * j) (req c 36 1 + 16 * s.dev.fld (Reg.EVC_ROUTE_SEV j) + 2 ^ 16 * req c 38 2) ∈ d.edge) ∧
    AnswersChange s .fumFlush 0x0803 (fun c => req c 8 4 = 32)
      (fun _ => if s.dev.flag Reg.FUM_STS_NOR_FAILED then some (replyNo 0x01 0) else none)
      (fun _ => replyOk [])
      (fun _ d => s.dev.flag Reg.FUM_STS_FROZEN = false → d.flag Reg.FUM_CTL_FLUSH = true ∧ d.flag Reg.FUM_STS_FLUSHING = true) ∧
    AnswersChange s .pmcUser 0x0903 (fun c => req c 8 4 = 36)
      (fun c => if 2 ≤ req c 32 1 then some (replyNo 0x04 32) else none)
      (fun _ => replyOk [])
      (fun c d => d.fld (Reg.PMC_BLK_CTL_USER_EN 0) = req c 32 1) ∧
    AnswersChange s .stageBegin 0x0A01 (fun c => req c 8 4 = 48)
      (fun c => if s.dev.fld Reg.UPD_STS_STAGE = 3 then some (replyNo 0x07 (s.dev.fld Reg.UPD_STS_HOLDER)) else if 2 ^ 27 < req c 40 8 then some (replyNo 0x04 40) else none)
      (fun _ => replyOk [])
      (fun c d => d.fld Reg.UPD_STS_STAGE = 1 ∧ d.upd.buf = some (req c 40 8, [])) ∧
    AnswersChange s .stageData 0x0A02 (fun c => req c 8 4 = wraps (48 + req c 40 4))
      (fun c => match s.dev.upd.buf with
          | none => some (replyNo 0x04 32)
          | some (size, bs) => if req c 32 8 ≠ bs.length then some (replyNo 0x04 32)
            else if 4048 < req c 40 4 ∨ size < bs.length + req c 40 4 then some (replyNo 0x04 40) else none)
      (fun _ => replyOk [])
      (fun c d => ∀ size bs, s.dev.upd.buf = some (size, bs) → d.upd.buf = some (size, bs ++ s.dev.reqBytes c 48 (req c 40 4))) ∧
    AnswersChange s .activateArm 0x0A04 (fun c => req c 8 4 = 48)
      (fun c => if req c 40 8 < s.dev.epoch + 2 then some (replyNo 0x04 40) else if s.dev.fld Reg.UPD_STS_STAGE ≠ 3 then some (replyNo 0x07 (s.dev.fld Reg.UPD_STS_HOLDER))
          else if s.dev.fovState ≠ 2 ∧ s.dev.strap 5 = true then some (replyNo 0x0B s.dev.fovState)
          else if s.dev.fld Reg.UPD_STS_ACT ≠ 0 ∨ s.dev.upd.armSent then some (replyNo 0x01 0) else noTicket s)
      (fun _ => pending s [])
      (fun c d => d.fld Reg.UPD_ARM_EPOCH_EPOCH = req c 40 8 ∧ d.upd.ticket = s.dev.mbx.nextTicket ∧
          (s.dev.strap 5 = true → d.upd.armSent = true ∧ d.fld Reg.UPD_STS_ACT = 0 ∧
            (2 ≤ s.dev.fld Reg.CDX_STS_LINK → Out.link (LinkMsg.update 2 (req c 40 8) s.dev.ownDigest) ∈ d.cdx.txq)) ∧
          (s.dev.strap 5 = false → d.fld Reg.UPD_STS_ACT = 1)) ∧
    AnswersChange s .activateCancel 0x0A05 (fun c => req c 8 4 = 32)
      (fun _ => if 2 ≤ s.dev.fld Reg.UPD_STS_ACT ∨ (s.dev.fld Reg.UPD_STS_ACT = 1 ∧ s.dev.fld Reg.UPD_ARM_EPOCH_EPOCH ≤ s.dev.epoch) then some (replyNo 0x01 0) else none)
      (fun _ => replyOk [])
      (fun _ d => d.fld Reg.UPD_STS_ACT = 0 ∧ d.upd.armSent = false ∧
        (s.dev.fld Reg.UPD_STS_ACT = 1 ∨ s.dev.upd.armSent = true → 2 ≤ s.dev.fld Reg.CDX_STS_LINK → ∃ digest : List Byte, Out.link (LinkMsg.update 5 0 digest) ∈ d.cdx.txq)) ∧
    AnswersChange s .stewardRestart 0x0B02 (fun c => req c 8 4 = 32)
      (fun _ => noTicket s)
      (fun _ => pending s [])
      (fun _ d => d.mbx.restartTicket = s.dev.mbx.nextTicket ∧ EdgeAct.stewardRestart 1 ∈ d.edge) ∧
    own .keyLoad 0x0601 (fun c => req c 8 4 = 80) ∧
    own .keyZeroise 0x0602 (fun c => req c 8 4 = 36) ∧
    own .kekSet 0x0604 (fun c => req c 8 4 = if req c 32 1 = 0 then 72 else 80) ∧
    own .stageEnd 0x0A03 (fun c => req c 8 4 = 32) ∧
    own .debugChallenge 0x0B04 (fun c => req c 8 4 = 32) ∧
    (s.dev.steward ≠ stRunning ∨ s.dev.mbxChannel 0x0B05 = none → Machine.exec .debugOpen s = .next s) ∧
    (∀ c, RunsOn s 0x0B05 c → req c 8 4 ≠ wraps (40 + req c 32 2) → Answered (Machine.exec .debugOpen s) s c (replyNo 0x04 8) (fun d =>
      d.sec.chal = none ∧ d.flag Reg.SEC_STS_CHAL_VALID = false ∧ d.fld Reg.SEC_STS_DBG_STATE = s.dev.fld Reg.SEC_STS_DBG_STATE)) ∧
    (∀ c, RunsOn s 0x0B04 c → req c 8 4 = 32 →
      (s.dev.ownMask ≠ 0 → Answered (Machine.exec .debugChallenge s) s c (replyNo 0x05 s.dev.peerSlot) (Untouched s)) ∧
      (s.dev.ownMask = 0 → ∃ ch : List Byte, ch.length = 16 ∧ Answered (Machine.exec .debugChallenge s) s c (replyOk ch) (fun d =>
        d.sec.chal = some ch ∧ d.flag Reg.SEC_STS_CHAL_VALID = true))) ∧
    (∀ c, RunsOn s 0x0601 c → req c 8 4 = 80 →
      let slot := req c 32 2
      let gen := req c 34 2
      (s.dev.flag Reg.KEY_STS_BUSY = true → Machine.exec .keyLoad s = .next s) ∧
      (s.dev.flag Reg.KEY_STS_BUSY = false →
        (4096 ≤ slot → Answered (Machine.exec .keyLoad s) s c (replyNo 0x04 32) (Untouched s)) ∧
        (slot < 4096 → 2 ^ 15 ≤ gen → Answered (Machine.exec .keyLoad s) s c (replyNo 0x04 34) (Untouched s)) ∧
        (slot < 4096 → gen < 2 ^ 15 → s.dev.flag Reg.KEY_STS_LOCKED = true → Answered (Machine.exec .keyLoad s) s c (replyNo 0x0C cause) (Untouched s)) ∧
        (slot < 4096 → gen < 2 ^ 15 → s.dev.flag Reg.KEY_STS_LOCKED = false →
          (s.dev.flag Reg.SEC_STS_DUK_BLOCKED = true ∨ s.dev.mbx.kek = none → Answered (Machine.exec .keyLoad s) s c (replyNo 0x0C 3) (Untouched s)) ∧
          (∀ kek, s.dev.flag Reg.SEC_STS_DUK_BLOCKED = false → s.dev.mbx.kek = some kek →
            match kwUnwrap kek (s.dev.reqBytes c 40 40) with
            | none => Answered (Machine.exec .keyLoad s) s c (replyNo 0x04 40) (Untouched s)
            | some _ => if (s.dev.kslot slot).state ≠ .empty ∧ (s.dev.kslot slot).gen = gen then Answered (Machine.exec .keyLoad s) s c (replyNo 0x04 34) (Untouched s)
              else ∃ kcv code : Nat, Answered (Machine.exec .keyLoad s) s c (replyOk (leBytes 4 kcv ++ leBytes 1 code)) (fun d =>
                (d.kslot slot).gen = gen ∧ (d.kslot slot).kcv = kcv ∧ (d.kslot slot).state.code = code ∧ (d.kslot slot).state ≠ .empty))))) ∧
    (∀ c, RunsOn s 0x0602 c → req c 8 4 = 36 →
      let slot := req c 32 2
      (s.dev.flag Reg.KEY_STS_BUSY = true → Machine.exec .keyZeroise s = .next s) ∧
      (s.dev.flag Reg.KEY_STS_BUSY = false →
        (4096 ≤ slot → slot ≠ 0xFFFF → Answered (Machine.exec .keyZeroise s) s c (replyNo 0x04 32) (Untouched s)) ∧
        (slot < 4096 ∨ slot = 0xFFFF → ∃ n : Nat, Answered (Machine.exec .keyZeroise s) s c (replyOk (leBytes 4 n)) (fun d =>
          (∀ k, slot = k ∨ slot = 0xFFFF → (d.kslot k).state = .empty) ∧ ∀ x ∈ d.mbx.sysKeys, x.1 ≠ slot ∧ slot ≠ 0xFFFF)))) ∧
    (∀ c, RunsOn s 0x0604 c → (req c 8 4 = if req c 32 1 = 0 then 72 else 80) →
      (s.dev.holdsDom0 = false → Answered (Machine.exec .kekSet s) s c (replyNo 0x05 s.dev.peerSlot) (Untouched s)) ∧
      (s.dev.holdsDom0 = true →
        (s.dev.flag Reg.SEC_STS_DUK_BLOCKED = true → Answered (Machine.exec .kekSet s) s c (replyNo 0x0C 3) (Untouched s)) ∧
        (s.dev.flag Reg.SEC_STS_DUK_BLOCKED = false →
          (2 ≤ req c 32 1 ∨ (req c 32 1 = 0 ∧ s.dev.mbx.kek.isSome = true) → Answered (Machine.exec .kekSet s) s c (replyNo 0x04 32) (Untouched s)) ∧
          (req c 32 1 = 0 → s.dev.mbx.kek = none → Answered (Machine.exec .kekSet s) s c (replyOk (leBytes 4 (Machine.keyCheck (s.dev.reqBytes c 40 32)))) (fun d =>
            d.mbx.kek = some (s.dev.reqBytes c 40 32))) ∧
          (req c 32 1 = 1 → s.dev.mbx.kek = none → Answered (Machine.exec .kekSet s) s c (replyNo 0x0C 3) (Untouched s)) ∧
          (∀ k, req c 32 1 = 1 → s.dev.mbx.kek = some k →
            match kwUnwrap k (s.dev.reqBytes c 40 40) with
            | none => Answered (Machine.exec .kekSet s) s c (replyNo 0x04 40) (Untouched s)
            | some kek => Answered (Machine.exec .kekSet s) s c (replyOk (leBytes 4 (Machine.keyCheck kek))) (fun d => d.mbx.kek = some kek))))) ∧
    (∀ c, RunsOn s 0x0A03 c → req c 8 4 = 32 →
      let m := match s.dev.upd.buf with
        | some (size, bs) => if bs.length = size then bs else []
        | none => []
      (∀ r, noTicket s = some r → Answered (Machine.exec .stageEnd s) s c r (Untouched s)) ∧
      (noTicket s = none →
        if (s.dev.stage 1 m).1.1 ≠ 0 then Answered (Machine.exec .stageEnd s) s c (replyNo (s.dev.stage 1 m).1.1 (s.dev.stage 1 m).1.2) (fun d => d.upd.buf = none)
        else ∃ b : List Byte, b.length = 48 ∧ Answered (Machine.exec .stageEnd s) s c (pending s b) (fun d => d.fld Reg.UPD_STS_STAGE = 3 ∧ d.fld Reg.UPD_STS_HOLDER = 1 ∧ d.upd.buf = none))) ∧
    (∀ c, RunsOn s 0x0B05 c → req c 8 4 = wraps (40 + req c 32 2) →
      let tok := s.dev.reqBytes c 40 (req c 32 2)
      match s.dev.debugCheck (req c 32 2) tok with
      | some (st, det) => Answered (Machine.exec .debugOpen s) s c (replyNo st det) (fun d => d.sec.chal = none ∧ d.fld Reg.SEC_STS_DBG_STATE = s.dev.fld Reg.SEC_STS_DBG_STATE)
      | none => (∀ r, noTicket s = some r → Answered (Machine.exec .debugOpen s) s c r (fun d => d.sec.chal = none)) ∧
        (noTicket s = none → Answered (Machine.exec .debugOpen s) s c (pending s []) (fun d => d.fld Reg.SEC_STS_DBG_STATE = 1 ∧ d.sec.step = 1 ∧ d.sec.chal = none))) ∧
    (∀ (card : Option (List Byte)) (convert : Bool),
      (s.dev.steward ≠ stRestarting → Machine.exec (.stewardRestartDone card convert) s = .next s) ∧
      (s.dev.steward = stRestarting → 5 ≤ s.dev.mbx.restarts.length → ∃ d : Dev, Machine.exec (.stewardRestartDone card convert) s = .next { s with dev := d } ∧
        d.steward = stHalted ∧ d.raised = s.dev.raised ++ [⟨1866, eventCode 1866, 1, 0, 0, s.dev.beat⟩]) ∧
      (s.dev.steward = stRestarting → s.dev.mbx.restarts.length < 5 → (s.dev.mbx.restart.getD (1, 0)).1 ≠ 2 →
        ∃ d : Dev, Machine.exec (.stewardRestartDone card convert) s = .next { s with dev := d } ∧
          (if (s.dev.bootSteward card).2.steward = stRunning then
            d.steward = stRunning ∧ d.mbx.restart = none ∧ (∃ e ∈ d.raised, e.src = 1865 ∧ e.p0 = (s.dev.mbx.restart.getD (1, 0)).1 % 2 ^ 32) ∧
              ∀ c, c < 8 → s.dev.fld (Reg.MBX_STS_STATE c) = 2 → d.flag (Reg.MBX_STS_RESTARTED c) = true ∧ c ∈ d.mbx.again ∧ d.fld (Reg.MBX_STS_STATE c) = 2
           else d = (s.dev.bootSteward card).2)))

/-- Event raises and their routes, vectors, the Fumarole recorder with its flush, freeze and log partition, and SMBus answers (R563, R564, R565, R567, R569, R570, R571, R572, R576, R577, R578, R673). -/
def Obligations.EventsRoutesAndTheRecorder : Prop :=
  ∀ (s : State),
    (∀ n : Nat,
      let v := n % 2048
      ∃ d : Dev, Machine.exec (.vectorUnmask n) s = .next { s with dev := d } ∧ d.flag (msixMask v) = false ∧ d.flag (msixPba v) = false ∧
        d.raised = s.dev.raised ∧ d.out = s.dev.out ++ (if s.dev.flag (msixPba v) then [.msix v] else [])) ∧
    (∀ src p0 p1 p2 beat : Nat,
      let n := src % 2048
      let r : Raise := ⟨n, eventCode n, p0 % 2 ^ 32, p1 % 2 ^ 32, p2 % 2 ^ 32, beat⟩
      let sev := s.dev.fld (Reg.EVC_ROUTE_SEV n)
      let v := s.dev.fld (Reg.EVC_ROUTE_VECTOR n)
      (eventCode n = 0 → Machine.exec (.eventRaise src p0 p1 p2 beat) s = .next s) ∧
      (eventCode n ≠ 0 → v < 2048 → ∃ d : Dev, Machine.exec (.eventRaise src p0 p1 p2 beat) s = .next { s with dev := d } ∧ d.flag (Reg.EVC_PEND n) = true ∧
        d.raised = s.dev.raised ∧
        (s.dev.flag (Reg.EVC_PEND n) = true → d.out = s.dev.out) ∧
        (s.dev.flag (Reg.EVC_PEND n) = false → s.dev.flag (Reg.EVC_ROUTE_MSIX_EN n) = true →
          (s.dev.flag (msixMask v) = true → d.flag (msixPba v) = true) ∧ (s.dev.flag (msixMask v) = false → Out.msix v ∈ d.out)) ∧
        (s.dev.flag (Reg.EVC_PEND n) = false → s.dev.flag (Reg.EVC_ROUTE_STEW_EN n) = true → Out.stewardIrq n ∈ d.out) ∧
        (s.dev.flag (Reg.EVC_ROUTE_FUM_EN n) = false ∨ fumSource n = true → d.fum = s.dev.fum) ∧
        (s.dev.flag (Reg.EVC_ROUTE_FUM_EN n) = true → fumSource n = false →
          (s.dev.flag Reg.FUM_STS_SEQ_LOADED = false →
            (s.dev.fum.preload.length < 64 → d.fum = { s.dev.fum with preload := s.dev.fum.preload ++ [(r, sev)] }) ∧
            (64 ≤ s.dev.fum.preload.length → d.fum = s.dev.fum ∧ d.fld Reg.FUM_DROPPED_COUNT = min (s.dev.fld Reg.FUM_DROPPED_COUNT + 1) (2 ^ 32 - 1))) ∧
          (s.dev.flag Reg.FUM_STS_SEQ_LOADED = true →
            (s.dev.fum.queue.length < 1024 → d.fum = { s.dev.fum with queue := s.dev.fum.queue ++ [(r, sev)] }) ∧
            (1024 ≤ s.dev.fum.queue.length → d.fum = { s.dev.fum with drop := s.dev.fum.drop + 1 } ∧
              d.fld Reg.FUM_DROPPED_COUNT = min (s.dev.fld Reg.FUM_DROPPED_COUNT + 1) (2 ^ 32 - 1)))))) ∧
    (s.dev.fum.queue = [] → s.dev.fum.drop = 0 → Machine.exec .fumaroleRecordWrite s = .next s) ∧
    (s.dev.fum.drop = 0 → ∃ d : Dev, Machine.exec .fumaroleRecordWrite s = .next { s with dev := d } ∧ d.fum.queue = s.dev.fum.queue.drop 4 ∧ d.raised = s.dev.raised ∧
      ∀ r sev, s.dev.fum.queue = [(r, sev)] →
        let seq := s.dev.fld Reg.FUM_SEQ_NEXT_SEQ
        (s.dev.flag Reg.FUM_STS_FROZEN = false → d.fld Reg.FUM_SEQ_NEXT_SEQ = seqNext seq % 2 ^ 32 ∧ d.fld Reg.FUM_NEWEST_SEQ = seq % 2 ^ 32 ∧
          d.fum.ring = (if ringRecs ≤ s.dev.fum.ring.length then s.dev.fum.ring.drop 1 else s.dev.fum.ring) ++ [(seq, fumBytes seq sev r)]) ∧
        (s.dev.flag Reg.FUM_STS_FROZEN = true → s.dev.fum.lg.length < 8 → d.fum.ring = s.dev.fum.ring ∧ d.fum.lg = s.dev.fum.lg ++ [fumBytes seq sev r] ∧
          d.fld Reg.FUM_SEQ_NEXT_SEQ = seqNext seq % 2 ^ 32) ∧
        (s.dev.flag Reg.FUM_STS_FROZEN = true → 8 ≤ s.dev.fum.lg.length → d.fum.ring = s.dev.fum.ring ∧ d.fum.lg = s.dev.fum.lg ∧
          d.fld Reg.FUM_DROPPED_COUNT = min (s.dev.fld Reg.FUM_DROPPED_COUNT + 1) (2 ^ 32 - 1))) ∧
    (s.dev.fum.drop ≠ 0 → s.dev.fum.queue.length < 1024 → ∃ d : Dev, Machine.exec .fumaroleRecordWrite s = .next { s with dev := d } ∧
      d.fum.queue = s.dev.fum.queue.drop 3 ∧ d.fum.drop = 0 ∧ d.raised = s.dev.raised ++ [⟨1987, eventCode 1987, s.dev.fum.drop % 2 ^ 32, 0, 0, s.dev.beat⟩]) ∧
    (s.dev.flag Reg.FUM_STS_FLUSHING = false ∨ s.dev.flag Reg.FUM_STS_NOR_FAILED = true ∨ (s.dev.flag Reg.FUM_STS_FROZEN = true ∧ s.dev.fum.lastFlush = false) →
      Machine.exec .fumaroleFlush s = .next s) ∧
    (s.dev.flag Reg.FUM_STS_FLUSHING = true → s.dev.flag Reg.FUM_STS_NOR_FAILED = false → s.dev.flag Reg.FUM_STS_FROZEN = false ∨ s.dev.fum.lastFlush = true →
      s.dev.fum.lost = none → s.dev.fum.fault = none →
      let good := (s.dev.fum.ring.drop (s.dev.fum.ring.length - s.dev.fum.unflushed)).filter (fun e => !(s.dev.fum.bad.contains (e.1 % ringRecs)))
      ∃ d : Dev, Machine.exec .fumaroleFlush s = .next { s with dev := d } ∧ d.flag Reg.FUM_STS_FLUSHING = false ∧ d.flag Reg.FUM_CTL_FLUSH = false ∧
        d.fum.unflushed = 0 ∧ d.fum.ring = s.dev.fum.ring ∧ d.fum.lastFlush = false ∧ d.raised = s.dev.raised ∧
        (∀ e, good.getLast? = some e → d.fld Reg.FUM_FLUSHED_SEQ = e.1 % 2 ^ 32) ∧
        (∀ seq bs, good = [(seq, bs)] → tget [] d.fum.nor (if seq < 8192 then seq else s.dev.fum.norAt) = bs)) ∧
    (∀ a b f, s.dev.flag Reg.FUM_STS_FLUSHING = true → s.dev.flag Reg.FUM_STS_NOR_FAILED = false → s.dev.flag Reg.FUM_STS_FROZEN = false →
      s.dev.fum.lost = some (a, b) → s.dev.fum.fault = some f → ∃ (d : Dev) (last : Nat), Machine.exec .fumaroleFlush s = .next { s with dev := d } ∧
        d.raised = s.dev.raised ++ [⟨1986, eventCode 1986, a % 2 ^ 32, b % 2 ^ 32, 0, s.dev.beat⟩, ⟨1988, eventCode 1988, f % 2 ^ 32, last, 0, s.dev.beat⟩]) ∧
    (∃ d : Dev, Machine.exec .fumCtlFlush s = .next { s with dev := d } ∧ d.raised = s.dev.raised ∧ d.fum = s.dev.fum ∧
      (if s.dev.flag Reg.FUM_STS_NOR_FAILED = true ∨ (s.dev.flag Reg.FUM_STS_FROZEN = true ∧ s.dev.fum.lastFlush = false) then
        d.flag Reg.FUM_CTL_FLUSH = false ∧ d.fld Reg.FUM_STS_FLUSHING = s.dev.fld Reg.FUM_STS_FLUSHING
       else d.flag Reg.FUM_CTL_FLUSH = true ∧ d.flag Reg.FUM_STS_FLUSHING = true)) ∧
    (s.dev.flag Reg.FUM_STS_SEQ_LOADED = true → Machine.exec .seqLoad s = .next s) ∧
    (s.dev.flag Reg.FUM_STS_SEQ_LOADED = false → ∃ d : Dev, Machine.exec .seqLoad s = .next { s with dev := d } ∧ d.flag Reg.FUM_STS_SEQ_LOADED = true ∧
      d.fum.preload = [] ∧
      (s.dev.fum.preload = [] → s.dev.norNewest = none → d.fld Reg.FUM_SEQ_NEXT_SEQ = 0) ∧
      (∀ slot seq, s.dev.fum.preload = [] → s.dev.norNewest = some (slot, seq) → d.fld Reg.FUM_SEQ_NEXT_SEQ = seqNext seq % 2 ^ 32 ∧
        d.fld Reg.FUM_FLUSHED_SEQ = seq % 2 ^ 32 ∧ d.fum.norAt = if slot < 8192 ∨ slot + 1 = 131072 then 8192 else slot + 1)) ∧
    (∀ n : Nat,
      let seq := ((s.dev.fum.ring.find? (fun e => decide (e.1 % ringRecs = n % 8192))).map (·.1)).getD (n % 8192)
      let late := s.dev.edgeAct (.ringFreeze (n % 8192))
      (s.dev.flag Reg.FUM_STS_FROZEN = true → Machine.exec (.ringFreeze n) s = .next s) ∧
      (s.dev.flag Reg.FUM_STS_FROZEN = false → ∃ d : Dev, Machine.exec (.ringFreeze n) s = .next { s with dev := d } ∧ n % 8192 ∈ d.fum.bad ∧
        EdgeAct.ringFreeze (n % 8192) ∈ d.edge ∧ d = { s.dev with fum := { s.dev.fum with bad := d.fum.bad }, edge := d.edge } ∧
        (∀ k, k ≠ n % 8192 → (k ∈ d.fum.bad ↔ k ∈ s.dev.fum.bad))) ∧
      (s.dev.flag Reg.FUM_STS_FROZEN = true ∨ n % 8192 ∉ s.dev.fum.bad → late = s.dev) ∧
      (s.dev.flag Reg.FUM_STS_FROZEN = false → n % 8192 ∈ s.dev.fum.bad → late.flag Reg.FUM_STS_FROZEN = true ∧
        late.flag Reg.FUM_STS_LG_VALID = true ∧ late.fum.lg.length = 1 ∧ late.fum.ring = s.dev.fum.ring ∧ late.fum.bad = s.dev.fum.bad ∧ late.fum.lastFlush = true ∧
        (s.dev.flag Reg.FUM_STS_NOR_FAILED = false → late.flag Reg.FUM_STS_FLUSHING = true) ∧
        late.raised = s.dev.raised ++ [⟨1984, eventCode 1984, n % 8192, seq % 2 ^ 32, 0, s.dev.beat⟩])) ∧
    (s.dev.flag Reg.FUM_STS_FROZEN = false → Machine.exec .resume s = .next s) ∧
    (s.dev.flag Reg.FUM_STS_FROZEN = true → ∃ d : Dev, Machine.exec .resume s = .next { s with dev := d } ∧ d.flag Reg.FUM_STS_FROZEN = false ∧
      d.fum.ring.map (·.1) = [s.dev.fld Reg.FUM_SEQ_NEXT_SEQ] ∧
      d.raised = s.dev.raised ++ [⟨1990, eventCode 1990, s.dev.fld Reg.FUM_SEQ_NEXT_SEQ % 2 ^ 32, 0, 0, s.dev.beat⟩]) ∧
    (∀ kind off : Nat,
      (s.dev.flag Reg.FUM_STS_NOR_FAILED = true → Machine.exec (.norFailure kind off) s = .next s) ∧
      (s.dev.flag Reg.FUM_STS_NOR_FAILED = false → ∃ d : Dev, Machine.exec (.norFailure kind off) s = .next { s with dev := d } ∧
        d.flag Reg.FUM_STS_NOR_FAILED = true ∧ d.flag Reg.FUM_STS_FLUSHING = false ∧ d.flag Reg.FUM_STS_PIN_VALID = true ∧
        d.raised = s.dev.raised ++ [⟨1985, eventCode 1985, kind % 2 ^ 32, off % 2 ^ 32, 0, s.dev.beat⟩])) ∧
    (s.dev.flag Reg.FUM_STS_NOR_FAILED = false → Machine.exec .norRetry s = .next s) ∧
    (s.dev.flag Reg.FUM_STS_NOR_FAILED = true → ∃ d : Dev, Machine.exec .norRetry s = .next { s with dev := d } ∧ d.flag Reg.FUM_STS_NOR_FAILED = false ∧
      (s.dev.flag Reg.FUM_STS_FROZEN = false → d.flag Reg.FUM_STS_FLUSHING = true) ∧
      ∃ seq : Nat, d.raised = s.dev.raised ++ [⟨1989, eventCode 1989, seq, 0, 0, s.dev.beat⟩]) ∧
    (∀ n : Nat,
      Machine.exec (.smbusLastGaspEntry n) s = .next { s with dev := { s.dev with out := s.dev.out ++ [.smbus (padTo 32 (s.dev.fum.lg.getD (n % 8) []))] } } ∧
      Machine.exec (.smbusOtherCommand n) s = .next { s with dev := { s.dev with out := s.dev.out ++ [.smbusNack] } }) ∧
    Machine.exec .smbusLastGaspStatus s = .next { s with dev := ({ s.dev with out := s.dev.out ++
      [.smbus (leBytes 1 (s.dev.fld Reg.FUM_STS_LG_COUNT + 16 * s.dev.fld Reg.FUM_STS_FROZEN + 32 * s.dev.fld Reg.FUM_STS_NOR_FAILED))] }) } ∧
    Machine.exec .smbusTemperature s = .next { s with dev := { s.dev with out := s.dev.out ++ [.smbus (leBytes 1 (s.dev.fld Reg.SEC_TEMP_NOW) ++ leBytes 1 (s.dev.fld Reg.SEC_TEMP_MAX))] } } ∧
    Machine.exec .smbusPhase s = .next { s with dev := { s.dev with out := s.dev.out ++ [.smbus (leBytes 1 (s.dev.fld Reg.FIS_STS_PHASE + 4 * s.dev.fld Reg.MBX_GLB_STS_STEWARD))] } }

/-- Staging, arming, activation, revert and commit of a firmware update (R627, R630, R631, R632, R634, R635, R636, R637, R638, R639, R642, R644). -/
def Obligations.UpdatesStageArmActivateRevertAndCommit : Prop :=
  ∀ (s : State),
    let act := s.dev.fld Reg.UPD_STS_ACT
    let held : Prop := s.dev.fld Reg.UPD_STS_STAGE = 3
    let up : Prop := 2 ≤ s.dev.fld Reg.CDX_STS_LINK
    let told (d : Dev) (op arg : Nat) (digest : List Byte) : Prop := up → d.cdx.txq.getLast? = some (.link (.update op arg digest))
    let ended (n st det : Nat) : List Ticket := s.dev.mbx.tickets.map (fun t => if t.num = n ∧ t.result.isNone then { t with result := some (st, det) } else t)
    let peerIs (d : Dev) (digest : List Byte) : Prop := ∀ i, i < 12 → d.fld (Reg.UPD_PEER_DIGEST i) = leField digest (4 * i) 4
    let ev (src p0 p1 p2 : Nat) : Raise := ⟨src, eventCode src, p0 % 2 ^ 32, p1 % 2 ^ 32, p2 % 2 ^ 32, s.dev.beat⟩
    let reverting (d : Dev) (cause part : Nat) : Prop := d.fld Reg.UPD_STS_ACT = 6 ∧ d.fld Reg.UPD_STS_DETAIL = cause % 2 ^ 8 ∧ d.upd.revert = true ∧
      d.upd.own = false ∧ d.raised = s.dev.raised ++ [ev 1925 cause part s.dev.slotId]
    (∀ (present : Bool) (pkg : Option (List Byte)),
      (s.dev.strap 10 = false ∨ s.dev.steward ≠ stRunning → Machine.exec (.cardProbe present pkg) s = .next s) ∧
      (s.dev.strap 10 = true → s.dev.steward = stRunning → ∃ d : Dev, Machine.exec (.cardProbe present pkg) s = .next { s with dev := d } ∧
        d.flag Reg.UPD_STS_CARD = present ∧
        (s.dev.flag Reg.UPD_STS_CARD = present → d.raised = s.dev.raised ∧ d.upd = s.dev.upd) ∧
        (s.dev.flag Reg.UPD_STS_CARD ≠ present →
          let first := s.dev.raised ++ [ev 1928 (if present then 1 else 0) 0 0]
          (present = false ∨ s.dev.flag Reg.UPD_CFG_CARD_EN = false ∨ pkg = none → d.raised = first ∧ d.upd = s.dev.upd) ∧
          (∀ m, present = true → s.dev.flag Reg.UPD_CFG_CARD_EN = true → pkg = some m →
            (held → d.raised = first ++ [ev 1921 0 7 (s.dev.fld Reg.UPD_STS_HOLDER)] ∧ d.upd = s.dev.upd ∧ d.fld Reg.UPD_STS_RESULT = 7 ∧
              d.fld Reg.UPD_STS_DETAIL = s.dev.fld Reg.UPD_STS_HOLDER) ∧
            (¬held → s.dev.pkgCheck m false ≠ 0 → d.raised = first ++ [ev 1921 0 4 (checkDetail (s.dev.pkgCheck m false))] ∧ d.upd = s.dev.upd ∧
              d.fld Reg.UPD_STS_RESULT = 4 ∧ d.fld Reg.UPD_STS_DETAIL = checkDetail (s.dev.pkgCheck m false)) ∧
            (¬held → s.dev.pkgCheck m false = 0 →
              let n := 1 - s.dev.fld Reg.UPD_STS_RUN_SLOT
              d.raised = first ++ [ev 1920 0 (pkgRel m) (pkgRollback m)] ∧ d.fld Reg.UPD_STS_STAGE = 3 ∧ d.fld Reg.UPD_STS_HOLDER = 0 ∧
              d.fld Reg.UPD_REL_STAGED_REL = pkgRel m ∧ d.img n = { state := .pending, seq := (s.dev.img (1 - n)).seq + 1, pkg := m } ∧
              (∀ i, i < 12 → d.fld (Reg.UPD_DIGEST i) = leField (sha384 (m.take 880)) (4 * i) 4) ∧ told d 1 0 d.ownDigest))))) ∧
    ((held → act = 0 → s.dev.upd.armSent = false → ∃ d : Dev, Machine.exec .discard s = .next { s with dev := d } ∧ d.fld Reg.UPD_STS_STAGE = 0 ∧ d.fld Reg.UPD_STS_HOLDER = 0 ∧
        d.fld Reg.UPD_REL_STAGED_REL = 0 ∧ d.fld Reg.UPD_PKG_LEN_BYTES = 0 ∧ (∀ i, i < 12 → d.fld (Reg.UPD_DIGEST i) = 0) ∧ d.upd = s.dev.upd ∧
        told d 1 0 (List.replicate 48 0)) ∧
      (¬held ∨ act ≠ 0 ∨ s.dev.upd.armSent = true → Machine.exec .discard s = .next s)) ∧
    (∀ digest : List Byte,
      (∃ d : Dev, Machine.exec (.updateStaged digest) s = .next { s with dev := d } ∧ peerIs d digest ∧ d = { s.dev with fields := d.fields }) ∧
      (∃ d : Dev, Machine.exec (.updateArmAck digest) s = .next { s with dev := d } ∧ peerIs d digest ∧
        (s.dev.upd.armSent = true → d.fld Reg.UPD_STS_ACT = 1 ∧ d.upd.armSent = false) ∧
        (s.dev.upd.armSent = false → d = { s.dev with fields := d.fields } ∧ d.fld Reg.UPD_STS_ACT = act)) ∧
      (∃ d : Dev, Machine.exec (.updateArmNak digest) s = .next { s with dev := d } ∧ peerIs d digest ∧ d.fld Reg.UPD_STS_ACT = act ∧
        (s.dev.upd.armSent = true → d.upd.armSent = false ∧ d.mbx.tickets = ended s.dev.upd.ticket 1 1 ∧
          d.raised = s.dev.raised ++ [ev 1922 (leField s.dev.ownDigest 0 4) (leField digest 0 4) (s.dev.fld Reg.UPD_ARM_EPOCH_EPOCH)]) ∧
        (s.dev.upd.armSent = false → d = { s.dev with fields := d.fields })) ∧
      (∀ e : Nat, ∃ d : Dev, Machine.exec (.updateArm e digest) s = .next { s with dev := d } ∧ peerIs d digest ∧
        (s.dev.upd.armSent = true → s.dev.slotId = 0 → d = { s.dev with fields := d.fields } ∧ d.fld Reg.UPD_STS_ACT = act) ∧
        (s.dev.upd.armSent = false ∨ s.dev.slotId ≠ 0 → d.upd.armSent = false ∧
          (s.dev.upd.armSent = true → d.mbx.tickets = ended s.dev.upd.ticket 1 2) ∧
          (held ∧ s.dev.ownDigest = digest ∧ act = 0 → d.fld Reg.UPD_STS_ACT = 1 ∧ d.fld Reg.UPD_ARM_EPOCH_EPOCH = e % 2 ^ 64 ∧
            d.fld Reg.UPD_STS_HOLDER = 2 ∧ d.upd.prev = s.dev.fld Reg.UPD_STS_HOLDER ∧ d.raised = s.dev.raised ∧ told d 3 0 s.dev.ownDigest) ∧
          (¬(held ∧ s.dev.ownDigest = digest ∧ act = 0) → d.fld Reg.UPD_STS_ACT = act ∧ told d 4 0 s.dev.ownDigest ∧
            d.raised = s.dev.raised ++ [ev 1922 (leField s.dev.ownDigest 0 4) (leField digest 0 4) e])))) ∧
    ((act ≠ 1 → Machine.exec .updateCancel s = .next s) ∧
      (act = 1 → ∃ (d : Dev) (st det : Nat), Machine.exec .updateCancel s = .next { s with dev := d } ∧ d.fld Reg.UPD_STS_ACT = 0 ∧ d.upd.armSent = false ∧
        d.fld Reg.UPD_STS_HOLDER = (if s.dev.fld Reg.UPD_STS_HOLDER = 2 then s.dev.upd.prev % 4 else s.dev.fld Reg.UPD_STS_HOLDER) ∧
        d.mbx.tickets = ended s.dev.upd.ticket st det)) ∧
    (let e := s.dev.fld Reg.UPD_ARM_EPOCH_EPOCH
     let ready := s.dev.fovState = 2 ∨ s.dev.strap 5 = false
     (act ≠ 1 ∨ s.dev.epoch < e ∨ s.dev.newEpoch = false → Machine.exec .activationStart s = .next s) ∧
     (act = 1 → e ≤ s.dev.epoch → s.dev.newEpoch = true →
       (ready → ∃ d : Dev, Machine.exec .activationStart s = .next { s with dev := d } ∧ d.fld Reg.UPD_STS_ACT = 2 ∧
         d.flag Reg.UPD_BOOT_SEL_VALID = true ∧ d.fld Reg.UPD_BOOT_SEL_SLOT = 1 - s.dev.fld Reg.UPD_STS_RUN_SLOT ∧ d.upd.own = false ∧ d.upd.peer = false ∧
         d.raised = s.dev.raised ++ [ev 1923 e (pkgParts (s.dev.img (1 - s.dev.fld Reg.UPD_STS_RUN_SLOT)).pkg).length 0] ∧
         (s.dev.steward = stRunning → d.steward = stRestarting ∧ d.mbx.restart = some (2, s.dev.beat))) ∧
       (¬ready → s.dev.epoch < e + 16 → Machine.exec .activationStart s = .next s) ∧
       (¬ready → e + 16 ≤ s.dev.epoch → ∃ d : Dev, Machine.exec .activationStart s = .next { s with dev := d } ∧ d.fld Reg.UPD_STS_ACT = 0 ∧
         d.raised = s.dev.raised ++ [ev 1927 e 0 0]))) ∧
    (∀ (phase : Nat) (digest : List Byte), Machine.exec (.updatePhaseDone phase digest) s = .next { s with dev := ({ s.dev with
      upd := { s.dev.upd with peer := s.dev.upd.peer || decide (phase = act), peerUndone := s.dev.upd.peerUndone || decide (phase = 6) } }) }) ∧
    (let due := s.dev.newEpoch = true ∧ s.dev.upd.own = true ∧ (s.dev.upd.peer = true ∨ s.dev.strap 5 = false) ∧ s.dev.upd.from_ < s.dev.epoch
     let parts := pkgHandoff (s.dev.img (s.dev.fld Reg.UPD_STS_RUN_SLOT)).pkg
     let begun (d : Dev) (n : Nat) (mine : Prop) : Prop := d.fld Reg.UPD_STS_ACT = n ∧ d.upd.from_ = s.dev.epoch ∧ d.upd.own = false ∧ d.upd.peer = false ∧
       (mine → d.upd.hand = if s.dev.strap 5 then 1 else 2) ∧ (¬mine → d.upd.hand = 0)
     (¬due ∨ act ∉ [2, 3, 4] → Machine.exec .activationPhaseStart s = .next s) ∧
     (due → act ∈ [2, 3, 4] → ∃ d : Dev, Machine.exec .activationPhaseStart s = .next { s with dev := d } ∧
       (act = 2 → d.upd.live = s.dev.epoch) ∧
       (act = 2 ∧ parts = true → begun d 3 (s.dev.slotId = 1)) ∧ (act = 3 → begun d 4 (s.dev.slotId = 0)) ∧
       (act = 4 ∨ (act = 2 ∧ parts = false) → begun d 5 False ∧ d.fld Reg.UPD_STS_SOAK = 0))) ∧
    (∀ cause part : Nat,
      (act < 2 ∨ act = 6 → Machine.exec (.activationRevert cause part) s = .next s) ∧
      (2 ≤ act → act ≠ 6 → ∃ d : Dev, Machine.exec (.activationRevert cause part) s = .next { s with dev := d } ∧ reverting d cause part ∧
        (cause ≠ 7 → told d 7 cause s.dev.ownDigest) ∧ (cause = 7 → d.cdx = s.dev.cdx))) ∧
    (∀ (cause : Nat) (digest : List Byte),
      (act < 2 ∨ act = 6 → Machine.exec (.updateRevert cause digest) s = .next s) ∧
      (2 ≤ act → act ≠ 6 → ∃ d : Dev, Machine.exec (.updateRevert cause digest) s = .next { s with dev := d } ∧ reverting d 7 0 ∧ d.cdx = s.dev.cdx)) ∧
    (∀ fail : Option Nat,
      (s.dev.upd.hand ≠ 2 → Machine.exec (.handoffRestart fail) s = .next s) ∧
      (s.dev.upd.hand = 2 →
        (fail = none → ∃ d : Dev, Machine.exec (.handoffRestart fail) s = .next { s with dev := d } ∧ d.beat = s.dev.beat ∧
          d.fld Reg.FIS_STS_PHASE = s.dev.fld Reg.FIS_STS_PHASE ∧ d.fis.step = 3 ∧ d.fis.restored = false ∧ d.fld Reg.MEM_STS_START = 1 ∧ d.upd.hand = 3 ∧ d.upd.parts = decide (act ≠ 6) ∧
          (∀ p, p < 16 → (d.unit (.port p)).en = false ∧ (d.unit (.lane p)).en = false) ∧ (∀ p, p < 8 → (d.unit (.slice p)).en = false) ∧
          (∀ a, a < 128 → (d.unit (.att a)).en = false)) ∧
        (∀ t, fail = some t → act = 6 → Machine.exec (.handoffRestart fail) s = .next { s with dev := { s.dev with upd := { s.dev.upd with hand := 5, undo := false } } }) ∧
        (∀ t, fail = some t → 2 ≤ act → act ≠ 6 → ∃ d : Dev, Machine.exec (.handoffRestart fail) s = .next { s with dev := d } ∧
          d.fld Reg.UPD_STS_ACT = 6 ∧ d.raised = s.dev.raised ++ [ev 1925 3 t s.dev.slotId]))) ∧
    (let n := s.dev.fld Reg.UPD_STS_RUN_SLOT
     let m := (s.dev.img n).pkg
     let roll := max s.dev.sec.fuses.rollback (min 128 (pkgRollback m))
     (act ≠ 5 ∨ s.dev.fld Reg.UPD_STS_SOAK < 8 ∨ s.dev.newEpoch = false → Machine.exec .activationCommit s = .next s) ∧
     (act = 5 → 8 ≤ s.dev.fld Reg.UPD_STS_SOAK → s.dev.newEpoch = true → ∃ d : Dev, Machine.exec .activationCommit s = .next { s with dev := d } ∧
       (d.img n).state = .committed ∧ (d.img n).pkg = m ∧ (d.img (1 - n)).state = .retired ∧ d.sec.fuses = { s.dev.sec.fuses with rollback := roll } ∧
       d.fld Reg.UPD_ROLLBACK_COUNT = roll % 2 ^ 32 ∧ d.fld Reg.UPD_STS_ACT = 0 ∧ d.fld Reg.UPD_STS_STAGE = 0 ∧ d.fld Reg.UPD_STS_RESULT = 0 ∧
       d.raised = s.dev.raised ++ [ev 1926 (pkgRel m) (pkgRollback m) 0] ∧ d.mbx.tickets = ended s.dev.upd.ticket 0 0 ∧
       (∀ i, i < 2 → (s.dev.flashCopy i).state = .pending → (s.dev.flashCopy (1 - i)).state ≠ .pending →
         (d.flashCopy i).state = .committed ∧ (d.flashCopy (1 - i)).state = .retired))) ∧
    (∀ digest : List Byte, Machine.exec (.updateCommit digest) s = .next { s with dev := { s.dev with upd := { s.dev.upd with peerCommit := true } } })

/-- Alarms and their clearing, the debug opening, the challenge, the test logic, the temperatures and the hold-up bank (R171, R649, R650, R653, R656, R657, R658, R659, R660, R661, R676, R677). -/
def Obligations.AlarmsDebugTestLogicAndTemperature : Prop :=
  ∀ (s : State),
    let act := s.dev.fld Reg.SEC_STS_ACTIVE
    let dbg := s.dev.fld Reg.SEC_STS_DBG_STATE
    let ev (src p0 p1 p2 : Nat) : Raise := ⟨src, eventCode src, p0 % 2 ^ 32, p1 % 2 ^ 32, p2 % 2 ^ 32, s.dev.beat⟩
    let ended (st det : Nat) : List Ticket := s.dev.mbx.tickets.map (fun t => if t.num = s.dev.sec.ticket ∧ t.result.isNone then { t with result := some (st, det) } else t)
    let locked (d : Dev) : Prop := d.flag Reg.KEY_STS_LOCKED = true ∧ d.flag Reg.SEC_STS_LOCKED = true ∧ ∀ k, (d.kslot k).state = .empty
    let scans : Prop := (s.dev.fld Reg.MBX_GLB_STS_STEWARD = 0 ∧ s.dev.fld Reg.FIS_STRAP_VALUE / 2 % 4 = 3) ∨ dbg = 2
    let acts (ir : Nat) : Prop := if ir = 0x20 then dbg = 2 ∧ s.dev.fld Reg.SEC_STS_SCOPE / 2 % 2 = 1 else if ir ∈ [0x00, 0x03, 0x04, 0x05, 0x06] then scans else True
    (∀ cs : List (Nat × Nat × Nat),
      let fresh := cs.filter (fun c => decide (c.1 < 4) && decide (act / 2 ^ c.1 % 2 = 0))
      let mask := fresh.foldl (fun m c => m ||| 2 ^ c.1) 0
      (fresh = [] → Machine.exec (.alarm cs) s = .next s) ∧
      (fresh ≠ [] → ∃ (d : Dev) (l : List Raise), Machine.exec (.alarm cs) s = .next { s with dev := d } ∧ locked d ∧
        d.fld Reg.SEC_STS_ACTIVE = (act ||| mask) % 2 ^ 4 ∧ d.fld Reg.SEC_STS_ALARM_LATCH = (s.dev.fld Reg.SEC_STS_ALARM_LATCH ||| mask) % 2 ^ 4 ∧
        d.fld Reg.SEC_ALARM_BEAT_BEAT = s.dev.beat % 2 ^ 64 ∧ d.sec.since = s.dev.sec.since ||| mask ∧
        d.raised = l ++ [ev 12 1 0 0] ++ fresh.map (fun c => ev (1952 + c.1) c.2.1 c.2.2 0) ∧
        d.sec.chal = none ∧ d.flag Reg.SEC_STS_CHAL_VALID = false ∧ (s.dev.fld Reg.MEM_GEY_STS_STATE = 1 → d.fld Reg.MEM_GEY_STS_STATE = 0) ∧
        (dbg = 1 → d.fld Reg.SEC_STS_DBG_STATE = 0 ∧ d.sec.step = 0) ∧ (dbg ≠ 1 → d.fld Reg.SEC_STS_DBG_STATE = dbg))) ∧
    (∀ c : Nat,
      (4 ≤ c ∨ act / 2 ^ c % 2 = 0 → Machine.exec (.alarmCauseClear c) s = .next s) ∧
      (c < 4 → act / 2 ^ c % 2 = 1 → ∃ d : Dev, Machine.exec (.alarmCauseClear c) s = .next { s with dev := d } ∧
        d.fld Reg.SEC_STS_ACTIVE = (act - 2 ^ c) % 2 ^ 4 ∧ d = { s.dev with fields := d.fields, marks := d.marks } ∧
        (d.fld Reg.SEC_STS_ACTIVE = 0 → tget 0 d.marks tmAlarm = s.dev.edges + 1))) ∧
    (let may := act = 0 ∧ (tget 0 s.dev.marks tmAlarm = 0 ∨ 2 ^ 20 ≤ s.dev.edges + 1 - tget 0 s.dev.marks tmAlarm) ∧
       s.dev.fld Reg.SEC_STS_ALARM_LATCH = 0 ∧ dbg = 0
     (may → s.dev.flag Reg.KEY_STS_LOCKED = true → ∃ d : Dev, Machine.exec .alarmClr s = .next { s with dev := d } ∧
       d.flag Reg.KEY_STS_LOCKED = false ∧ d.flag Reg.SEC_STS_LOCKED = false ∧ d.sec.since = 0 ∧ d.raised = s.dev.raised ++ [ev 1956 s.dev.sec.since 0 0]) ∧
     (may → s.dev.flag Reg.KEY_STS_LOCKED = false → Machine.exec .alarmClr s = .next s) ∧
     (¬may → ∃ d : Dev, Machine.exec .alarmClr s = .next { s with dev := d } ∧ d = { s.dev with fields := d.fields } ∧
       d.flag Reg.SEC_STS_CLR_REFUSED = true ∧ d.fld Reg.KEY_STS_LOCKED = s.dev.fld Reg.KEY_STS_LOCKED)) ∧
    (let n := s.dev.sec.step
     let stops := n = 1 ∧ s.dev.cal.pwrfail = true
     let ends := (n = 1 ∧ (s.dev.sec.flush = false ∨ (s.dev.fld Reg.MEM_GEY_STS_STATE ∈ [2, 3] ∧ EdgeAct.geyser ∉ s.dev.edge))) ∨ n = 2 ∨
       (n = 3 ∧ tget 0 s.dev.marks tmScrub ≠ 0 ∧ 491520 ≤ s.dev.edges + 1 - tget 0 s.dev.marks tmScrub) ∨ n = 4
     (dbg ≠ 1 → Machine.exec .debugOpenStepDone s = .next s) ∧
     (dbg = 1 → stops → ∃ d : Dev, Machine.exec .debugOpenStepDone s = .next { s with dev := d } ∧ d.fld Reg.SEC_STS_DBG_STATE = 0 ∧ d.sec.step = 0 ∧
       d.mbx.tickets = ended 0x0C 1 ∧ d.raised = s.dev.raised) ∧
     (dbg = 1 → ¬stops → n < 5 → ¬ends → Machine.exec .debugOpenStepDone s = .next s) ∧
     (dbg = 1 → ¬stops → ends → ∃ d : Dev, Machine.exec .debugOpenStepDone s = .next { s with dev := d } ∧
       (n = 1 → d.sec.step = 2 ∧ locked d ∧ d.raised.getLast? = some (ev 12 2 0 0)) ∧
       (n = 2 → d.sec.step = 3 ∧ tget 0 d.marks tmScrub = s.dev.edges + 1 ∧ d.ram = s.dev.ram) ∧
       (n = 3 → d.sec.step = 4 ∧ d.flag Reg.SEC_STS_DUK_BLOCKED = true ∧ d.cal.own = [] ∧ d.cal.mirror = [] ∧ d.upd.buf = none ∧
         d.ram = s.dev.ram.filter (fun c => decide (56 * gib ≤ c.1 ∧ (c.1 < 92 * gib ∨ 96 * gib ≤ c.1)))) ∧
       (n = 4 → d.sec.step = 0 ∧ d.fld Reg.SEC_STS_DBG_STATE = 2 ∧ d.fld Reg.SEC_DBG_BEAT_BEAT = s.dev.beat % 2 ^ 64 ∧ d.mbx.tickets = ended 0 0 ∧
         d.raised = s.dev.raised ++ [ev 1959 (s.dev.fld Reg.SEC_STS_SCOPE) s.dev.sec.key 0] ∧
         (s.dev.fld Reg.SEC_STS_SCOPE % 2 = 1 → d.flag Reg.FIS_STS_SWITCHING = true ∧ d.fis.toProbe = true ∧ d.fis.switchAt = s.dev.edges + 1) ∧
         (s.dev.fld Reg.SEC_STS_SCOPE % 2 = 0 → d.fis = s.dev.fis)))) ∧
    (let late := s.dev.sec.chal.isSome = true ∧ tget 0 s.dev.marks tmChallenge ≠ 0 ∧ 4 * Config.epochBeats ≤ s.dev.edges + 1 - tget 0 s.dev.marks tmChallenge
     (¬late → Machine.exec .challengeExpire s = .next s) ∧
     (late → ∃ d : Dev, Machine.exec .challengeExpire s = .next { s with dev := d } ∧ d.sec = { s.dev.sec with chal := none } ∧
       d.flag Reg.SEC_STS_CHAL_VALID = false ∧ (∀ i, i < 4 → d.fld (Reg.SEC_CHAL i) = 0) ∧ d = { s.dev with fields := d.fields, marks := d.marks, sec := d.sec })) ∧
    (∀ op : Nat,
      let ir := op % 256
      ∃ d : Dev, Machine.exec (.jtagInstructionLoad op) s = .next { s with dev := d } ∧ d.fld Reg.SEC_JTAG_IR = ir ∧
        (¬acts ir → d.fld Reg.SEC_JTAG_REFUSED = min (s.dev.fld Reg.SEC_JTAG_REFUSED + 1) 65535 ∧ d.raised = s.dev.raised ++ [ev 1960 ir 0 0] ∧ d.out = s.dev.out) ∧
        (acts ir → d.raised = s.dev.raised ∧
          d.out = s.dev.out ++ (if ir ∈ [0x00, 0x03, 0x04, 0x05, 0x06] then [.scan ir (if ir = 0x04 then [] else s.dev.sec.bsr)] else []))) ∧
    (∃ d : Dev, Machine.exec .testLogicReset s = .next { s with dev := d } ∧ d.fld Reg.SEC_JTAG_IR = 1 ∧ d.sec = { s.dev.sec with bsr := [] } ∧
      d = { s.dev with fields := d.fields, sec := d.sec }) ∧
    (∀ (tdi : List Bool) (probe : Option (Nat × Nat)),
      let ir := s.dev.fld Reg.SEC_JTAG_IR
      let boundary := ir = 2 ∨ (ir ∈ [0x00, 0x05, 0x06] ∧ scans)
      (ir = 1 → Machine.exec (.shiftDr tdi probe) s = .next { s with dev := ({ s.dev with
        out := s.dev.out ++ [.tdo (((List.range 32).map (fun i => Nat.testBit 0x16400A6B i) ++ tdi).take tdi.length)] }) }) ∧
      (boundary → ∃ (d : Dev) (bs : List Bool), Machine.exec (.shiftDr tdi probe) s = .next { s with dev := d } ∧ bs.length = tdi.length ∧
        d.sec = { s.dev.sec with bsr := tdi } ∧ d.out = s.dev.out ++ [.tdo bs] ++ (if ir = 2 then [] else [.scan ir tdi])) ∧
      (ir = 0x20 → acts 0x20 → ∃ (d : Dev) (bs : List Bool), Machine.exec (.shiftDr tdi probe) s = .next { s with dev := d } ∧ bs.length = tdi.length ∧
        d.out = s.dev.out ++ [.tdo bs] ∧ (probe = none → d.fields = s.dev.fields) ∧
        (∀ i v, probe = some (i, v) → i < 6 → d.fld (Reg.FIS_PRB_SEL_POINT i) = v % 2 ^ 12) ∧
        (∀ v, probe = some (6, v) → d.fld Reg.FIS_PRB_CFG_DIV = v % 16 ∧ d.fld Reg.FIS_PRB_CFG_EN = v / 256 % 2)) ∧
      (ir ≠ 1 → ¬boundary → ¬(ir = 0x20 ∧ acts 0x20) → Machine.exec (.shiftDr tdi probe) s = .next { s with dev := ({ s.dev with
        out := s.dev.out ++ [.tdo ((false :: tdi).take tdi.length)] }) })) ∧
    (∀ (temps hbm : List Int) (i : Nat) (t : Int), temps[i]? = some t → (∀ x ∈ temps, x ≤ t) → (∀ j x, j < i → temps[j]? = some x → x < t) →
      let tj := s.dev.sec.fuses.tjMax
      let hot := (hbm.any (fun x => decide (100 < x)) || temps.any (fun x => decide (tj < x)) || (s.dev.hot && temps.any (fun x => decide (tj - 3 < x)))) = true
      let was := s.dev.fld Reg.SEC_TEMP_MAX
      let warn := if (s.dev.hot = true ↔ hot) then (if tj < t ∧ act / 4 % 2 = 0 ∧ tget 0 s.dev.seen 0x50000 ≠ s.dev.epoch + 1 then [ev 1962 i (t % 256).toNat 0] else [])
        else [ev 1962 i (t % 256).toNat 0]
      ∃ d : Dev, Machine.exec (.temperatureWarning temps hbm) s = .next { s with dev := d } ∧ (d.hot = true ↔ hot) ∧
        d.fld Reg.SEC_TEMP_NOW = (t % 256).toNat ∧ d.fld Reg.SEC_TEMP_MAX = (max (if was < 128 then (was : Int) else (was : Int) - 256) t % 256).toNat ∧
        d.raised = s.dev.raised ++ warn ∧ d.sec.temps = temps ∧ d.sec.hbmTemps = hbm ∧
        (∀ j : Nat, j ∈ d.sec.refresh2 ↔ ∃ x, hbm[j]? = some x ∧ 85 < x) ∧
        (∀ (j c : Nat) (x : Int), hbm[j]? = some x → c < 16 → d.memCh (16 * j + c) = { s.dev.memCh (16 * j + c) with now := (x % 256).toNat })) ∧
    (∀ level : Bool,
      (s.dev.fld Reg.FIS_STS_PHASE = 0 → Machine.exec (.holdupOkChange level) s = .next s) ∧
      (s.dev.fld Reg.FIS_STS_PHASE ≠ 0 → ∃ d : Dev, Machine.exec (.holdupOkChange level) s = .next { s with dev := d } ∧ d.cal = { s.dev.cal with holdupOk := level } ∧
        (level = false → d.flag Reg.GLB_CAL_STS_HOLDUP_LOW = true ∧ tget 0 d.marks tmHoldup = 0) ∧
        (level = true → d.fields = s.dev.fields ∧ tget 0 d.marks tmHoldup =
          if (s.dev.kslot 4095).state = .ready ∧ tget 0 s.dev.marks tmHoldup = 0 then s.dev.edges + 1 else tget 0 s.dev.marks tmHoldup)))

/-- Every step keeps every byte memory in its one canonical form, with strictly rising addresses and no byte of the unlisted value (R5, R146, R504, R529). -/
def Obligations.MemoriesStayCanonicalInEveryStep : Prop :=
  ∀ s s' : State, s.sound → Machine.step s = .next s' → s'.sound

/-- A step puts no register write, packet, pin event or drive completion into the queue by itself (Chapter 1, Chapter 2). -/
def Obligations.NoStepQueuesACommandFromOutside : Prop :=
  ∀ s s' : State, Machine.step s = .next s' → ∀ c ∈ s'.pending, fromOutside c = true → c ∈ s.pending ∨ c ∈ s.dev.beatEdge.cdx.inbox
end

