-- ==== Sys2Proof/Laws/Bytes.lean ====
section
/-! SUPPORT. Laws of byte strings: numbers in little-endian order, fields, CRC words, and the witness record. -/
namespace Sys2Proof.Laws
open Sys2Proof Sys2Proof.Machine

@[simp] theorem leBytes_length (n v : Nat) : (leBytes n v).length = n := by
  induction n generalizing v with
  | zero => rfl
  | succ n ih => simp [leBytes, ih]

theorem leNat_leBytes (n v : Nat) : leNat (leBytes n v) = v % 256 ^ n := by
  induction n generalizing v with
  | zero => simp [leBytes, leNat, Nat.mod_one]
  | succ n ih =>
    have h : (BitVec.ofNat 8 v).toNat = v % 256 := BitVec.toNat_ofNat v 8
    rw [leBytes, leNat, ih, h, Nat.pow_succ', Nat.mod_mul]

theorem leField_append {xs ys : List Byte} {off len : Nat} (h : off + len ≤ xs.length) : leField (xs ++ ys) off len = leField xs off len := by
  unfold leField
  rw [List.drop_append_of_le_length (by omega), List.take_append_of_le_length (by simp; omega)]

/-- A string closed by its CRC-32C passes the check. -/
theorem crcGood_withCrc (xs : List Byte) : crcGood (withCrc xs) = true := by
  simp only [crcGood, withCrc, List.length_append, leBytes_length, Nat.add_sub_cancel, List.drop_left, List.take_left, leNat_leBytes,
    decide_eq_true_eq]
  exact Nat.mod_eq_of_lt (BitVec.isLt _)

theorem padTo_eq {n : Nat} {xs : List Byte} (h : xs.length ≤ n) : padTo n xs = xs ++ List.replicate (n - xs.length) 0 := by
  unfold padTo
  rw [List.take_append, List.take_of_length_le h, List.take_replicate]
  congr 2
  omega

/-- The fields of a witness record as its bytes hold them (R473). -/
def witHead (w : WitRec) : List Byte :=
  leBytes 4 0x5E7A_11D0 ++ leBytes 1 1 ++ leBytes 1 w.mode ++ leBytes 1 w.dom ++ leBytes 1 w.vaultOnly ++ leBytes 4 w.tag ++
    leBytes 4 0 ++ leBytes 8 w.gen ++ leBytes 8 w.owner ++ leBytes 8 w.home ++ leBytes 8 w.refresh0 ++ leBytes 8 w.refresh1 ++
    leBytes 8 w.stamp0 ++ leBytes 8 w.stamp1 ++ leBytes 4 w.resv0 ++ leBytes 4 w.resv1

theorem witHead_length (w : WitRec) : (witHead w).length = 80 := by simp [witHead]

theorem witBytes_eq (w : WitRec) : w.bytes = withCrc (witHead w ++ List.replicate 4012 0) := by
  have h := padTo_eq (n := 4092) (xs := witHead w) (by simp [witHead_length])
  rw [witHead_length] at h
  rw [← h]
  rfl

theorem witBytes_length (w : WitRec) : w.bytes.length = 4096 := by
  rw [witBytes_eq, withCrc, List.length_append, List.length_append, witHead_length, List.length_replicate, leBytes_length]

theorem witBytes_field (w : WitRec) {off len : Nat} (h : off + len ≤ 80) : leField w.bytes off len = leField (witHead w) off len := by
  rw [witBytes_eq, withCrc, List.append_assoc, leField_append (by simpa [witHead_length] using h)]

/-- A well-formed record reads back from its own bytes (R473, R474). -/
theorem witOf_bytes {w v : WitRec} (hm : leField (witHead w) 0 4 = 0x5E7A_11D0 ∧ leField (witHead w) 4 1 = 1)
    (hv : (⟨leField (witHead w) 5 1, leField (witHead w) 6 1, leField (witHead w) 7 1, leField (witHead w) 8 4, leField (witHead w) 16 8,
      leField (witHead w) 24 8, leField (witHead w) 32 8, leField (witHead w) 40 8, leField (witHead w) 48 8, leField (witHead w) 56 8,
      leField (witHead w) 64 8, leField (witHead w) 72 4 % 2 ^ 24, leField (witHead w) 76 4 % 2 ^ 24⟩ : WitRec) = v) : witOf v.tag w.bytes = some v := by
  have hc : crcGood w.bytes = true := by rw [witBytes_eq]; exact crcGood_withCrc _
  subst hv
  simp only [witOf, witBytes_length, hc, witBytes_field w (show 0 + 4 ≤ 80 by decide), witBytes_field w (show 4 + 1 ≤ 80 by decide),
    witBytes_field w (show 5 + 1 ≤ 80 by decide), witBytes_field w (show 6 + 1 ≤ 80 by decide), witBytes_field w (show 7 + 1 ≤ 80 by decide),
    witBytes_field w (show 8 + 4 ≤ 80 by decide), witBytes_field w (show 16 + 8 ≤ 80 by decide), witBytes_field w (show 24 + 8 ≤ 80 by decide),
    witBytes_field w (show 32 + 8 ≤ 80 by decide), witBytes_field w (show 40 + 8 ≤ 80 by decide), witBytes_field w (show 48 + 8 ≤ 80 by decide),
    witBytes_field w (show 56 + 8 ≤ 80 by decide), witBytes_field w (show 64 + 8 ≤ 80 by decide), witBytes_field w (show 72 + 4 ≤ 80 by decide),
    witBytes_field w (show 76 + 4 ≤ 80 by decide), hm, and_self, if_true]

/-- R474: two equal copies are the majority. -/
theorem majority_two {tag : Nat} {w : WitRec} {b : List Byte} (h : witOf tag b = some w) : majority tag [some b, some b, none] = some (b, w) := by
  simp [majority, h]

theorem majority_one {tag : Nat} {b : List Byte} : majority tag [some b, none, none] = none := by simp [majority]

end Sys2Proof.Laws
end

