-- ==== Sys2Proof/Laws/Table.lean ====
section
/-! SUPPORT. What a read of a sparse table gives after a write, and that a write keeps the canonical form. -/
namespace Sys2Proof.Machine

theorem tget_tdel {α : Type} (dv : α) (l : List (Nat × α)) (k j : Nat) :
    tget dv (tdel l k) j = if k = j then dv else tget dv l j := by
  induction l with
  | nil => simp [tdel, tget]
  | cons e t ih =>
    obtain ⟨i, v⟩ := e
    simp only [tdel]
    split
    · subst_vars; rw [ih]; simp only [tget]; split <;> simp_all
    · simp only [tget, ih]; split <;> split <;> simp_all

theorem tget_tins {α : Type} (dv : α) (l : List (Nat × α)) (k : Nat) (v : α) (j : Nat) :
    tget dv (tins (tdel l k) k v) j = if k = j then v else tget dv l j := by
  have key : ∀ m : List (Nat × α), (∀ e ∈ m, e.1 ≠ k) →
      tget dv (tins m k v) j = if k = j then v else tget dv m j := by
    intro m hm
    induction m with
    | nil => simp [tins, tget]
    | cons e t ih =>
      obtain ⟨i, w⟩ := e
      have hi : i ≠ k := hm (i, w) (by simp)
      have ht := ih (fun e he => hm e (by simp [he]))
      simp only [tins]
      split
      · simp [tget]
      · simp only [tget, ht]; split <;> split <;> simp_all
  have hd : ∀ e ∈ tdel l k, e.1 ≠ k := by
    induction l with
    | nil => simp [tdel]
    | cons e t ih =>
      obtain ⟨i, w⟩ := e
      simp only [tdel]
      split
      · exact ih
      · intro e he; simp only [List.mem_cons] at he
        rcases he with rfl | he
        · assumption
        · exact ih e he
  rw [key _ hd, tget_tdel]; split <;> simp_all

/-- A read after a write: the value written at its key, and every other key as before. -/
theorem tget_tput {α : Type} [DecidableEq α] (dv : α) (l : List (Nat × α)) (k : Nat) (v : α) (j : Nat) :
    tget dv (tput dv l k v) j = if k = j then v else tget dv l j := by
  unfold tput; split
  · rw [tget_tdel]; split <;> simp_all
  · exact tget_tins dv l k v j

@[simp] theorem tget_tput_self {α : Type} [DecidableEq α] (dv : α) (l : List (Nat × α)) (k : Nat) (v : α) :
    tget dv (tput dv l k v) k = v := by simp [tget_tput]

theorem tget_tput_ne {α : Type} [DecidableEq α] (dv : α) (l : List (Nat × α)) (k : Nat) (v : α) (j : Nat)
    (h : k ≠ j) : tget dv (tput dv l k v) j = tget dv l j := by simp [tget_tput, h]

/-- A read at another key does not see a write, whatever each takes an unlisted key to be. -/
theorem tget_tput_other {α : Type} [DecidableEq α] (dv ev : α) (l : List (Nat × α)) (k : Nat) (v : α) (j : Nat)
    (h : k ≠ j) : tget ev (tput dv l k v) j = tget ev l j := by
  have hd : tget ev (tdel l k) j = tget ev l j := by rw [tget_tdel]; simp [h]
  unfold tput; split
  · exact hd
  · rw [tget_tins]; simp [h]

theorem tget_tupd {α : Type} [DecidableEq α] (dv : α) (l : List (Nat × α)) (k : Nat) (f : α → α) (j : Nat) :
    tget dv (tupd dv l k f) j = if k = j then f (tget dv l k) else tget dv l j := by
  simp [tupd, tget_tput]

theorem tsorted_cons {α : Type} (e : Nat × α) (l : List (Nat × α)) :
    tsorted (e :: l) = true ↔ (∀ x ∈ l.head?, e.1 < x.1) ∧ tsorted l = true := by
  cases l with
  | nil => simp [tsorted]
  | cons x t => obtain ⟨i, v⟩ := e; obtain ⟨j, w⟩ := x; simp [tsorted]

theorem tsorted_iff {α : Type} (l : List (Nat × α)) :
    tsorted l = true ↔ l.Pairwise (fun a b => a.1 < b.1) := by
  induction l with
  | nil => simp [tsorted]
  | cons e t ih =>
    rw [tsorted_cons, ih, List.pairwise_cons]
    constructor
    · rintro ⟨h, hp⟩
      refine ⟨?_, hp⟩
      cases t with
      | nil => simp
      | cons x t =>
        have hx := h x (by simp)
        intro y hy
        rcases List.mem_cons.1 hy with rfl | hy
        · exact hx
        · have := (List.pairwise_cons.1 hp).1 y hy; omega
    · rintro ⟨h, hp⟩
      refine ⟨?_, hp⟩
      intro x hx
      exact h x (List.mem_of_mem_head? hx)

theorem mem_tdel {α : Type} (l : List (Nat × α)) (k : Nat) (e : Nat × α) (h : e ∈ tdel l k) :
    e ∈ l ∧ e.1 ≠ k := by
  induction l with
  | nil => simp [tdel] at h
  | cons x t ih =>
    obtain ⟨i, v⟩ := x
    simp only [tdel] at h
    split at h
    · have := ih h; exact ⟨by simp [this.1], this.2⟩
    · rcases List.mem_cons.1 h with rfl | h
      · exact ⟨by simp, by assumption⟩
      · have := ih h; exact ⟨by simp [this.1], this.2⟩

theorem mem_tins {α : Type} (l : List (Nat × α)) (k : Nat) (v : α) (e : Nat × α) (h : e ∈ tins l k v) :
    e = (k, v) ∨ e ∈ l := by
  induction l with
  | nil => simpa [tins] using h
  | cons x t ih =>
    obtain ⟨i, w⟩ := x
    simp only [tins] at h
    split at h
    · simpa using h
    · rcases List.mem_cons.1 h with rfl | h
      · simp
      · rcases ih h with h | h <;> simp [h]

theorem tdel_pairwise {α : Type} (l : List (Nat × α)) (k : Nat)
    (h : l.Pairwise (fun a b => a.1 < b.1)) : (tdel l k).Pairwise (fun a b => a.1 < b.1) := by
  induction l with
  | nil => simp [tdel]
  | cons x t ih =>
    obtain ⟨i, w⟩ := x
    rw [List.pairwise_cons] at h
    simp only [tdel]
    split
    · exact ih h.2
    · rw [List.pairwise_cons]
      exact ⟨fun y hy => h.1 y (mem_tdel t k y hy).1, ih h.2⟩

theorem tins_pairwise {α : Type} (l : List (Nat × α)) (k : Nat) (v : α) (hk : ∀ e ∈ l, e.1 ≠ k)
    (h : l.Pairwise (fun a b => a.1 < b.1)) : (tins l k v).Pairwise (fun a b => a.1 < b.1) := by
  induction l with
  | nil => simp [tins]
  | cons x t ih =>
    obtain ⟨i, w⟩ := x
    rw [List.pairwise_cons] at h
    have hi : i ≠ k := hk (i, w) (by simp)
    simp only [tins]
    split
    · rw [List.pairwise_cons, List.pairwise_cons]
      refine ⟨?_, h⟩
      intro y hy
      rcases List.mem_cons.1 hy with rfl | hy
      · assumption
      · have := h.1 y hy; simp only at *; omega
    · rw [List.pairwise_cons]
      refine ⟨?_, ih (fun e he => hk e (by simp [he])) h.2⟩
      intro y hy
      rcases mem_tins t k v y hy with rfl | hy
      · simp only at *; omega
      · exact h.1 y hy

/-- A write keeps the canonical form. -/
theorem twf_tput {α : Type} [DecidableEq α] (dv : α) (l : List (Nat × α)) (k : Nat) (v : α)
    (h : twf dv l = true) : twf dv (tput dv l k v) = true := by
  simp only [twf, Bool.and_eq_true, tsorted_iff, List.all_eq_true, decide_eq_true_eq] at h ⊢
  unfold tput
  split
  · exact ⟨tdel_pairwise l k h.1, fun e he => h.2 e (mem_tdel l k e he).1⟩
  · refine ⟨tins_pairwise _ k v (fun e he => (mem_tdel l k e he).2) (tdel_pairwise l k h.1), ?_⟩
    intro e he
    rcases mem_tins _ k v e he with rfl | he
    · assumption
    · exact h.2 e (mem_tdel l k e he).1

theorem twf_tupd {α : Type} [DecidableEq α] (dv : α) (l : List (Nat × α)) (k : Nat) (f : α → α)
    (h : twf dv l = true) : twf dv (tupd dv l k f) = true := twf_tput dv l k _ h

end Sys2Proof.Machine
end

