-- ==== Sys2Proof/Laws/Memory.lean ====
section
/-! SUPPORT. Byte memory: a read after a write, and that every memory operation keeps the canonical form. -/
namespace Sys2Proof.Machine

/-! ### One byte -/

theorem readByte_writeByte (m : List Host.Cell) (a : Nat) (b : Byte) (x : Nat) :
    readByte (writeByte m a b) x = if a = x then b else readByte m x := tget_tput _ _ _ _ _

@[simp] theorem readByte_writeByte_self (m : List Host.Cell) (a : Nat) (b : Byte) : readByte (writeByte m a b) a = b := by
  simp [readByte_writeByte]

/-- A write leaves every other address alone. -/
theorem readByte_writeByte_ne {m : List Host.Cell} {a x : Nat} {b : Byte} (h : a ≠ x) : readByte (writeByte m a b) x = readByte m x := by
  simp [readByte_writeByte, h]

@[simp] theorem readByte_nil (a : Nat) : readByte [] a = memDefault := rfl

/-! ### Several bytes -/

@[simp] theorem readBytes_length (m : List Host.Cell) (a n : Nat) : (readBytes m a n).length = n := by
  induction n generalizing a with
  | zero => rfl
  | succ n ih => simp [readBytes, ih]

/-- A byte read after a write of bytes: inside them the byte written, outside them the byte before. -/
theorem readByte_writeBytes (m : List Host.Cell) (a b : Nat) (bs : List Byte) :
    readByte (writeBytes m a bs) b = if a ≤ b ∧ b < a + bs.length then bs.getD (b - a) 0 else readByte m b := by
  induction bs generalizing m a with
  | nil => rw [if_neg (by simp only [List.length_nil]; omega)]; rfl
  | cons v t ih =>
    simp only [writeBytes, ih, readByte_writeByte, List.length_cons]
    by_cases h1 : a + 1 ≤ b ∧ b < a + 1 + t.length
    · have h2 : a ≤ b ∧ b < a + (t.length + 1) := by omega
      have h3 : b - a = (b - (a + 1)) + 1 := by omega
      rw [if_pos h1, if_pos h2, h3, List.getD_cons_succ]
    · rw [if_neg h1]
      by_cases h4 : a = b
      · subst h4; simp
      · rw [if_neg h4, if_neg (by omega)]

/-- A write of several bytes leaves every address outside them alone. -/
theorem readByte_writeBytes_outside {m : List Host.Cell} {bs : List Byte} {a x : Nat} (h : x < a ∨ a + bs.length ≤ x) :
    readByte (writeBytes m a bs) x = readByte m x := by
  rw [readByte_writeBytes, if_neg (by omega)]

/-- A read of the bytes just written gives them. -/
theorem readBytes_writeBytes (m : List Host.Cell) (a : Nat) (bs : List Byte) : readBytes (writeBytes m a bs) a bs.length = bs := by
  induction bs generalizing m a with
  | nil => rfl
  | cons b bs ih =>
    simp only [List.length_cons, writeBytes, readBytes]
    rw [ih, readByte_writeBytes_outside (by omega), readByte_writeByte_self]

/-! ### The canonical form -/

@[simp] theorem Memory.wf_nil : Memory.wf [] = true := rfl

theorem Memory.wf_writeByte {m : List Host.Cell} (h : Memory.wf m = true) (a : Nat) (b : Byte) : Memory.wf (writeByte m a b) = true :=
  twf_tput _ _ _ _ h

theorem Memory.wf_writeBytes {m : List Host.Cell} (h : Memory.wf m = true) (a : Nat) (bs : List Byte) : Memory.wf (writeBytes m a bs) = true := by
  induction bs generalizing m a with
  | nil => exact h
  | cons b bs ih => exact ih (Memory.wf_writeByte h a b) (a + 1)

/-- Bytes may be dropped: what is left is canonical. -/
theorem Memory.wf_filter {m : List Host.Cell} (h : Memory.wf m = true) (p : Host.Cell → Bool) : Memory.wf (m.filter p) = true := by
  simp only [Memory.wf, twf, Bool.and_eq_true, tsorted_iff, List.all_eq_true] at *
  exact ⟨h.1.filter p, fun e he => h.2 e (List.mem_filter.mp he).1⟩

/-- Canonical memories that read alike are the same data. -/
theorem Memory.ext {m n : List Host.Cell} (hm : Memory.wf m = true) (hn : Memory.wf n = true) (h : ∀ a, readByte m a = readByte n a) : m = n := by
  simp only [Memory.wf, twf, Bool.and_eq_true, tsorted_iff, List.all_eq_true, decide_eq_true_eq] at hm hn
  have low : ∀ (l : List Host.Cell) (a : Nat), (∀ e ∈ l, a < e.1) → readByte l a = memDefault := by
    intro l a
    induction l with
    | nil => intro _; rfl
    | cons e t ih =>
      intro h
      have h1 := h e (by simp)
      simp only [readByte, tget] at *
      rw [if_neg (by omega)]
      exact ih fun x hx => h x (by simp [hx])
  induction m generalizing n with
  | nil =>
    cases n with
    | nil => rfl
    | cons e t =>
      have := h e.1
      simp [readByte, tget] at this
      exact absurd this.symm (hn.2 e (by simp))
  | cons e t ih =>
    cases n with
    | nil =>
      have := h e.1
      simp [readByte, tget] at this
      exact absurd this (hm.2 e (by simp))
    | cons f u =>
      obtain ⟨a, x⟩ := e
      obtain ⟨b, y⟩ := f
      have hmt := List.pairwise_cons.mp hm.1
      have hnt := List.pairwise_cons.mp hn.1
      have hx := hm.2 (a, x) (by simp)
      have hy := hn.2 (b, y) (by simp)
      have hab : a = b := by
        rcases Nat.lt_trichotomy a b with hlt | heq | hlt
        · have h0 := h a
          rw [low ((b, y) :: u) a (by
            intro e he; simp only [List.mem_cons] at he
            rcases he with rfl | he
            · exact hlt
            · have := hnt.1 e he; simp only at this; omega)] at h0
          simp [readByte, tget] at h0
          exact absurd h0 hx
        · exact heq
        · have h0 := h b
          rw [low ((a, x) :: t) b (by
            intro e he; simp only [List.mem_cons] at he
            rcases he with rfl | he
            · exact hlt
            · have := hmt.1 e he; simp only at this; omega)] at h0
          simp [readByte, tget] at h0
          exact absurd h0.symm hy
      subst hab
      have hxy : x = y := by simpa [readByte, tget] using h a
      subst hxy
      congr 1
      refine ih (n := u) (fun c => ?_) ⟨hmt.2, fun e he => hm.2 e (List.mem_cons_of_mem _ he)⟩ ⟨hnt.2, fun e he => hn.2 e (List.mem_cons_of_mem _ he)⟩
      by_cases hc : a = c
      · subst hc
        rw [low t a (fun e he => hmt.1 e he), low u a (fun e he => hnt.1 e he)]
      · simpa [readByte, tget, hc] using h c

/-- Memory after reset is canonical. -/
theorem reset_sound : State.reset.sound := ⟨rfl, rfl, rfl, rfl⟩

end Sys2Proof.Machine
end

