-- ==== Sys2Proof/Laws/State.lean ====
section
/-! SUPPORT. What each named update of the device leaves as it was, one lemma per update and field, and what a
register field, a table entry or a byte reads as after each. -/
namespace Sys2Proof.Machine

/-! ### `setFld` -/

@[simp] theorem Dev.setFld_beat (d : Dev) (f : Fld) (v : Nat) : (d.setFld f v).beat = d.beat := rfl
@[simp] theorem Dev.setFld_edges (d : Dev) (f : Fld) (v : Nat) : (d.setFld f v).edges = d.edges := rfl
@[simp] theorem Dev.setFld_wins (d : Dev) (f : Fld) (v : Nat) : (d.setFld f v).wins = d.wins := rfl
@[simp] theorem Dev.setFld_raised (d : Dev) (f : Fld) (v : Nat) : (d.setFld f v).raised = d.raised := rfl
@[simp] theorem Dev.setFld_seen (d : Dev) (f : Fld) (v : Nat) : (d.setFld f v).seen = d.seen := rfl
@[simp] theorem Dev.setFld_marks (d : Dev) (f : Fld) (v : Nat) : (d.setFld f v).marks = d.marks := rfl
@[simp] theorem Dev.setFld_hwPend (d : Dev) (f : Fld) (v : Nat) : (d.setFld f v).hwPend = d.hwPend := rfl
@[simp] theorem Dev.setFld_seqPend (d : Dev) (f : Fld) (v : Nat) : (d.setFld f v).seqPend = d.seqPend := rfl
@[simp] theorem Dev.setFld_free (d : Dev) (f : Fld) (v : Nat) : (d.setFld f v).free = d.free := rfl
@[simp] theorem Dev.setFld_out (d : Dev) (f : Fld) (v : Nat) : (d.setFld f v).out = d.out := rfl
@[simp] theorem Dev.setFld_edge (d : Dev) (f : Fld) (v : Nat) : (d.setFld f v).edge = d.edge := rfl
@[simp] theorem Dev.setFld_ram (d : Dev) (f : Fld) (v : Nat) : (d.setFld f v).ram = d.ram := rfl
@[simp] theorem Dev.setFld_sync (d : Dev) (f : Fld) (v : Nat) : (d.setFld f v).sync = d.sync := rfl
@[simp] theorem Dev.setFld_stepPend (d : Dev) (f : Fld) (v : Nat) : (d.setFld f v).stepPend = d.stepPend := rfl
@[simp] theorem Dev.setFld_jumps (d : Dev) (f : Fld) (v : Nat) : (d.setFld f v).jumps = d.jumps := rfl
@[simp] theorem Dev.setFld_newEpoch (d : Dev) (f : Fld) (v : Nat) : (d.setFld f v).newEpoch = d.newEpoch := rfl
@[simp] theorem Dev.setFld_hot (d : Dev) (f : Fld) (v : Nat) : (d.setFld f v).hot = d.hot := rfl
@[simp] theorem Dev.setFld_slices (d : Dev) (f : Fld) (v : Nat) : (d.setFld f v).slices = d.slices := rfl
@[simp] theorem Dev.setFld_xpt (d : Dev) (f : Fld) (v : Nat) : (d.setFld f v).xpt = d.xpt := rfl
@[simp] theorem Dev.setFld_nvt (d : Dev) (f : Fld) (v : Nat) : (d.setFld f v).nvt = d.nvt := rfl
@[simp] theorem Dev.setFld_cal (d : Dev) (f : Fld) (v : Nat) : (d.setFld f v).cal = d.cal := rfl
@[simp] theorem Dev.setFld_mde (d : Dev) (f : Fld) (v : Nat) : (d.setFld f v).mde = d.mde := rfl
@[simp] theorem Dev.setFld_tph (d : Dev) (f : Fld) (v : Nat) : (d.setFld f v).tph = d.tph := rfl
@[simp] theorem Dev.setFld_key (d : Dev) (f : Fld) (v : Nat) : (d.setFld f v).key = d.key := rfl
@[simp] theorem Dev.setFld_lay (d : Dev) (f : Fld) (v : Nat) : (d.setFld f v).lay = d.lay := rfl
@[simp] theorem Dev.setFld_mdc (d : Dev) (f : Fld) (v : Nat) : (d.setFld f v).mdc = d.mdc := rfl
@[simp] theorem Dev.setFld_rd (d : Dev) (f : Fld) (v : Nat) : (d.setFld f v).rd = d.rd := rfl
@[simp] theorem Dev.setFld_drv (d : Dev) (f : Fld) (v : Nat) : (d.setFld f v).drv = d.drv := rfl
@[simp] theorem Dev.setFld_rep (d : Dev) (f : Fld) (v : Nat) : (d.setFld f v).rep = d.rep := rfl
@[simp] theorem Dev.setFld_cdx (d : Dev) (f : Fld) (v : Nat) : (d.setFld f v).cdx = d.cdx := rfl
@[simp] theorem Dev.setFld_fov (d : Dev) (f : Fld) (v : Nat) : (d.setFld f v).fov = d.fov := rfl
@[simp] theorem Dev.setFld_mem (d : Dev) (f : Fld) (v : Nat) : (d.setFld f v).mem = d.mem := rfl
@[simp] theorem Dev.setFld_fum (d : Dev) (f : Fld) (v : Nat) : (d.setFld f v).fum = d.fum := rfl
@[simp] theorem Dev.setFld_pmc (d : Dev) (f : Fld) (v : Nat) : (d.setFld f v).pmc = d.pmc := rfl
@[simp] theorem Dev.setFld_mbx (d : Dev) (f : Fld) (v : Nat) : (d.setFld f v).mbx = d.mbx := rfl
@[simp] theorem Dev.setFld_fis (d : Dev) (f : Fld) (v : Nat) : (d.setFld f v).fis = d.fis := rfl
@[simp] theorem Dev.setFld_upd (d : Dev) (f : Fld) (v : Nat) : (d.setFld f v).upd = d.upd := rfl
@[simp] theorem Dev.setFld_sec (d : Dev) (f : Fld) (v : Nat) : (d.setFld f v).sec = d.sec := rfl

/-! ### `setFlag` -/

@[simp] theorem Dev.setFlag_beat (d : Dev) (f : Fld) (b : Bool) : (d.setFlag f b).beat = d.beat := rfl
@[simp] theorem Dev.setFlag_edges (d : Dev) (f : Fld) (b : Bool) : (d.setFlag f b).edges = d.edges := rfl
@[simp] theorem Dev.setFlag_wins (d : Dev) (f : Fld) (b : Bool) : (d.setFlag f b).wins = d.wins := rfl
@[simp] theorem Dev.setFlag_raised (d : Dev) (f : Fld) (b : Bool) : (d.setFlag f b).raised = d.raised := rfl
@[simp] theorem Dev.setFlag_seen (d : Dev) (f : Fld) (b : Bool) : (d.setFlag f b).seen = d.seen := rfl
@[simp] theorem Dev.setFlag_marks (d : Dev) (f : Fld) (b : Bool) : (d.setFlag f b).marks = d.marks := rfl
@[simp] theorem Dev.setFlag_hwPend (d : Dev) (f : Fld) (b : Bool) : (d.setFlag f b).hwPend = d.hwPend := rfl
@[simp] theorem Dev.setFlag_seqPend (d : Dev) (f : Fld) (b : Bool) : (d.setFlag f b).seqPend = d.seqPend := rfl
@[simp] theorem Dev.setFlag_free (d : Dev) (f : Fld) (b : Bool) : (d.setFlag f b).free = d.free := rfl
@[simp] theorem Dev.setFlag_out (d : Dev) (f : Fld) (b : Bool) : (d.setFlag f b).out = d.out := rfl
@[simp] theorem Dev.setFlag_edge (d : Dev) (f : Fld) (b : Bool) : (d.setFlag f b).edge = d.edge := rfl
@[simp] theorem Dev.setFlag_ram (d : Dev) (f : Fld) (b : Bool) : (d.setFlag f b).ram = d.ram := rfl
@[simp] theorem Dev.setFlag_sync (d : Dev) (f : Fld) (b : Bool) : (d.setFlag f b).sync = d.sync := rfl
@[simp] theorem Dev.setFlag_stepPend (d : Dev) (f : Fld) (b : Bool) : (d.setFlag f b).stepPend = d.stepPend := rfl
@[simp] theorem Dev.setFlag_jumps (d : Dev) (f : Fld) (b : Bool) : (d.setFlag f b).jumps = d.jumps := rfl
@[simp] theorem Dev.setFlag_newEpoch (d : Dev) (f : Fld) (b : Bool) : (d.setFlag f b).newEpoch = d.newEpoch := rfl
@[simp] theorem Dev.setFlag_hot (d : Dev) (f : Fld) (b : Bool) : (d.setFlag f b).hot = d.hot := rfl
@[simp] theorem Dev.setFlag_slices (d : Dev) (f : Fld) (b : Bool) : (d.setFlag f b).slices = d.slices := rfl
@[simp] theorem Dev.setFlag_xpt (d : Dev) (f : Fld) (b : Bool) : (d.setFlag f b).xpt = d.xpt := rfl
@[simp] theorem Dev.setFlag_nvt (d : Dev) (f : Fld) (b : Bool) : (d.setFlag f b).nvt = d.nvt := rfl
@[simp] theorem Dev.setFlag_cal (d : Dev) (f : Fld) (b : Bool) : (d.setFlag f b).cal = d.cal := rfl
@[simp] theorem Dev.setFlag_mde (d : Dev) (f : Fld) (b : Bool) : (d.setFlag f b).mde = d.mde := rfl
@[simp] theorem Dev.setFlag_tph (d : Dev) (f : Fld) (b : Bool) : (d.setFlag f b).tph = d.tph := rfl
@[simp] theorem Dev.setFlag_key (d : Dev) (f : Fld) (b : Bool) : (d.setFlag f b).key = d.key := rfl
@[simp] theorem Dev.setFlag_lay (d : Dev) (f : Fld) (b : Bool) : (d.setFlag f b).lay = d.lay := rfl
@[simp] theorem Dev.setFlag_mdc (d : Dev) (f : Fld) (b : Bool) : (d.setFlag f b).mdc = d.mdc := rfl
@[simp] theorem Dev.setFlag_rd (d : Dev) (f : Fld) (b : Bool) : (d.setFlag f b).rd = d.rd := rfl
@[simp] theorem Dev.setFlag_drv (d : Dev) (f : Fld) (b : Bool) : (d.setFlag f b).drv = d.drv := rfl
@[simp] theorem Dev.setFlag_rep (d : Dev) (f : Fld) (b : Bool) : (d.setFlag f b).rep = d.rep := rfl
@[simp] theorem Dev.setFlag_cdx (d : Dev) (f : Fld) (b : Bool) : (d.setFlag f b).cdx = d.cdx := rfl
@[simp] theorem Dev.setFlag_fov (d : Dev) (f : Fld) (b : Bool) : (d.setFlag f b).fov = d.fov := rfl
@[simp] theorem Dev.setFlag_mem (d : Dev) (f : Fld) (b : Bool) : (d.setFlag f b).mem = d.mem := rfl
@[simp] theorem Dev.setFlag_fum (d : Dev) (f : Fld) (b : Bool) : (d.setFlag f b).fum = d.fum := rfl
@[simp] theorem Dev.setFlag_pmc (d : Dev) (f : Fld) (b : Bool) : (d.setFlag f b).pmc = d.pmc := rfl
@[simp] theorem Dev.setFlag_mbx (d : Dev) (f : Fld) (b : Bool) : (d.setFlag f b).mbx = d.mbx := rfl
@[simp] theorem Dev.setFlag_fis (d : Dev) (f : Fld) (b : Bool) : (d.setFlag f b).fis = d.fis := rfl
@[simp] theorem Dev.setFlag_upd (d : Dev) (f : Fld) (b : Bool) : (d.setFlag f b).upd = d.upd := rfl
@[simp] theorem Dev.setFlag_sec (d : Dev) (f : Fld) (b : Bool) : (d.setFlag f b).sec = d.sec := rfl

/-! ### `bump` -/

@[simp] theorem Dev.bump_beat (d : Dev) (f : Fld) (n : Nat) : (d.bump f n).beat = d.beat := rfl
@[simp] theorem Dev.bump_edges (d : Dev) (f : Fld) (n : Nat) : (d.bump f n).edges = d.edges := rfl
@[simp] theorem Dev.bump_wins (d : Dev) (f : Fld) (n : Nat) : (d.bump f n).wins = d.wins := rfl
@[simp] theorem Dev.bump_raised (d : Dev) (f : Fld) (n : Nat) : (d.bump f n).raised = d.raised := rfl
@[simp] theorem Dev.bump_seen (d : Dev) (f : Fld) (n : Nat) : (d.bump f n).seen = d.seen := rfl
@[simp] theorem Dev.bump_marks (d : Dev) (f : Fld) (n : Nat) : (d.bump f n).marks = d.marks := rfl
@[simp] theorem Dev.bump_hwPend (d : Dev) (f : Fld) (n : Nat) : (d.bump f n).hwPend = d.hwPend := rfl
@[simp] theorem Dev.bump_seqPend (d : Dev) (f : Fld) (n : Nat) : (d.bump f n).seqPend = d.seqPend := rfl
@[simp] theorem Dev.bump_free (d : Dev) (f : Fld) (n : Nat) : (d.bump f n).free = d.free := rfl
@[simp] theorem Dev.bump_out (d : Dev) (f : Fld) (n : Nat) : (d.bump f n).out = d.out := rfl
@[simp] theorem Dev.bump_edge (d : Dev) (f : Fld) (n : Nat) : (d.bump f n).edge = d.edge := rfl
@[simp] theorem Dev.bump_ram (d : Dev) (f : Fld) (n : Nat) : (d.bump f n).ram = d.ram := rfl
@[simp] theorem Dev.bump_sync (d : Dev) (f : Fld) (n : Nat) : (d.bump f n).sync = d.sync := rfl
@[simp] theorem Dev.bump_stepPend (d : Dev) (f : Fld) (n : Nat) : (d.bump f n).stepPend = d.stepPend := rfl
@[simp] theorem Dev.bump_jumps (d : Dev) (f : Fld) (n : Nat) : (d.bump f n).jumps = d.jumps := rfl
@[simp] theorem Dev.bump_newEpoch (d : Dev) (f : Fld) (n : Nat) : (d.bump f n).newEpoch = d.newEpoch := rfl
@[simp] theorem Dev.bump_hot (d : Dev) (f : Fld) (n : Nat) : (d.bump f n).hot = d.hot := rfl
@[simp] theorem Dev.bump_slices (d : Dev) (f : Fld) (n : Nat) : (d.bump f n).slices = d.slices := rfl
@[simp] theorem Dev.bump_xpt (d : Dev) (f : Fld) (n : Nat) : (d.bump f n).xpt = d.xpt := rfl
@[simp] theorem Dev.bump_nvt (d : Dev) (f : Fld) (n : Nat) : (d.bump f n).nvt = d.nvt := rfl
@[simp] theorem Dev.bump_cal (d : Dev) (f : Fld) (n : Nat) : (d.bump f n).cal = d.cal := rfl
@[simp] theorem Dev.bump_mde (d : Dev) (f : Fld) (n : Nat) : (d.bump f n).mde = d.mde := rfl
@[simp] theorem Dev.bump_tph (d : Dev) (f : Fld) (n : Nat) : (d.bump f n).tph = d.tph := rfl
@[simp] theorem Dev.bump_key (d : Dev) (f : Fld) (n : Nat) : (d.bump f n).key = d.key := rfl
@[simp] theorem Dev.bump_lay (d : Dev) (f : Fld) (n : Nat) : (d.bump f n).lay = d.lay := rfl
@[simp] theorem Dev.bump_mdc (d : Dev) (f : Fld) (n : Nat) : (d.bump f n).mdc = d.mdc := rfl
@[simp] theorem Dev.bump_rd (d : Dev) (f : Fld) (n : Nat) : (d.bump f n).rd = d.rd := rfl
@[simp] theorem Dev.bump_drv (d : Dev) (f : Fld) (n : Nat) : (d.bump f n).drv = d.drv := rfl
@[simp] theorem Dev.bump_rep (d : Dev) (f : Fld) (n : Nat) : (d.bump f n).rep = d.rep := rfl
@[simp] theorem Dev.bump_cdx (d : Dev) (f : Fld) (n : Nat) : (d.bump f n).cdx = d.cdx := rfl
@[simp] theorem Dev.bump_fov (d : Dev) (f : Fld) (n : Nat) : (d.bump f n).fov = d.fov := rfl
@[simp] theorem Dev.bump_mem (d : Dev) (f : Fld) (n : Nat) : (d.bump f n).mem = d.mem := rfl
@[simp] theorem Dev.bump_fum (d : Dev) (f : Fld) (n : Nat) : (d.bump f n).fum = d.fum := rfl
@[simp] theorem Dev.bump_pmc (d : Dev) (f : Fld) (n : Nat) : (d.bump f n).pmc = d.pmc := rfl
@[simp] theorem Dev.bump_mbx (d : Dev) (f : Fld) (n : Nat) : (d.bump f n).mbx = d.mbx := rfl
@[simp] theorem Dev.bump_fis (d : Dev) (f : Fld) (n : Nat) : (d.bump f n).fis = d.fis := rfl
@[simp] theorem Dev.bump_upd (d : Dev) (f : Fld) (n : Nat) : (d.bump f n).upd = d.upd := rfl
@[simp] theorem Dev.bump_sec (d : Dev) (f : Fld) (n : Nat) : (d.bump f n).sec = d.sec := rfl

/-! ### `bumpSat` -/

@[simp] theorem Dev.bumpSat_beat (d : Dev) (f : Fld) (n : Nat) : (d.bumpSat f n).beat = d.beat := rfl
@[simp] theorem Dev.bumpSat_edges (d : Dev) (f : Fld) (n : Nat) : (d.bumpSat f n).edges = d.edges := rfl
@[simp] theorem Dev.bumpSat_wins (d : Dev) (f : Fld) (n : Nat) : (d.bumpSat f n).wins = d.wins := rfl
@[simp] theorem Dev.bumpSat_raised (d : Dev) (f : Fld) (n : Nat) : (d.bumpSat f n).raised = d.raised := rfl
@[simp] theorem Dev.bumpSat_seen (d : Dev) (f : Fld) (n : Nat) : (d.bumpSat f n).seen = d.seen := rfl
@[simp] theorem Dev.bumpSat_marks (d : Dev) (f : Fld) (n : Nat) : (d.bumpSat f n).marks = d.marks := rfl
@[simp] theorem Dev.bumpSat_hwPend (d : Dev) (f : Fld) (n : Nat) : (d.bumpSat f n).hwPend = d.hwPend := rfl
@[simp] theorem Dev.bumpSat_seqPend (d : Dev) (f : Fld) (n : Nat) : (d.bumpSat f n).seqPend = d.seqPend := rfl
@[simp] theorem Dev.bumpSat_free (d : Dev) (f : Fld) (n : Nat) : (d.bumpSat f n).free = d.free := rfl
@[simp] theorem Dev.bumpSat_out (d : Dev) (f : Fld) (n : Nat) : (d.bumpSat f n).out = d.out := rfl
@[simp] theorem Dev.bumpSat_edge (d : Dev) (f : Fld) (n : Nat) : (d.bumpSat f n).edge = d.edge := rfl
@[simp] theorem Dev.bumpSat_ram (d : Dev) (f : Fld) (n : Nat) : (d.bumpSat f n).ram = d.ram := rfl
@[simp] theorem Dev.bumpSat_sync (d : Dev) (f : Fld) (n : Nat) : (d.bumpSat f n).sync = d.sync := rfl
@[simp] theorem Dev.bumpSat_stepPend (d : Dev) (f : Fld) (n : Nat) : (d.bumpSat f n).stepPend = d.stepPend := rfl
@[simp] theorem Dev.bumpSat_jumps (d : Dev) (f : Fld) (n : Nat) : (d.bumpSat f n).jumps = d.jumps := rfl
@[simp] theorem Dev.bumpSat_newEpoch (d : Dev) (f : Fld) (n : Nat) : (d.bumpSat f n).newEpoch = d.newEpoch := rfl
@[simp] theorem Dev.bumpSat_hot (d : Dev) (f : Fld) (n : Nat) : (d.bumpSat f n).hot = d.hot := rfl
@[simp] theorem Dev.bumpSat_slices (d : Dev) (f : Fld) (n : Nat) : (d.bumpSat f n).slices = d.slices := rfl
@[simp] theorem Dev.bumpSat_xpt (d : Dev) (f : Fld) (n : Nat) : (d.bumpSat f n).xpt = d.xpt := rfl
@[simp] theorem Dev.bumpSat_nvt (d : Dev) (f : Fld) (n : Nat) : (d.bumpSat f n).nvt = d.nvt := rfl
@[simp] theorem Dev.bumpSat_cal (d : Dev) (f : Fld) (n : Nat) : (d.bumpSat f n).cal = d.cal := rfl
@[simp] theorem Dev.bumpSat_mde (d : Dev) (f : Fld) (n : Nat) : (d.bumpSat f n).mde = d.mde := rfl
@[simp] theorem Dev.bumpSat_tph (d : Dev) (f : Fld) (n : Nat) : (d.bumpSat f n).tph = d.tph := rfl
@[simp] theorem Dev.bumpSat_key (d : Dev) (f : Fld) (n : Nat) : (d.bumpSat f n).key = d.key := rfl
@[simp] theorem Dev.bumpSat_lay (d : Dev) (f : Fld) (n : Nat) : (d.bumpSat f n).lay = d.lay := rfl
@[simp] theorem Dev.bumpSat_mdc (d : Dev) (f : Fld) (n : Nat) : (d.bumpSat f n).mdc = d.mdc := rfl
@[simp] theorem Dev.bumpSat_rd (d : Dev) (f : Fld) (n : Nat) : (d.bumpSat f n).rd = d.rd := rfl
@[simp] theorem Dev.bumpSat_drv (d : Dev) (f : Fld) (n : Nat) : (d.bumpSat f n).drv = d.drv := rfl
@[simp] theorem Dev.bumpSat_rep (d : Dev) (f : Fld) (n : Nat) : (d.bumpSat f n).rep = d.rep := rfl
@[simp] theorem Dev.bumpSat_cdx (d : Dev) (f : Fld) (n : Nat) : (d.bumpSat f n).cdx = d.cdx := rfl
@[simp] theorem Dev.bumpSat_fov (d : Dev) (f : Fld) (n : Nat) : (d.bumpSat f n).fov = d.fov := rfl
@[simp] theorem Dev.bumpSat_mem (d : Dev) (f : Fld) (n : Nat) : (d.bumpSat f n).mem = d.mem := rfl
@[simp] theorem Dev.bumpSat_fum (d : Dev) (f : Fld) (n : Nat) : (d.bumpSat f n).fum = d.fum := rfl
@[simp] theorem Dev.bumpSat_pmc (d : Dev) (f : Fld) (n : Nat) : (d.bumpSat f n).pmc = d.pmc := rfl
@[simp] theorem Dev.bumpSat_mbx (d : Dev) (f : Fld) (n : Nat) : (d.bumpSat f n).mbx = d.mbx := rfl
@[simp] theorem Dev.bumpSat_fis (d : Dev) (f : Fld) (n : Nat) : (d.bumpSat f n).fis = d.fis := rfl
@[simp] theorem Dev.bumpSat_upd (d : Dev) (f : Fld) (n : Nat) : (d.bumpSat f n).upd = d.upd := rfl
@[simp] theorem Dev.bumpSat_sec (d : Dev) (f : Fld) (n : Nat) : (d.bumpSat f n).sec = d.sec := rfl

/-! ### `raise` -/

@[simp] theorem Dev.raise_beat (d : Dev) (src p0 p1 p2 : Nat) : (d.raise src p0 p1 p2).beat = d.beat := rfl
@[simp] theorem Dev.raise_edges (d : Dev) (src p0 p1 p2 : Nat) : (d.raise src p0 p1 p2).edges = d.edges := rfl
@[simp] theorem Dev.raise_fields (d : Dev) (src p0 p1 p2 : Nat) : (d.raise src p0 p1 p2).fields = d.fields := rfl
@[simp] theorem Dev.raise_wins (d : Dev) (src p0 p1 p2 : Nat) : (d.raise src p0 p1 p2).wins = d.wins := rfl
@[simp] theorem Dev.raise_seen (d : Dev) (src p0 p1 p2 : Nat) : (d.raise src p0 p1 p2).seen = d.seen := rfl
@[simp] theorem Dev.raise_marks (d : Dev) (src p0 p1 p2 : Nat) : (d.raise src p0 p1 p2).marks = d.marks := rfl
@[simp] theorem Dev.raise_hwPend (d : Dev) (src p0 p1 p2 : Nat) : (d.raise src p0 p1 p2).hwPend = d.hwPend := rfl
@[simp] theorem Dev.raise_seqPend (d : Dev) (src p0 p1 p2 : Nat) : (d.raise src p0 p1 p2).seqPend = d.seqPend := rfl
@[simp] theorem Dev.raise_free (d : Dev) (src p0 p1 p2 : Nat) : (d.raise src p0 p1 p2).free = d.free := rfl
@[simp] theorem Dev.raise_out (d : Dev) (src p0 p1 p2 : Nat) : (d.raise src p0 p1 p2).out = d.out := rfl
@[simp] theorem Dev.raise_edge (d : Dev) (src p0 p1 p2 : Nat) : (d.raise src p0 p1 p2).edge = d.edge := rfl
@[simp] theorem Dev.raise_ram (d : Dev) (src p0 p1 p2 : Nat) : (d.raise src p0 p1 p2).ram = d.ram := rfl
@[simp] theorem Dev.raise_sync (d : Dev) (src p0 p1 p2 : Nat) : (d.raise src p0 p1 p2).sync = d.sync := rfl
@[simp] theorem Dev.raise_stepPend (d : Dev) (src p0 p1 p2 : Nat) : (d.raise src p0 p1 p2).stepPend = d.stepPend := rfl
@[simp] theorem Dev.raise_jumps (d : Dev) (src p0 p1 p2 : Nat) : (d.raise src p0 p1 p2).jumps = d.jumps := rfl
@[simp] theorem Dev.raise_newEpoch (d : Dev) (src p0 p1 p2 : Nat) : (d.raise src p0 p1 p2).newEpoch = d.newEpoch := rfl
@[simp] theorem Dev.raise_hot (d : Dev) (src p0 p1 p2 : Nat) : (d.raise src p0 p1 p2).hot = d.hot := rfl
@[simp] theorem Dev.raise_slices (d : Dev) (src p0 p1 p2 : Nat) : (d.raise src p0 p1 p2).slices = d.slices := rfl
@[simp] theorem Dev.raise_xpt (d : Dev) (src p0 p1 p2 : Nat) : (d.raise src p0 p1 p2).xpt = d.xpt := rfl
@[simp] theorem Dev.raise_nvt (d : Dev) (src p0 p1 p2 : Nat) : (d.raise src p0 p1 p2).nvt = d.nvt := rfl
@[simp] theorem Dev.raise_cal (d : Dev) (src p0 p1 p2 : Nat) : (d.raise src p0 p1 p2).cal = d.cal := rfl
@[simp] theorem Dev.raise_mde (d : Dev) (src p0 p1 p2 : Nat) : (d.raise src p0 p1 p2).mde = d.mde := rfl
@[simp] theorem Dev.raise_tph (d : Dev) (src p0 p1 p2 : Nat) : (d.raise src p0 p1 p2).tph = d.tph := rfl
@[simp] theorem Dev.raise_key (d : Dev) (src p0 p1 p2 : Nat) : (d.raise src p0 p1 p2).key = d.key := rfl
@[simp] theorem Dev.raise_lay (d : Dev) (src p0 p1 p2 : Nat) : (d.raise src p0 p1 p2).lay = d.lay := rfl
@[simp] theorem Dev.raise_mdc (d : Dev) (src p0 p1 p2 : Nat) : (d.raise src p0 p1 p2).mdc = d.mdc := rfl
@[simp] theorem Dev.raise_rd (d : Dev) (src p0 p1 p2 : Nat) : (d.raise src p0 p1 p2).rd = d.rd := rfl
@[simp] theorem Dev.raise_drv (d : Dev) (src p0 p1 p2 : Nat) : (d.raise src p0 p1 p2).drv = d.drv := rfl
@[simp] theorem Dev.raise_rep (d : Dev) (src p0 p1 p2 : Nat) : (d.raise src p0 p1 p2).rep = d.rep := rfl
@[simp] theorem Dev.raise_cdx (d : Dev) (src p0 p1 p2 : Nat) : (d.raise src p0 p1 p2).cdx = d.cdx := rfl
@[simp] theorem Dev.raise_fov (d : Dev) (src p0 p1 p2 : Nat) : (d.raise src p0 p1 p2).fov = d.fov := rfl
@[simp] theorem Dev.raise_mem (d : Dev) (src p0 p1 p2 : Nat) : (d.raise src p0 p1 p2).mem = d.mem := rfl
@[simp] theorem Dev.raise_fum (d : Dev) (src p0 p1 p2 : Nat) : (d.raise src p0 p1 p2).fum = d.fum := rfl
@[simp] theorem Dev.raise_pmc (d : Dev) (src p0 p1 p2 : Nat) : (d.raise src p0 p1 p2).pmc = d.pmc := rfl
@[simp] theorem Dev.raise_mbx (d : Dev) (src p0 p1 p2 : Nat) : (d.raise src p0 p1 p2).mbx = d.mbx := rfl
@[simp] theorem Dev.raise_fis (d : Dev) (src p0 p1 p2 : Nat) : (d.raise src p0 p1 p2).fis = d.fis := rfl
@[simp] theorem Dev.raise_upd (d : Dev) (src p0 p1 p2 : Nat) : (d.raise src p0 p1 p2).upd = d.upd := rfl
@[simp] theorem Dev.raise_sec (d : Dev) (src p0 p1 p2 : Nat) : (d.raise src p0 p1 p2).sec = d.sec := rfl
@[simp] theorem Dev.raise_fld (d : Dev) (src p0 p1 p2 : Nat) (g : Fld) : (d.raise src p0 p1 p2).fld g = d.fld g := by simp [Dev.fld]
@[simp] theorem Dev.raise_flag (d : Dev) (src p0 p1 p2 : Nat) (g : Fld) : (d.raise src p0 p1 p2).flag g = d.flag g := by simp [Dev.flag]

/-! ### `raiseOnce` -/

@[simp] theorem Dev.raiseOnce_beat (d : Dev) (key src p0 p1 p2 : Nat) : (d.raiseOnce key src p0 p1 p2).beat = d.beat := by unfold Dev.raiseOnce; split <;> rfl
@[simp] theorem Dev.raiseOnce_edges (d : Dev) (key src p0 p1 p2 : Nat) : (d.raiseOnce key src p0 p1 p2).edges = d.edges := by unfold Dev.raiseOnce; split <;> rfl
@[simp] theorem Dev.raiseOnce_fields (d : Dev) (key src p0 p1 p2 : Nat) : (d.raiseOnce key src p0 p1 p2).fields = d.fields := by unfold Dev.raiseOnce; split <;> rfl
@[simp] theorem Dev.raiseOnce_wins (d : Dev) (key src p0 p1 p2 : Nat) : (d.raiseOnce key src p0 p1 p2).wins = d.wins := by unfold Dev.raiseOnce; split <;> rfl
@[simp] theorem Dev.raiseOnce_marks (d : Dev) (key src p0 p1 p2 : Nat) : (d.raiseOnce key src p0 p1 p2).marks = d.marks := by unfold Dev.raiseOnce; split <;> rfl
@[simp] theorem Dev.raiseOnce_hwPend (d : Dev) (key src p0 p1 p2 : Nat) : (d.raiseOnce key src p0 p1 p2).hwPend = d.hwPend := by unfold Dev.raiseOnce; split <;> rfl
@[simp] theorem Dev.raiseOnce_seqPend (d : Dev) (key src p0 p1 p2 : Nat) : (d.raiseOnce key src p0 p1 p2).seqPend = d.seqPend := by unfold Dev.raiseOnce; split <;> rfl
@[simp] theorem Dev.raiseOnce_free (d : Dev) (key src p0 p1 p2 : Nat) : (d.raiseOnce key src p0 p1 p2).free = d.free := by unfold Dev.raiseOnce; split <;> rfl
@[simp] theorem Dev.raiseOnce_out (d : Dev) (key src p0 p1 p2 : Nat) : (d.raiseOnce key src p0 p1 p2).out = d.out := by unfold Dev.raiseOnce; split <;> rfl
@[simp] theorem Dev.raiseOnce_edge (d : Dev) (key src p0 p1 p2 : Nat) : (d.raiseOnce key src p0 p1 p2).edge = d.edge := by unfold Dev.raiseOnce; split <;> rfl
@[simp] theorem Dev.raiseOnce_ram (d : Dev) (key src p0 p1 p2 : Nat) : (d.raiseOnce key src p0 p1 p2).ram = d.ram := by unfold Dev.raiseOnce; split <;> rfl
@[simp] theorem Dev.raiseOnce_sync (d : Dev) (key src p0 p1 p2 : Nat) : (d.raiseOnce key src p0 p1 p2).sync = d.sync := by unfold Dev.raiseOnce; split <;> rfl
@[simp] theorem Dev.raiseOnce_stepPend (d : Dev) (key src p0 p1 p2 : Nat) : (d.raiseOnce key src p0 p1 p2).stepPend = d.stepPend := by unfold Dev.raiseOnce; split <;> rfl
@[simp] theorem Dev.raiseOnce_jumps (d : Dev) (key src p0 p1 p2 : Nat) : (d.raiseOnce key src p0 p1 p2).jumps = d.jumps := by unfold Dev.raiseOnce; split <;> rfl
@[simp] theorem Dev.raiseOnce_newEpoch (d : Dev) (key src p0 p1 p2 : Nat) : (d.raiseOnce key src p0 p1 p2).newEpoch = d.newEpoch := by unfold Dev.raiseOnce; split <;> rfl
@[simp] theorem Dev.raiseOnce_hot (d : Dev) (key src p0 p1 p2 : Nat) : (d.raiseOnce key src p0 p1 p2).hot = d.hot := by unfold Dev.raiseOnce; split <;> rfl
@[simp] theorem Dev.raiseOnce_slices (d : Dev) (key src p0 p1 p2 : Nat) : (d.raiseOnce key src p0 p1 p2).slices = d.slices := by unfold Dev.raiseOnce; split <;> rfl
@[simp] theorem Dev.raiseOnce_xpt (d : Dev) (key src p0 p1 p2 : Nat) : (d.raiseOnce key src p0 p1 p2).xpt = d.xpt := by unfold Dev.raiseOnce; split <;> rfl
@[simp] theorem Dev.raiseOnce_nvt (d : Dev) (key src p0 p1 p2 : Nat) : (d.raiseOnce key src p0 p1 p2).nvt = d.nvt := by unfold Dev.raiseOnce; split <;> rfl
@[simp] theorem Dev.raiseOnce_cal (d : Dev) (key src p0 p1 p2 : Nat) : (d.raiseOnce key src p0 p1 p2).cal = d.cal := by unfold Dev.raiseOnce; split <;> rfl
@[simp] theorem Dev.raiseOnce_mde (d : Dev) (key src p0 p1 p2 : Nat) : (d.raiseOnce key src p0 p1 p2).mde = d.mde := by unfold Dev.raiseOnce; split <;> rfl
@[simp] theorem Dev.raiseOnce_tph (d : Dev) (key src p0 p1 p2 : Nat) : (d.raiseOnce key src p0 p1 p2).tph = d.tph := by unfold Dev.raiseOnce; split <;> rfl
@[simp] theorem Dev.raiseOnce_key (d : Dev) (key src p0 p1 p2 : Nat) : (d.raiseOnce key src p0 p1 p2).key = d.key := by unfold Dev.raiseOnce; split <;> rfl
@[simp] theorem Dev.raiseOnce_lay (d : Dev) (key src p0 p1 p2 : Nat) : (d.raiseOnce key src p0 p1 p2).lay = d.lay := by unfold Dev.raiseOnce; split <;> rfl
@[simp] theorem Dev.raiseOnce_mdc (d : Dev) (key src p0 p1 p2 : Nat) : (d.raiseOnce key src p0 p1 p2).mdc = d.mdc := by unfold Dev.raiseOnce; split <;> rfl
@[simp] theorem Dev.raiseOnce_rd (d : Dev) (key src p0 p1 p2 : Nat) : (d.raiseOnce key src p0 p1 p2).rd = d.rd := by unfold Dev.raiseOnce; split <;> rfl
@[simp] theorem Dev.raiseOnce_drv (d : Dev) (key src p0 p1 p2 : Nat) : (d.raiseOnce key src p0 p1 p2).drv = d.drv := by unfold Dev.raiseOnce; split <;> rfl
@[simp] theorem Dev.raiseOnce_rep (d : Dev) (key src p0 p1 p2 : Nat) : (d.raiseOnce key src p0 p1 p2).rep = d.rep := by unfold Dev.raiseOnce; split <;> rfl
@[simp] theorem Dev.raiseOnce_cdx (d : Dev) (key src p0 p1 p2 : Nat) : (d.raiseOnce key src p0 p1 p2).cdx = d.cdx := by unfold Dev.raiseOnce; split <;> rfl
@[simp] theorem Dev.raiseOnce_fov (d : Dev) (key src p0 p1 p2 : Nat) : (d.raiseOnce key src p0 p1 p2).fov = d.fov := by unfold Dev.raiseOnce; split <;> rfl
@[simp] theorem Dev.raiseOnce_mem (d : Dev) (key src p0 p1 p2 : Nat) : (d.raiseOnce key src p0 p1 p2).mem = d.mem := by unfold Dev.raiseOnce; split <;> rfl
@[simp] theorem Dev.raiseOnce_fum (d : Dev) (key src p0 p1 p2 : Nat) : (d.raiseOnce key src p0 p1 p2).fum = d.fum := by unfold Dev.raiseOnce; split <;> rfl
@[simp] theorem Dev.raiseOnce_pmc (d : Dev) (key src p0 p1 p2 : Nat) : (d.raiseOnce key src p0 p1 p2).pmc = d.pmc := by unfold Dev.raiseOnce; split <;> rfl
@[simp] theorem Dev.raiseOnce_mbx (d : Dev) (key src p0 p1 p2 : Nat) : (d.raiseOnce key src p0 p1 p2).mbx = d.mbx := by unfold Dev.raiseOnce; split <;> rfl
@[simp] theorem Dev.raiseOnce_fis (d : Dev) (key src p0 p1 p2 : Nat) : (d.raiseOnce key src p0 p1 p2).fis = d.fis := by unfold Dev.raiseOnce; split <;> rfl
@[simp] theorem Dev.raiseOnce_upd (d : Dev) (key src p0 p1 p2 : Nat) : (d.raiseOnce key src p0 p1 p2).upd = d.upd := by unfold Dev.raiseOnce; split <;> rfl
@[simp] theorem Dev.raiseOnce_sec (d : Dev) (key src p0 p1 p2 : Nat) : (d.raiseOnce key src p0 p1 p2).sec = d.sec := by unfold Dev.raiseOnce; split <;> rfl
@[simp] theorem Dev.raiseOnce_fld (d : Dev) (key src p0 p1 p2 : Nat) (g : Fld) : (d.raiseOnce key src p0 p1 p2).fld g = d.fld g := by simp [Dev.fld]
@[simp] theorem Dev.raiseOnce_flag (d : Dev) (key src p0 p1 p2 : Nat) (g : Fld) : (d.raiseOnce key src p0 p1 p2).flag g = d.flag g := by simp [Dev.flag]

/-! ### `emit` -/

@[simp] theorem Dev.emit_beat (d : Dev) (o : Out) : (d.emit o).beat = d.beat := by unfold Dev.emit; split <;> (try split) <;> rfl
@[simp] theorem Dev.emit_edges (d : Dev) (o : Out) : (d.emit o).edges = d.edges := by unfold Dev.emit; split <;> (try split) <;> rfl
@[simp] theorem Dev.emit_fields (d : Dev) (o : Out) : (d.emit o).fields = d.fields := by unfold Dev.emit; split <;> (try split) <;> rfl
@[simp] theorem Dev.emit_wins (d : Dev) (o : Out) : (d.emit o).wins = d.wins := by unfold Dev.emit; split <;> (try split) <;> rfl
@[simp] theorem Dev.emit_raised (d : Dev) (o : Out) : (d.emit o).raised = d.raised := by unfold Dev.emit; split <;> (try split) <;> rfl
@[simp] theorem Dev.emit_seen (d : Dev) (o : Out) : (d.emit o).seen = d.seen := by unfold Dev.emit; split <;> (try split) <;> rfl
@[simp] theorem Dev.emit_marks (d : Dev) (o : Out) : (d.emit o).marks = d.marks := by unfold Dev.emit; split <;> (try split) <;> rfl
@[simp] theorem Dev.emit_hwPend (d : Dev) (o : Out) : (d.emit o).hwPend = d.hwPend := by unfold Dev.emit; split <;> (try split) <;> rfl
@[simp] theorem Dev.emit_seqPend (d : Dev) (o : Out) : (d.emit o).seqPend = d.seqPend := by unfold Dev.emit; split <;> (try split) <;> rfl
@[simp] theorem Dev.emit_free (d : Dev) (o : Out) : (d.emit o).free = d.free := by unfold Dev.emit; split <;> (try split) <;> rfl
@[simp] theorem Dev.emit_edge (d : Dev) (o : Out) : (d.emit o).edge = d.edge := by unfold Dev.emit; split <;> (try split) <;> rfl
@[simp] theorem Dev.emit_ram (d : Dev) (o : Out) : (d.emit o).ram = d.ram := by unfold Dev.emit; split <;> (try split) <;> rfl
@[simp] theorem Dev.emit_sync (d : Dev) (o : Out) : (d.emit o).sync = d.sync := by unfold Dev.emit; split <;> (try split) <;> rfl
@[simp] theorem Dev.emit_stepPend (d : Dev) (o : Out) : (d.emit o).stepPend = d.stepPend := by unfold Dev.emit; split <;> (try split) <;> rfl
@[simp] theorem Dev.emit_jumps (d : Dev) (o : Out) : (d.emit o).jumps = d.jumps := by unfold Dev.emit; split <;> (try split) <;> rfl
@[simp] theorem Dev.emit_newEpoch (d : Dev) (o : Out) : (d.emit o).newEpoch = d.newEpoch := by unfold Dev.emit; split <;> (try split) <;> rfl
@[simp] theorem Dev.emit_hot (d : Dev) (o : Out) : (d.emit o).hot = d.hot := by unfold Dev.emit; split <;> (try split) <;> rfl
@[simp] theorem Dev.emit_slices (d : Dev) (o : Out) : (d.emit o).slices = d.slices := by unfold Dev.emit; split <;> (try split) <;> rfl
@[simp] theorem Dev.emit_xpt (d : Dev) (o : Out) : (d.emit o).xpt = d.xpt := by unfold Dev.emit; split <;> (try split) <;> rfl
@[simp] theorem Dev.emit_nvt (d : Dev) (o : Out) : (d.emit o).nvt = d.nvt := by unfold Dev.emit; split <;> (try split) <;> rfl
@[simp] theorem Dev.emit_cal (d : Dev) (o : Out) : (d.emit o).cal = d.cal := by unfold Dev.emit; split <;> (try split) <;> rfl
@[simp] theorem Dev.emit_mde (d : Dev) (o : Out) : (d.emit o).mde = d.mde := by unfold Dev.emit; split <;> (try split) <;> rfl
@[simp] theorem Dev.emit_tph (d : Dev) (o : Out) : (d.emit o).tph = d.tph := by unfold Dev.emit; split <;> (try split) <;> rfl
@[simp] theorem Dev.emit_key (d : Dev) (o : Out) : (d.emit o).key = d.key := by unfold Dev.emit; split <;> (try split) <;> rfl
@[simp] theorem Dev.emit_lay (d : Dev) (o : Out) : (d.emit o).lay = d.lay := by unfold Dev.emit; split <;> (try split) <;> rfl
@[simp] theorem Dev.emit_mdc (d : Dev) (o : Out) : (d.emit o).mdc = d.mdc := by unfold Dev.emit; split <;> (try split) <;> rfl
@[simp] theorem Dev.emit_rd (d : Dev) (o : Out) : (d.emit o).rd = d.rd := by unfold Dev.emit; split <;> (try split) <;> rfl
@[simp] theorem Dev.emit_drv (d : Dev) (o : Out) : (d.emit o).drv = d.drv := by unfold Dev.emit; split <;> (try split) <;> rfl
@[simp] theorem Dev.emit_rep (d : Dev) (o : Out) : (d.emit o).rep = d.rep := by unfold Dev.emit; split <;> (try split) <;> rfl
@[simp] theorem Dev.emit_fov (d : Dev) (o : Out) : (d.emit o).fov = d.fov := by unfold Dev.emit; split <;> (try split) <;> rfl
@[simp] theorem Dev.emit_mem (d : Dev) (o : Out) : (d.emit o).mem = d.mem := by unfold Dev.emit; split <;> (try split) <;> rfl
@[simp] theorem Dev.emit_fum (d : Dev) (o : Out) : (d.emit o).fum = d.fum := by unfold Dev.emit; split <;> (try split) <;> rfl
@[simp] theorem Dev.emit_pmc (d : Dev) (o : Out) : (d.emit o).pmc = d.pmc := by unfold Dev.emit; split <;> (try split) <;> rfl
@[simp] theorem Dev.emit_mbx (d : Dev) (o : Out) : (d.emit o).mbx = d.mbx := by unfold Dev.emit; split <;> (try split) <;> rfl
@[simp] theorem Dev.emit_fis (d : Dev) (o : Out) : (d.emit o).fis = d.fis := by unfold Dev.emit; split <;> (try split) <;> rfl
@[simp] theorem Dev.emit_upd (d : Dev) (o : Out) : (d.emit o).upd = d.upd := by unfold Dev.emit; split <;> (try split) <;> rfl
@[simp] theorem Dev.emit_sec (d : Dev) (o : Out) : (d.emit o).sec = d.sec := by unfold Dev.emit; split <;> (try split) <;> rfl
@[simp] theorem Dev.emit_fld (d : Dev) (o : Out) (g : Fld) : (d.emit o).fld g = d.fld g := by simp [Dev.fld]
@[simp] theorem Dev.emit_flag (d : Dev) (o : Out) (g : Fld) : (d.emit o).flag g = d.flag g := by simp [Dev.flag]

/-! ### `arm` -/

@[simp] theorem Dev.arm_beat (d : Dev) (k : Nat) : (d.arm k).beat = d.beat := rfl
@[simp] theorem Dev.arm_edges (d : Dev) (k : Nat) : (d.arm k).edges = d.edges := rfl
@[simp] theorem Dev.arm_fields (d : Dev) (k : Nat) : (d.arm k).fields = d.fields := rfl
@[simp] theorem Dev.arm_wins (d : Dev) (k : Nat) : (d.arm k).wins = d.wins := rfl
@[simp] theorem Dev.arm_raised (d : Dev) (k : Nat) : (d.arm k).raised = d.raised := rfl
@[simp] theorem Dev.arm_seen (d : Dev) (k : Nat) : (d.arm k).seen = d.seen := rfl
@[simp] theorem Dev.arm_hwPend (d : Dev) (k : Nat) : (d.arm k).hwPend = d.hwPend := rfl
@[simp] theorem Dev.arm_seqPend (d : Dev) (k : Nat) : (d.arm k).seqPend = d.seqPend := rfl
@[simp] theorem Dev.arm_free (d : Dev) (k : Nat) : (d.arm k).free = d.free := rfl
@[simp] theorem Dev.arm_out (d : Dev) (k : Nat) : (d.arm k).out = d.out := rfl
@[simp] theorem Dev.arm_edge (d : Dev) (k : Nat) : (d.arm k).edge = d.edge := rfl
@[simp] theorem Dev.arm_ram (d : Dev) (k : Nat) : (d.arm k).ram = d.ram := rfl
@[simp] theorem Dev.arm_sync (d : Dev) (k : Nat) : (d.arm k).sync = d.sync := rfl
@[simp] theorem Dev.arm_stepPend (d : Dev) (k : Nat) : (d.arm k).stepPend = d.stepPend := rfl
@[simp] theorem Dev.arm_jumps (d : Dev) (k : Nat) : (d.arm k).jumps = d.jumps := rfl
@[simp] theorem Dev.arm_newEpoch (d : Dev) (k : Nat) : (d.arm k).newEpoch = d.newEpoch := rfl
@[simp] theorem Dev.arm_hot (d : Dev) (k : Nat) : (d.arm k).hot = d.hot := rfl
@[simp] theorem Dev.arm_slices (d : Dev) (k : Nat) : (d.arm k).slices = d.slices := rfl
@[simp] theorem Dev.arm_xpt (d : Dev) (k : Nat) : (d.arm k).xpt = d.xpt := rfl
@[simp] theorem Dev.arm_nvt (d : Dev) (k : Nat) : (d.arm k).nvt = d.nvt := rfl
@[simp] theorem Dev.arm_cal (d : Dev) (k : Nat) : (d.arm k).cal = d.cal := rfl
@[simp] theorem Dev.arm_mde (d : Dev) (k : Nat) : (d.arm k).mde = d.mde := rfl
@[simp] theorem Dev.arm_tph (d : Dev) (k : Nat) : (d.arm k).tph = d.tph := rfl
@[simp] theorem Dev.arm_key (d : Dev) (k : Nat) : (d.arm k).key = d.key := rfl
@[simp] theorem Dev.arm_lay (d : Dev) (k : Nat) : (d.arm k).lay = d.lay := rfl
@[simp] theorem Dev.arm_mdc (d : Dev) (k : Nat) : (d.arm k).mdc = d.mdc := rfl
@[simp] theorem Dev.arm_rd (d : Dev) (k : Nat) : (d.arm k).rd = d.rd := rfl
@[simp] theorem Dev.arm_drv (d : Dev) (k : Nat) : (d.arm k).drv = d.drv := rfl
@[simp] theorem Dev.arm_rep (d : Dev) (k : Nat) : (d.arm k).rep = d.rep := rfl
@[simp] theorem Dev.arm_cdx (d : Dev) (k : Nat) : (d.arm k).cdx = d.cdx := rfl
@[simp] theorem Dev.arm_fov (d : Dev) (k : Nat) : (d.arm k).fov = d.fov := rfl
@[simp] theorem Dev.arm_mem (d : Dev) (k : Nat) : (d.arm k).mem = d.mem := rfl
@[simp] theorem Dev.arm_fum (d : Dev) (k : Nat) : (d.arm k).fum = d.fum := rfl
@[simp] theorem Dev.arm_pmc (d : Dev) (k : Nat) : (d.arm k).pmc = d.pmc := rfl
@[simp] theorem Dev.arm_mbx (d : Dev) (k : Nat) : (d.arm k).mbx = d.mbx := rfl
@[simp] theorem Dev.arm_fis (d : Dev) (k : Nat) : (d.arm k).fis = d.fis := rfl
@[simp] theorem Dev.arm_upd (d : Dev) (k : Nat) : (d.arm k).upd = d.upd := rfl
@[simp] theorem Dev.arm_sec (d : Dev) (k : Nat) : (d.arm k).sec = d.sec := rfl
@[simp] theorem Dev.arm_fld (d : Dev) (k : Nat) (g : Fld) : (d.arm k).fld g = d.fld g := by simp [Dev.fld]
@[simp] theorem Dev.arm_flag (d : Dev) (k : Nat) (g : Fld) : (d.arm k).flag g = d.flag g := by simp [Dev.flag]

/-! ### `disarm` -/

@[simp] theorem Dev.disarm_beat (d : Dev) (k : Nat) : (d.disarm k).beat = d.beat := rfl
@[simp] theorem Dev.disarm_edges (d : Dev) (k : Nat) : (d.disarm k).edges = d.edges := rfl
@[simp] theorem Dev.disarm_fields (d : Dev) (k : Nat) : (d.disarm k).fields = d.fields := rfl
@[simp] theorem Dev.disarm_wins (d : Dev) (k : Nat) : (d.disarm k).wins = d.wins := rfl
@[simp] theorem Dev.disarm_raised (d : Dev) (k : Nat) : (d.disarm k).raised = d.raised := rfl
@[simp] theorem Dev.disarm_seen (d : Dev) (k : Nat) : (d.disarm k).seen = d.seen := rfl
@[simp] theorem Dev.disarm_hwPend (d : Dev) (k : Nat) : (d.disarm k).hwPend = d.hwPend := rfl
@[simp] theorem Dev.disarm_seqPend (d : Dev) (k : Nat) : (d.disarm k).seqPend = d.seqPend := rfl
@[simp] theorem Dev.disarm_free (d : Dev) (k : Nat) : (d.disarm k).free = d.free := rfl
@[simp] theorem Dev.disarm_out (d : Dev) (k : Nat) : (d.disarm k).out = d.out := rfl
@[simp] theorem Dev.disarm_edge (d : Dev) (k : Nat) : (d.disarm k).edge = d.edge := rfl
@[simp] theorem Dev.disarm_ram (d : Dev) (k : Nat) : (d.disarm k).ram = d.ram := rfl
@[simp] theorem Dev.disarm_sync (d : Dev) (k : Nat) : (d.disarm k).sync = d.sync := rfl
@[simp] theorem Dev.disarm_stepPend (d : Dev) (k : Nat) : (d.disarm k).stepPend = d.stepPend := rfl
@[simp] theorem Dev.disarm_jumps (d : Dev) (k : Nat) : (d.disarm k).jumps = d.jumps := rfl
@[simp] theorem Dev.disarm_newEpoch (d : Dev) (k : Nat) : (d.disarm k).newEpoch = d.newEpoch := rfl
@[simp] theorem Dev.disarm_hot (d : Dev) (k : Nat) : (d.disarm k).hot = d.hot := rfl
@[simp] theorem Dev.disarm_slices (d : Dev) (k : Nat) : (d.disarm k).slices = d.slices := rfl
@[simp] theorem Dev.disarm_xpt (d : Dev) (k : Nat) : (d.disarm k).xpt = d.xpt := rfl
@[simp] theorem Dev.disarm_nvt (d : Dev) (k : Nat) : (d.disarm k).nvt = d.nvt := rfl
@[simp] theorem Dev.disarm_cal (d : Dev) (k : Nat) : (d.disarm k).cal = d.cal := rfl
@[simp] theorem Dev.disarm_mde (d : Dev) (k : Nat) : (d.disarm k).mde = d.mde := rfl
@[simp] theorem Dev.disarm_tph (d : Dev) (k : Nat) : (d.disarm k).tph = d.tph := rfl
@[simp] theorem Dev.disarm_key (d : Dev) (k : Nat) : (d.disarm k).key = d.key := rfl
@[simp] theorem Dev.disarm_lay (d : Dev) (k : Nat) : (d.disarm k).lay = d.lay := rfl
@[simp] theorem Dev.disarm_mdc (d : Dev) (k : Nat) : (d.disarm k).mdc = d.mdc := rfl
@[simp] theorem Dev.disarm_rd (d : Dev) (k : Nat) : (d.disarm k).rd = d.rd := rfl
@[simp] theorem Dev.disarm_drv (d : Dev) (k : Nat) : (d.disarm k).drv = d.drv := rfl
@[simp] theorem Dev.disarm_rep (d : Dev) (k : Nat) : (d.disarm k).rep = d.rep := rfl
@[simp] theorem Dev.disarm_cdx (d : Dev) (k : Nat) : (d.disarm k).cdx = d.cdx := rfl
@[simp] theorem Dev.disarm_fov (d : Dev) (k : Nat) : (d.disarm k).fov = d.fov := rfl
@[simp] theorem Dev.disarm_mem (d : Dev) (k : Nat) : (d.disarm k).mem = d.mem := rfl
@[simp] theorem Dev.disarm_fum (d : Dev) (k : Nat) : (d.disarm k).fum = d.fum := rfl
@[simp] theorem Dev.disarm_pmc (d : Dev) (k : Nat) : (d.disarm k).pmc = d.pmc := rfl
@[simp] theorem Dev.disarm_mbx (d : Dev) (k : Nat) : (d.disarm k).mbx = d.mbx := rfl
@[simp] theorem Dev.disarm_fis (d : Dev) (k : Nat) : (d.disarm k).fis = d.fis := rfl
@[simp] theorem Dev.disarm_upd (d : Dev) (k : Nat) : (d.disarm k).upd = d.upd := rfl
@[simp] theorem Dev.disarm_sec (d : Dev) (k : Nat) : (d.disarm k).sec = d.sec := rfl
@[simp] theorem Dev.disarm_fld (d : Dev) (k : Nat) (g : Fld) : (d.disarm k).fld g = d.fld g := by simp [Dev.fld]
@[simp] theorem Dev.disarm_flag (d : Dev) (k : Nat) (g : Fld) : (d.disarm k).flag g = d.flag g := by simp [Dev.flag]

/-! ### `updSlice` -/

@[simp] theorem Dev.updSlice_beat (d : Dev) (s : Nat) (f : Slice → Slice) : (d.updSlice s f).beat = d.beat := rfl
@[simp] theorem Dev.updSlice_edges (d : Dev) (s : Nat) (f : Slice → Slice) : (d.updSlice s f).edges = d.edges := rfl
@[simp] theorem Dev.updSlice_fields (d : Dev) (s : Nat) (f : Slice → Slice) : (d.updSlice s f).fields = d.fields := rfl
@[simp] theorem Dev.updSlice_wins (d : Dev) (s : Nat) (f : Slice → Slice) : (d.updSlice s f).wins = d.wins := rfl
@[simp] theorem Dev.updSlice_raised (d : Dev) (s : Nat) (f : Slice → Slice) : (d.updSlice s f).raised = d.raised := rfl
@[simp] theorem Dev.updSlice_seen (d : Dev) (s : Nat) (f : Slice → Slice) : (d.updSlice s f).seen = d.seen := rfl
@[simp] theorem Dev.updSlice_marks (d : Dev) (s : Nat) (f : Slice → Slice) : (d.updSlice s f).marks = d.marks := rfl
@[simp] theorem Dev.updSlice_hwPend (d : Dev) (s : Nat) (f : Slice → Slice) : (d.updSlice s f).hwPend = d.hwPend := rfl
@[simp] theorem Dev.updSlice_seqPend (d : Dev) (s : Nat) (f : Slice → Slice) : (d.updSlice s f).seqPend = d.seqPend := rfl
@[simp] theorem Dev.updSlice_free (d : Dev) (s : Nat) (f : Slice → Slice) : (d.updSlice s f).free = d.free := rfl
@[simp] theorem Dev.updSlice_out (d : Dev) (s : Nat) (f : Slice → Slice) : (d.updSlice s f).out = d.out := rfl
@[simp] theorem Dev.updSlice_edge (d : Dev) (s : Nat) (f : Slice → Slice) : (d.updSlice s f).edge = d.edge := rfl
@[simp] theorem Dev.updSlice_ram (d : Dev) (s : Nat) (f : Slice → Slice) : (d.updSlice s f).ram = d.ram := rfl
@[simp] theorem Dev.updSlice_sync (d : Dev) (s : Nat) (f : Slice → Slice) : (d.updSlice s f).sync = d.sync := rfl
@[simp] theorem Dev.updSlice_stepPend (d : Dev) (s : Nat) (f : Slice → Slice) : (d.updSlice s f).stepPend = d.stepPend := rfl
@[simp] theorem Dev.updSlice_jumps (d : Dev) (s : Nat) (f : Slice → Slice) : (d.updSlice s f).jumps = d.jumps := rfl
@[simp] theorem Dev.updSlice_newEpoch (d : Dev) (s : Nat) (f : Slice → Slice) : (d.updSlice s f).newEpoch = d.newEpoch := rfl
@[simp] theorem Dev.updSlice_hot (d : Dev) (s : Nat) (f : Slice → Slice) : (d.updSlice s f).hot = d.hot := rfl
@[simp] theorem Dev.updSlice_xpt (d : Dev) (s : Nat) (f : Slice → Slice) : (d.updSlice s f).xpt = d.xpt := rfl
@[simp] theorem Dev.updSlice_nvt (d : Dev) (s : Nat) (f : Slice → Slice) : (d.updSlice s f).nvt = d.nvt := rfl
@[simp] theorem Dev.updSlice_cal (d : Dev) (s : Nat) (f : Slice → Slice) : (d.updSlice s f).cal = d.cal := rfl
@[simp] theorem Dev.updSlice_mde (d : Dev) (s : Nat) (f : Slice → Slice) : (d.updSlice s f).mde = d.mde := rfl
@[simp] theorem Dev.updSlice_tph (d : Dev) (s : Nat) (f : Slice → Slice) : (d.updSlice s f).tph = d.tph := rfl
@[simp] theorem Dev.updSlice_key (d : Dev) (s : Nat) (f : Slice → Slice) : (d.updSlice s f).key = d.key := rfl
@[simp] theorem Dev.updSlice_lay (d : Dev) (s : Nat) (f : Slice → Slice) : (d.updSlice s f).lay = d.lay := rfl
@[simp] theorem Dev.updSlice_mdc (d : Dev) (s : Nat) (f : Slice → Slice) : (d.updSlice s f).mdc = d.mdc := rfl
@[simp] theorem Dev.updSlice_rd (d : Dev) (s : Nat) (f : Slice → Slice) : (d.updSlice s f).rd = d.rd := rfl
@[simp] theorem Dev.updSlice_drv (d : Dev) (s : Nat) (f : Slice → Slice) : (d.updSlice s f).drv = d.drv := rfl
@[simp] theorem Dev.updSlice_rep (d : Dev) (s : Nat) (f : Slice → Slice) : (d.updSlice s f).rep = d.rep := rfl
@[simp] theorem Dev.updSlice_cdx (d : Dev) (s : Nat) (f : Slice → Slice) : (d.updSlice s f).cdx = d.cdx := rfl
@[simp] theorem Dev.updSlice_fov (d : Dev) (s : Nat) (f : Slice → Slice) : (d.updSlice s f).fov = d.fov := rfl
@[simp] theorem Dev.updSlice_mem (d : Dev) (s : Nat) (f : Slice → Slice) : (d.updSlice s f).mem = d.mem := rfl
@[simp] theorem Dev.updSlice_fum (d : Dev) (s : Nat) (f : Slice → Slice) : (d.updSlice s f).fum = d.fum := rfl
@[simp] theorem Dev.updSlice_pmc (d : Dev) (s : Nat) (f : Slice → Slice) : (d.updSlice s f).pmc = d.pmc := rfl
@[simp] theorem Dev.updSlice_mbx (d : Dev) (s : Nat) (f : Slice → Slice) : (d.updSlice s f).mbx = d.mbx := rfl
@[simp] theorem Dev.updSlice_fis (d : Dev) (s : Nat) (f : Slice → Slice) : (d.updSlice s f).fis = d.fis := rfl
@[simp] theorem Dev.updSlice_upd (d : Dev) (s : Nat) (f : Slice → Slice) : (d.updSlice s f).upd = d.upd := rfl
@[simp] theorem Dev.updSlice_sec (d : Dev) (s : Nat) (f : Slice → Slice) : (d.updSlice s f).sec = d.sec := rfl
@[simp] theorem Dev.updSlice_fld (d : Dev) (s : Nat) (f : Slice → Slice) (g : Fld) : (d.updSlice s f).fld g = d.fld g := by simp [Dev.fld]
@[simp] theorem Dev.updSlice_flag (d : Dev) (s : Nat) (f : Slice → Slice) (g : Fld) : (d.updSlice s f).flag g = d.flag g := by simp [Dev.flag]

/-! ### `ticketEnd` -/

@[simp] theorem Dev.ticketEnd_beat (d : Dev) (n st detail : Nat) : (d.ticketEnd n st detail).beat = d.beat := rfl
@[simp] theorem Dev.ticketEnd_edges (d : Dev) (n st detail : Nat) : (d.ticketEnd n st detail).edges = d.edges := rfl
@[simp] theorem Dev.ticketEnd_fields (d : Dev) (n st detail : Nat) : (d.ticketEnd n st detail).fields = d.fields := rfl
@[simp] theorem Dev.ticketEnd_wins (d : Dev) (n st detail : Nat) : (d.ticketEnd n st detail).wins = d.wins := rfl
@[simp] theorem Dev.ticketEnd_raised (d : Dev) (n st detail : Nat) : (d.ticketEnd n st detail).raised = d.raised := rfl
@[simp] theorem Dev.ticketEnd_seen (d : Dev) (n st detail : Nat) : (d.ticketEnd n st detail).seen = d.seen := rfl
@[simp] theorem Dev.ticketEnd_marks (d : Dev) (n st detail : Nat) : (d.ticketEnd n st detail).marks = d.marks := rfl
@[simp] theorem Dev.ticketEnd_hwPend (d : Dev) (n st detail : Nat) : (d.ticketEnd n st detail).hwPend = d.hwPend := rfl
@[simp] theorem Dev.ticketEnd_seqPend (d : Dev) (n st detail : Nat) : (d.ticketEnd n st detail).seqPend = d.seqPend := rfl
@[simp] theorem Dev.ticketEnd_free (d : Dev) (n st detail : Nat) : (d.ticketEnd n st detail).free = d.free := rfl
@[simp] theorem Dev.ticketEnd_out (d : Dev) (n st detail : Nat) : (d.ticketEnd n st detail).out = d.out := rfl
@[simp] theorem Dev.ticketEnd_edge (d : Dev) (n st detail : Nat) : (d.ticketEnd n st detail).edge = d.edge := rfl
@[simp] theorem Dev.ticketEnd_ram (d : Dev) (n st detail : Nat) : (d.ticketEnd n st detail).ram = d.ram := rfl
@[simp] theorem Dev.ticketEnd_sync (d : Dev) (n st detail : Nat) : (d.ticketEnd n st detail).sync = d.sync := rfl
@[simp] theorem Dev.ticketEnd_stepPend (d : Dev) (n st detail : Nat) : (d.ticketEnd n st detail).stepPend = d.stepPend := rfl
@[simp] theorem Dev.ticketEnd_jumps (d : Dev) (n st detail : Nat) : (d.ticketEnd n st detail).jumps = d.jumps := rfl
@[simp] theorem Dev.ticketEnd_newEpoch (d : Dev) (n st detail : Nat) : (d.ticketEnd n st detail).newEpoch = d.newEpoch := rfl
@[simp] theorem Dev.ticketEnd_hot (d : Dev) (n st detail : Nat) : (d.ticketEnd n st detail).hot = d.hot := rfl
@[simp] theorem Dev.ticketEnd_slices (d : Dev) (n st detail : Nat) : (d.ticketEnd n st detail).slices = d.slices := rfl
@[simp] theorem Dev.ticketEnd_xpt (d : Dev) (n st detail : Nat) : (d.ticketEnd n st detail).xpt = d.xpt := rfl
@[simp] theorem Dev.ticketEnd_nvt (d : Dev) (n st detail : Nat) : (d.ticketEnd n st detail).nvt = d.nvt := rfl
@[simp] theorem Dev.ticketEnd_cal (d : Dev) (n st detail : Nat) : (d.ticketEnd n st detail).cal = d.cal := rfl
@[simp] theorem Dev.ticketEnd_mde (d : Dev) (n st detail : Nat) : (d.ticketEnd n st detail).mde = d.mde := rfl
@[simp] theorem Dev.ticketEnd_tph (d : Dev) (n st detail : Nat) : (d.ticketEnd n st detail).tph = d.tph := rfl
@[simp] theorem Dev.ticketEnd_key (d : Dev) (n st detail : Nat) : (d.ticketEnd n st detail).key = d.key := rfl
@[simp] theorem Dev.ticketEnd_lay (d : Dev) (n st detail : Nat) : (d.ticketEnd n st detail).lay = d.lay := rfl
@[simp] theorem Dev.ticketEnd_mdc (d : Dev) (n st detail : Nat) : (d.ticketEnd n st detail).mdc = d.mdc := rfl
@[simp] theorem Dev.ticketEnd_rd (d : Dev) (n st detail : Nat) : (d.ticketEnd n st detail).rd = d.rd := rfl
@[simp] theorem Dev.ticketEnd_drv (d : Dev) (n st detail : Nat) : (d.ticketEnd n st detail).drv = d.drv := rfl
@[simp] theorem Dev.ticketEnd_rep (d : Dev) (n st detail : Nat) : (d.ticketEnd n st detail).rep = d.rep := rfl
@[simp] theorem Dev.ticketEnd_cdx (d : Dev) (n st detail : Nat) : (d.ticketEnd n st detail).cdx = d.cdx := rfl
@[simp] theorem Dev.ticketEnd_fov (d : Dev) (n st detail : Nat) : (d.ticketEnd n st detail).fov = d.fov := rfl
@[simp] theorem Dev.ticketEnd_mem (d : Dev) (n st detail : Nat) : (d.ticketEnd n st detail).mem = d.mem := rfl
@[simp] theorem Dev.ticketEnd_fum (d : Dev) (n st detail : Nat) : (d.ticketEnd n st detail).fum = d.fum := rfl
@[simp] theorem Dev.ticketEnd_pmc (d : Dev) (n st detail : Nat) : (d.ticketEnd n st detail).pmc = d.pmc := rfl
@[simp] theorem Dev.ticketEnd_fis (d : Dev) (n st detail : Nat) : (d.ticketEnd n st detail).fis = d.fis := rfl
@[simp] theorem Dev.ticketEnd_upd (d : Dev) (n st detail : Nat) : (d.ticketEnd n st detail).upd = d.upd := rfl
@[simp] theorem Dev.ticketEnd_sec (d : Dev) (n st detail : Nat) : (d.ticketEnd n st detail).sec = d.sec := rfl
@[simp] theorem Dev.ticketEnd_fld (d : Dev) (n st detail : Nat) (g : Fld) : (d.ticketEnd n st detail).fld g = d.fld g := by simp [Dev.fld]
@[simp] theorem Dev.ticketEnd_flag (d : Dev) (n st detail : Nat) (g : Fld) : (d.ticketEnd n st detail).flag g = d.flag g := by simp [Dev.flag]

/-! ### `updPort` -/

@[simp] theorem Dev.updPort_beat (d : Dev) (p : Nat) (f : PortRec → PortRec) : (d.updPort p f).beat = d.beat := rfl
@[simp] theorem Dev.updPort_edges (d : Dev) (p : Nat) (f : PortRec → PortRec) : (d.updPort p f).edges = d.edges := rfl
@[simp] theorem Dev.updPort_fields (d : Dev) (p : Nat) (f : PortRec → PortRec) : (d.updPort p f).fields = d.fields := rfl
@[simp] theorem Dev.updPort_wins (d : Dev) (p : Nat) (f : PortRec → PortRec) : (d.updPort p f).wins = d.wins := rfl
@[simp] theorem Dev.updPort_raised (d : Dev) (p : Nat) (f : PortRec → PortRec) : (d.updPort p f).raised = d.raised := rfl
@[simp] theorem Dev.updPort_seen (d : Dev) (p : Nat) (f : PortRec → PortRec) : (d.updPort p f).seen = d.seen := rfl
@[simp] theorem Dev.updPort_marks (d : Dev) (p : Nat) (f : PortRec → PortRec) : (d.updPort p f).marks = d.marks := rfl
@[simp] theorem Dev.updPort_hwPend (d : Dev) (p : Nat) (f : PortRec → PortRec) : (d.updPort p f).hwPend = d.hwPend := rfl
@[simp] theorem Dev.updPort_seqPend (d : Dev) (p : Nat) (f : PortRec → PortRec) : (d.updPort p f).seqPend = d.seqPend := rfl
@[simp] theorem Dev.updPort_free (d : Dev) (p : Nat) (f : PortRec → PortRec) : (d.updPort p f).free = d.free := rfl
@[simp] theorem Dev.updPort_out (d : Dev) (p : Nat) (f : PortRec → PortRec) : (d.updPort p f).out = d.out := rfl
@[simp] theorem Dev.updPort_edge (d : Dev) (p : Nat) (f : PortRec → PortRec) : (d.updPort p f).edge = d.edge := rfl
@[simp] theorem Dev.updPort_ram (d : Dev) (p : Nat) (f : PortRec → PortRec) : (d.updPort p f).ram = d.ram := rfl
@[simp] theorem Dev.updPort_sync (d : Dev) (p : Nat) (f : PortRec → PortRec) : (d.updPort p f).sync = d.sync := rfl
@[simp] theorem Dev.updPort_stepPend (d : Dev) (p : Nat) (f : PortRec → PortRec) : (d.updPort p f).stepPend = d.stepPend := rfl
@[simp] theorem Dev.updPort_jumps (d : Dev) (p : Nat) (f : PortRec → PortRec) : (d.updPort p f).jumps = d.jumps := rfl
@[simp] theorem Dev.updPort_newEpoch (d : Dev) (p : Nat) (f : PortRec → PortRec) : (d.updPort p f).newEpoch = d.newEpoch := rfl
@[simp] theorem Dev.updPort_hot (d : Dev) (p : Nat) (f : PortRec → PortRec) : (d.updPort p f).hot = d.hot := rfl
@[simp] theorem Dev.updPort_slices (d : Dev) (p : Nat) (f : PortRec → PortRec) : (d.updPort p f).slices = d.slices := rfl
@[simp] theorem Dev.updPort_nvt (d : Dev) (p : Nat) (f : PortRec → PortRec) : (d.updPort p f).nvt = d.nvt := rfl
@[simp] theorem Dev.updPort_cal (d : Dev) (p : Nat) (f : PortRec → PortRec) : (d.updPort p f).cal = d.cal := rfl
@[simp] theorem Dev.updPort_mde (d : Dev) (p : Nat) (f : PortRec → PortRec) : (d.updPort p f).mde = d.mde := rfl
@[simp] theorem Dev.updPort_tph (d : Dev) (p : Nat) (f : PortRec → PortRec) : (d.updPort p f).tph = d.tph := rfl
@[simp] theorem Dev.updPort_key (d : Dev) (p : Nat) (f : PortRec → PortRec) : (d.updPort p f).key = d.key := rfl
@[simp] theorem Dev.updPort_lay (d : Dev) (p : Nat) (f : PortRec → PortRec) : (d.updPort p f).lay = d.lay := rfl
@[simp] theorem Dev.updPort_mdc (d : Dev) (p : Nat) (f : PortRec → PortRec) : (d.updPort p f).mdc = d.mdc := rfl
@[simp] theorem Dev.updPort_rd (d : Dev) (p : Nat) (f : PortRec → PortRec) : (d.updPort p f).rd = d.rd := rfl
@[simp] theorem Dev.updPort_drv (d : Dev) (p : Nat) (f : PortRec → PortRec) : (d.updPort p f).drv = d.drv := rfl
@[simp] theorem Dev.updPort_rep (d : Dev) (p : Nat) (f : PortRec → PortRec) : (d.updPort p f).rep = d.rep := rfl
@[simp] theorem Dev.updPort_cdx (d : Dev) (p : Nat) (f : PortRec → PortRec) : (d.updPort p f).cdx = d.cdx := rfl
@[simp] theorem Dev.updPort_fov (d : Dev) (p : Nat) (f : PortRec → PortRec) : (d.updPort p f).fov = d.fov := rfl
@[simp] theorem Dev.updPort_mem (d : Dev) (p : Nat) (f : PortRec → PortRec) : (d.updPort p f).mem = d.mem := rfl
@[simp] theorem Dev.updPort_fum (d : Dev) (p : Nat) (f : PortRec → PortRec) : (d.updPort p f).fum = d.fum := rfl
@[simp] theorem Dev.updPort_pmc (d : Dev) (p : Nat) (f : PortRec → PortRec) : (d.updPort p f).pmc = d.pmc := rfl
@[simp] theorem Dev.updPort_mbx (d : Dev) (p : Nat) (f : PortRec → PortRec) : (d.updPort p f).mbx = d.mbx := rfl
@[simp] theorem Dev.updPort_fis (d : Dev) (p : Nat) (f : PortRec → PortRec) : (d.updPort p f).fis = d.fis := rfl
@[simp] theorem Dev.updPort_upd (d : Dev) (p : Nat) (f : PortRec → PortRec) : (d.updPort p f).upd = d.upd := rfl
@[simp] theorem Dev.updPort_sec (d : Dev) (p : Nat) (f : PortRec → PortRec) : (d.updPort p f).sec = d.sec := rfl
@[simp] theorem Dev.updPort_fld (d : Dev) (p : Nat) (f : PortRec → PortRec) (g : Fld) : (d.updPort p f).fld g = d.fld g := by simp [Dev.fld]
@[simp] theorem Dev.updPort_flag (d : Dev) (p : Nat) (f : PortRec → PortRec) (g : Fld) : (d.updPort p f).flag g = d.flag g := by simp [Dev.flag]

/-! ### `updCtx` -/

@[simp] theorem Dev.updCtx_beat (d : Dev) (q : Nat) (f : QpCtx → QpCtx) : (d.updCtx q f).beat = d.beat := rfl
@[simp] theorem Dev.updCtx_edges (d : Dev) (q : Nat) (f : QpCtx → QpCtx) : (d.updCtx q f).edges = d.edges := rfl
@[simp] theorem Dev.updCtx_fields (d : Dev) (q : Nat) (f : QpCtx → QpCtx) : (d.updCtx q f).fields = d.fields := rfl
@[simp] theorem Dev.updCtx_wins (d : Dev) (q : Nat) (f : QpCtx → QpCtx) : (d.updCtx q f).wins = d.wins := rfl
@[simp] theorem Dev.updCtx_raised (d : Dev) (q : Nat) (f : QpCtx → QpCtx) : (d.updCtx q f).raised = d.raised := rfl
@[simp] theorem Dev.updCtx_seen (d : Dev) (q : Nat) (f : QpCtx → QpCtx) : (d.updCtx q f).seen = d.seen := rfl
@[simp] theorem Dev.updCtx_marks (d : Dev) (q : Nat) (f : QpCtx → QpCtx) : (d.updCtx q f).marks = d.marks := rfl
@[simp] theorem Dev.updCtx_hwPend (d : Dev) (q : Nat) (f : QpCtx → QpCtx) : (d.updCtx q f).hwPend = d.hwPend := rfl
@[simp] theorem Dev.updCtx_seqPend (d : Dev) (q : Nat) (f : QpCtx → QpCtx) : (d.updCtx q f).seqPend = d.seqPend := rfl
@[simp] theorem Dev.updCtx_free (d : Dev) (q : Nat) (f : QpCtx → QpCtx) : (d.updCtx q f).free = d.free := rfl
@[simp] theorem Dev.updCtx_out (d : Dev) (q : Nat) (f : QpCtx → QpCtx) : (d.updCtx q f).out = d.out := rfl
@[simp] theorem Dev.updCtx_edge (d : Dev) (q : Nat) (f : QpCtx → QpCtx) : (d.updCtx q f).edge = d.edge := rfl
@[simp] theorem Dev.updCtx_ram (d : Dev) (q : Nat) (f : QpCtx → QpCtx) : (d.updCtx q f).ram = d.ram := rfl
@[simp] theorem Dev.updCtx_sync (d : Dev) (q : Nat) (f : QpCtx → QpCtx) : (d.updCtx q f).sync = d.sync := rfl
@[simp] theorem Dev.updCtx_stepPend (d : Dev) (q : Nat) (f : QpCtx → QpCtx) : (d.updCtx q f).stepPend = d.stepPend := rfl
@[simp] theorem Dev.updCtx_jumps (d : Dev) (q : Nat) (f : QpCtx → QpCtx) : (d.updCtx q f).jumps = d.jumps := rfl
@[simp] theorem Dev.updCtx_newEpoch (d : Dev) (q : Nat) (f : QpCtx → QpCtx) : (d.updCtx q f).newEpoch = d.newEpoch := rfl
@[simp] theorem Dev.updCtx_hot (d : Dev) (q : Nat) (f : QpCtx → QpCtx) : (d.updCtx q f).hot = d.hot := rfl
@[simp] theorem Dev.updCtx_slices (d : Dev) (q : Nat) (f : QpCtx → QpCtx) : (d.updCtx q f).slices = d.slices := rfl
@[simp] theorem Dev.updCtx_nvt (d : Dev) (q : Nat) (f : QpCtx → QpCtx) : (d.updCtx q f).nvt = d.nvt := rfl
@[simp] theorem Dev.updCtx_cal (d : Dev) (q : Nat) (f : QpCtx → QpCtx) : (d.updCtx q f).cal = d.cal := rfl
@[simp] theorem Dev.updCtx_mde (d : Dev) (q : Nat) (f : QpCtx → QpCtx) : (d.updCtx q f).mde = d.mde := rfl
@[simp] theorem Dev.updCtx_tph (d : Dev) (q : Nat) (f : QpCtx → QpCtx) : (d.updCtx q f).tph = d.tph := rfl
@[simp] theorem Dev.updCtx_key (d : Dev) (q : Nat) (f : QpCtx → QpCtx) : (d.updCtx q f).key = d.key := rfl
@[simp] theorem Dev.updCtx_lay (d : Dev) (q : Nat) (f : QpCtx → QpCtx) : (d.updCtx q f).lay = d.lay := rfl
@[simp] theorem Dev.updCtx_mdc (d : Dev) (q : Nat) (f : QpCtx → QpCtx) : (d.updCtx q f).mdc = d.mdc := rfl
@[simp] theorem Dev.updCtx_rd (d : Dev) (q : Nat) (f : QpCtx → QpCtx) : (d.updCtx q f).rd = d.rd := rfl
@[simp] theorem Dev.updCtx_drv (d : Dev) (q : Nat) (f : QpCtx → QpCtx) : (d.updCtx q f).drv = d.drv := rfl
@[simp] theorem Dev.updCtx_rep (d : Dev) (q : Nat) (f : QpCtx → QpCtx) : (d.updCtx q f).rep = d.rep := rfl
@[simp] theorem Dev.updCtx_cdx (d : Dev) (q : Nat) (f : QpCtx → QpCtx) : (d.updCtx q f).cdx = d.cdx := rfl
@[simp] theorem Dev.updCtx_fov (d : Dev) (q : Nat) (f : QpCtx → QpCtx) : (d.updCtx q f).fov = d.fov := rfl
@[simp] theorem Dev.updCtx_mem (d : Dev) (q : Nat) (f : QpCtx → QpCtx) : (d.updCtx q f).mem = d.mem := rfl
@[simp] theorem Dev.updCtx_fum (d : Dev) (q : Nat) (f : QpCtx → QpCtx) : (d.updCtx q f).fum = d.fum := rfl
@[simp] theorem Dev.updCtx_pmc (d : Dev) (q : Nat) (f : QpCtx → QpCtx) : (d.updCtx q f).pmc = d.pmc := rfl
@[simp] theorem Dev.updCtx_mbx (d : Dev) (q : Nat) (f : QpCtx → QpCtx) : (d.updCtx q f).mbx = d.mbx := rfl
@[simp] theorem Dev.updCtx_fis (d : Dev) (q : Nat) (f : QpCtx → QpCtx) : (d.updCtx q f).fis = d.fis := rfl
@[simp] theorem Dev.updCtx_upd (d : Dev) (q : Nat) (f : QpCtx → QpCtx) : (d.updCtx q f).upd = d.upd := rfl
@[simp] theorem Dev.updCtx_sec (d : Dev) (q : Nat) (f : QpCtx → QpCtx) : (d.updCtx q f).sec = d.sec := rfl
@[simp] theorem Dev.updCtx_fld (d : Dev) (q : Nat) (f : QpCtx → QpCtx) (g : Fld) : (d.updCtx q f).fld g = d.fld g := by simp [Dev.fld]
@[simp] theorem Dev.updCtx_flag (d : Dev) (q : Nat) (f : QpCtx → QpCtx) (g : Fld) : (d.updCtx q f).flag g = d.flag g := by simp [Dev.flag]

/-! ### `updWork` -/

@[simp] theorem Dev.updWork_beat (d : Dev) (q : Nat) (f : QpWork → QpWork) : (d.updWork q f).beat = d.beat := rfl
@[simp] theorem Dev.updWork_edges (d : Dev) (q : Nat) (f : QpWork → QpWork) : (d.updWork q f).edges = d.edges := rfl
@[simp] theorem Dev.updWork_fields (d : Dev) (q : Nat) (f : QpWork → QpWork) : (d.updWork q f).fields = d.fields := rfl
@[simp] theorem Dev.updWork_wins (d : Dev) (q : Nat) (f : QpWork → QpWork) : (d.updWork q f).wins = d.wins := rfl
@[simp] theorem Dev.updWork_raised (d : Dev) (q : Nat) (f : QpWork → QpWork) : (d.updWork q f).raised = d.raised := rfl
@[simp] theorem Dev.updWork_seen (d : Dev) (q : Nat) (f : QpWork → QpWork) : (d.updWork q f).seen = d.seen := rfl
@[simp] theorem Dev.updWork_marks (d : Dev) (q : Nat) (f : QpWork → QpWork) : (d.updWork q f).marks = d.marks := rfl
@[simp] theorem Dev.updWork_hwPend (d : Dev) (q : Nat) (f : QpWork → QpWork) : (d.updWork q f).hwPend = d.hwPend := rfl
@[simp] theorem Dev.updWork_seqPend (d : Dev) (q : Nat) (f : QpWork → QpWork) : (d.updWork q f).seqPend = d.seqPend := rfl
@[simp] theorem Dev.updWork_free (d : Dev) (q : Nat) (f : QpWork → QpWork) : (d.updWork q f).free = d.free := rfl
@[simp] theorem Dev.updWork_out (d : Dev) (q : Nat) (f : QpWork → QpWork) : (d.updWork q f).out = d.out := rfl
@[simp] theorem Dev.updWork_edge (d : Dev) (q : Nat) (f : QpWork → QpWork) : (d.updWork q f).edge = d.edge := rfl
@[simp] theorem Dev.updWork_ram (d : Dev) (q : Nat) (f : QpWork → QpWork) : (d.updWork q f).ram = d.ram := rfl
@[simp] theorem Dev.updWork_sync (d : Dev) (q : Nat) (f : QpWork → QpWork) : (d.updWork q f).sync = d.sync := rfl
@[simp] theorem Dev.updWork_stepPend (d : Dev) (q : Nat) (f : QpWork → QpWork) : (d.updWork q f).stepPend = d.stepPend := rfl
@[simp] theorem Dev.updWork_jumps (d : Dev) (q : Nat) (f : QpWork → QpWork) : (d.updWork q f).jumps = d.jumps := rfl
@[simp] theorem Dev.updWork_newEpoch (d : Dev) (q : Nat) (f : QpWork → QpWork) : (d.updWork q f).newEpoch = d.newEpoch := rfl
@[simp] theorem Dev.updWork_hot (d : Dev) (q : Nat) (f : QpWork → QpWork) : (d.updWork q f).hot = d.hot := rfl
@[simp] theorem Dev.updWork_slices (d : Dev) (q : Nat) (f : QpWork → QpWork) : (d.updWork q f).slices = d.slices := rfl
@[simp] theorem Dev.updWork_nvt (d : Dev) (q : Nat) (f : QpWork → QpWork) : (d.updWork q f).nvt = d.nvt := rfl
@[simp] theorem Dev.updWork_cal (d : Dev) (q : Nat) (f : QpWork → QpWork) : (d.updWork q f).cal = d.cal := rfl
@[simp] theorem Dev.updWork_mde (d : Dev) (q : Nat) (f : QpWork → QpWork) : (d.updWork q f).mde = d.mde := rfl
@[simp] theorem Dev.updWork_tph (d : Dev) (q : Nat) (f : QpWork → QpWork) : (d.updWork q f).tph = d.tph := rfl
@[simp] theorem Dev.updWork_key (d : Dev) (q : Nat) (f : QpWork → QpWork) : (d.updWork q f).key = d.key := rfl
@[simp] theorem Dev.updWork_lay (d : Dev) (q : Nat) (f : QpWork → QpWork) : (d.updWork q f).lay = d.lay := rfl
@[simp] theorem Dev.updWork_mdc (d : Dev) (q : Nat) (f : QpWork → QpWork) : (d.updWork q f).mdc = d.mdc := rfl
@[simp] theorem Dev.updWork_rd (d : Dev) (q : Nat) (f : QpWork → QpWork) : (d.updWork q f).rd = d.rd := rfl
@[simp] theorem Dev.updWork_drv (d : Dev) (q : Nat) (f : QpWork → QpWork) : (d.updWork q f).drv = d.drv := rfl
@[simp] theorem Dev.updWork_rep (d : Dev) (q : Nat) (f : QpWork → QpWork) : (d.updWork q f).rep = d.rep := rfl
@[simp] theorem Dev.updWork_cdx (d : Dev) (q : Nat) (f : QpWork → QpWork) : (d.updWork q f).cdx = d.cdx := rfl
@[simp] theorem Dev.updWork_fov (d : Dev) (q : Nat) (f : QpWork → QpWork) : (d.updWork q f).fov = d.fov := rfl
@[simp] theorem Dev.updWork_mem (d : Dev) (q : Nat) (f : QpWork → QpWork) : (d.updWork q f).mem = d.mem := rfl
@[simp] theorem Dev.updWork_fum (d : Dev) (q : Nat) (f : QpWork → QpWork) : (d.updWork q f).fum = d.fum := rfl
@[simp] theorem Dev.updWork_pmc (d : Dev) (q : Nat) (f : QpWork → QpWork) : (d.updWork q f).pmc = d.pmc := rfl
@[simp] theorem Dev.updWork_mbx (d : Dev) (q : Nat) (f : QpWork → QpWork) : (d.updWork q f).mbx = d.mbx := rfl
@[simp] theorem Dev.updWork_fis (d : Dev) (q : Nat) (f : QpWork → QpWork) : (d.updWork q f).fis = d.fis := rfl
@[simp] theorem Dev.updWork_upd (d : Dev) (q : Nat) (f : QpWork → QpWork) : (d.updWork q f).upd = d.upd := rfl
@[simp] theorem Dev.updWork_sec (d : Dev) (q : Nat) (f : QpWork → QpWork) : (d.updWork q f).sec = d.sec := rfl
@[simp] theorem Dev.updWork_fld (d : Dev) (q : Nat) (f : QpWork → QpWork) (g : Fld) : (d.updWork q f).fld g = d.fld g := by simp [Dev.fld]
@[simp] theorem Dev.updWork_flag (d : Dev) (q : Nat) (f : QpWork → QpWork) (g : Fld) : (d.updWork q f).flag g = d.flag g := by simp [Dev.flag]

/-! ### `updBitmap` -/

@[simp] theorem Dev.updBitmap_beat (d : Dev) (i : Nat) (f : Bitmap → Bitmap) : (d.updBitmap i f).beat = d.beat := rfl
@[simp] theorem Dev.updBitmap_edges (d : Dev) (i : Nat) (f : Bitmap → Bitmap) : (d.updBitmap i f).edges = d.edges := rfl
@[simp] theorem Dev.updBitmap_fields (d : Dev) (i : Nat) (f : Bitmap → Bitmap) : (d.updBitmap i f).fields = d.fields := rfl
@[simp] theorem Dev.updBitmap_wins (d : Dev) (i : Nat) (f : Bitmap → Bitmap) : (d.updBitmap i f).wins = d.wins := rfl
@[simp] theorem Dev.updBitmap_raised (d : Dev) (i : Nat) (f : Bitmap → Bitmap) : (d.updBitmap i f).raised = d.raised := rfl
@[simp] theorem Dev.updBitmap_seen (d : Dev) (i : Nat) (f : Bitmap → Bitmap) : (d.updBitmap i f).seen = d.seen := rfl
@[simp] theorem Dev.updBitmap_marks (d : Dev) (i : Nat) (f : Bitmap → Bitmap) : (d.updBitmap i f).marks = d.marks := rfl
@[simp] theorem Dev.updBitmap_hwPend (d : Dev) (i : Nat) (f : Bitmap → Bitmap) : (d.updBitmap i f).hwPend = d.hwPend := rfl
@[simp] theorem Dev.updBitmap_seqPend (d : Dev) (i : Nat) (f : Bitmap → Bitmap) : (d.updBitmap i f).seqPend = d.seqPend := rfl
@[simp] theorem Dev.updBitmap_free (d : Dev) (i : Nat) (f : Bitmap → Bitmap) : (d.updBitmap i f).free = d.free := rfl
@[simp] theorem Dev.updBitmap_out (d : Dev) (i : Nat) (f : Bitmap → Bitmap) : (d.updBitmap i f).out = d.out := rfl
@[simp] theorem Dev.updBitmap_edge (d : Dev) (i : Nat) (f : Bitmap → Bitmap) : (d.updBitmap i f).edge = d.edge := rfl
@[simp] theorem Dev.updBitmap_ram (d : Dev) (i : Nat) (f : Bitmap → Bitmap) : (d.updBitmap i f).ram = d.ram := rfl
@[simp] theorem Dev.updBitmap_sync (d : Dev) (i : Nat) (f : Bitmap → Bitmap) : (d.updBitmap i f).sync = d.sync := rfl
@[simp] theorem Dev.updBitmap_stepPend (d : Dev) (i : Nat) (f : Bitmap → Bitmap) : (d.updBitmap i f).stepPend = d.stepPend := rfl
@[simp] theorem Dev.updBitmap_jumps (d : Dev) (i : Nat) (f : Bitmap → Bitmap) : (d.updBitmap i f).jumps = d.jumps := rfl
@[simp] theorem Dev.updBitmap_newEpoch (d : Dev) (i : Nat) (f : Bitmap → Bitmap) : (d.updBitmap i f).newEpoch = d.newEpoch := rfl
@[simp] theorem Dev.updBitmap_hot (d : Dev) (i : Nat) (f : Bitmap → Bitmap) : (d.updBitmap i f).hot = d.hot := rfl
@[simp] theorem Dev.updBitmap_slices (d : Dev) (i : Nat) (f : Bitmap → Bitmap) : (d.updBitmap i f).slices = d.slices := rfl
@[simp] theorem Dev.updBitmap_nvt (d : Dev) (i : Nat) (f : Bitmap → Bitmap) : (d.updBitmap i f).nvt = d.nvt := rfl
@[simp] theorem Dev.updBitmap_cal (d : Dev) (i : Nat) (f : Bitmap → Bitmap) : (d.updBitmap i f).cal = d.cal := rfl
@[simp] theorem Dev.updBitmap_mde (d : Dev) (i : Nat) (f : Bitmap → Bitmap) : (d.updBitmap i f).mde = d.mde := rfl
@[simp] theorem Dev.updBitmap_tph (d : Dev) (i : Nat) (f : Bitmap → Bitmap) : (d.updBitmap i f).tph = d.tph := rfl
@[simp] theorem Dev.updBitmap_key (d : Dev) (i : Nat) (f : Bitmap → Bitmap) : (d.updBitmap i f).key = d.key := rfl
@[simp] theorem Dev.updBitmap_lay (d : Dev) (i : Nat) (f : Bitmap → Bitmap) : (d.updBitmap i f).lay = d.lay := rfl
@[simp] theorem Dev.updBitmap_mdc (d : Dev) (i : Nat) (f : Bitmap → Bitmap) : (d.updBitmap i f).mdc = d.mdc := rfl
@[simp] theorem Dev.updBitmap_rd (d : Dev) (i : Nat) (f : Bitmap → Bitmap) : (d.updBitmap i f).rd = d.rd := rfl
@[simp] theorem Dev.updBitmap_drv (d : Dev) (i : Nat) (f : Bitmap → Bitmap) : (d.updBitmap i f).drv = d.drv := rfl
@[simp] theorem Dev.updBitmap_rep (d : Dev) (i : Nat) (f : Bitmap → Bitmap) : (d.updBitmap i f).rep = d.rep := rfl
@[simp] theorem Dev.updBitmap_cdx (d : Dev) (i : Nat) (f : Bitmap → Bitmap) : (d.updBitmap i f).cdx = d.cdx := rfl
@[simp] theorem Dev.updBitmap_fov (d : Dev) (i : Nat) (f : Bitmap → Bitmap) : (d.updBitmap i f).fov = d.fov := rfl
@[simp] theorem Dev.updBitmap_mem (d : Dev) (i : Nat) (f : Bitmap → Bitmap) : (d.updBitmap i f).mem = d.mem := rfl
@[simp] theorem Dev.updBitmap_fum (d : Dev) (i : Nat) (f : Bitmap → Bitmap) : (d.updBitmap i f).fum = d.fum := rfl
@[simp] theorem Dev.updBitmap_pmc (d : Dev) (i : Nat) (f : Bitmap → Bitmap) : (d.updBitmap i f).pmc = d.pmc := rfl
@[simp] theorem Dev.updBitmap_mbx (d : Dev) (i : Nat) (f : Bitmap → Bitmap) : (d.updBitmap i f).mbx = d.mbx := rfl
@[simp] theorem Dev.updBitmap_fis (d : Dev) (i : Nat) (f : Bitmap → Bitmap) : (d.updBitmap i f).fis = d.fis := rfl
@[simp] theorem Dev.updBitmap_upd (d : Dev) (i : Nat) (f : Bitmap → Bitmap) : (d.updBitmap i f).upd = d.upd := rfl
@[simp] theorem Dev.updBitmap_sec (d : Dev) (i : Nat) (f : Bitmap → Bitmap) : (d.updBitmap i f).sec = d.sec := rfl
@[simp] theorem Dev.updBitmap_fld (d : Dev) (i : Nat) (f : Bitmap → Bitmap) (g : Fld) : (d.updBitmap i f).fld g = d.fld g := by simp [Dev.fld]
@[simp] theorem Dev.updBitmap_flag (d : Dev) (i : Nat) (f : Bitmap → Bitmap) (g : Fld) : (d.updBitmap i f).flag g = d.flag g := by simp [Dev.flag]

/-! ### `updRegion` -/

@[simp] theorem Dev.updRegion_beat (d : Dev) (r : Nat) (f : Region → Region) : (d.updRegion r f).beat = d.beat := rfl
@[simp] theorem Dev.updRegion_edges (d : Dev) (r : Nat) (f : Region → Region) : (d.updRegion r f).edges = d.edges := rfl
@[simp] theorem Dev.updRegion_fields (d : Dev) (r : Nat) (f : Region → Region) : (d.updRegion r f).fields = d.fields := rfl
@[simp] theorem Dev.updRegion_wins (d : Dev) (r : Nat) (f : Region → Region) : (d.updRegion r f).wins = d.wins := rfl
@[simp] theorem Dev.updRegion_raised (d : Dev) (r : Nat) (f : Region → Region) : (d.updRegion r f).raised = d.raised := rfl
@[simp] theorem Dev.updRegion_seen (d : Dev) (r : Nat) (f : Region → Region) : (d.updRegion r f).seen = d.seen := rfl
@[simp] theorem Dev.updRegion_marks (d : Dev) (r : Nat) (f : Region → Region) : (d.updRegion r f).marks = d.marks := rfl
@[simp] theorem Dev.updRegion_hwPend (d : Dev) (r : Nat) (f : Region → Region) : (d.updRegion r f).hwPend = d.hwPend := rfl
@[simp] theorem Dev.updRegion_seqPend (d : Dev) (r : Nat) (f : Region → Region) : (d.updRegion r f).seqPend = d.seqPend := rfl
@[simp] theorem Dev.updRegion_free (d : Dev) (r : Nat) (f : Region → Region) : (d.updRegion r f).free = d.free := rfl
@[simp] theorem Dev.updRegion_out (d : Dev) (r : Nat) (f : Region → Region) : (d.updRegion r f).out = d.out := rfl
@[simp] theorem Dev.updRegion_edge (d : Dev) (r : Nat) (f : Region → Region) : (d.updRegion r f).edge = d.edge := rfl
@[simp] theorem Dev.updRegion_ram (d : Dev) (r : Nat) (f : Region → Region) : (d.updRegion r f).ram = d.ram := rfl
@[simp] theorem Dev.updRegion_sync (d : Dev) (r : Nat) (f : Region → Region) : (d.updRegion r f).sync = d.sync := rfl
@[simp] theorem Dev.updRegion_stepPend (d : Dev) (r : Nat) (f : Region → Region) : (d.updRegion r f).stepPend = d.stepPend := rfl
@[simp] theorem Dev.updRegion_jumps (d : Dev) (r : Nat) (f : Region → Region) : (d.updRegion r f).jumps = d.jumps := rfl
@[simp] theorem Dev.updRegion_newEpoch (d : Dev) (r : Nat) (f : Region → Region) : (d.updRegion r f).newEpoch = d.newEpoch := rfl
@[simp] theorem Dev.updRegion_hot (d : Dev) (r : Nat) (f : Region → Region) : (d.updRegion r f).hot = d.hot := rfl
@[simp] theorem Dev.updRegion_slices (d : Dev) (r : Nat) (f : Region → Region) : (d.updRegion r f).slices = d.slices := rfl
@[simp] theorem Dev.updRegion_nvt (d : Dev) (r : Nat) (f : Region → Region) : (d.updRegion r f).nvt = d.nvt := rfl
@[simp] theorem Dev.updRegion_cal (d : Dev) (r : Nat) (f : Region → Region) : (d.updRegion r f).cal = d.cal := rfl
@[simp] theorem Dev.updRegion_mde (d : Dev) (r : Nat) (f : Region → Region) : (d.updRegion r f).mde = d.mde := rfl
@[simp] theorem Dev.updRegion_tph (d : Dev) (r : Nat) (f : Region → Region) : (d.updRegion r f).tph = d.tph := rfl
@[simp] theorem Dev.updRegion_key (d : Dev) (r : Nat) (f : Region → Region) : (d.updRegion r f).key = d.key := rfl
@[simp] theorem Dev.updRegion_lay (d : Dev) (r : Nat) (f : Region → Region) : (d.updRegion r f).lay = d.lay := rfl
@[simp] theorem Dev.updRegion_mdc (d : Dev) (r : Nat) (f : Region → Region) : (d.updRegion r f).mdc = d.mdc := rfl
@[simp] theorem Dev.updRegion_rd (d : Dev) (r : Nat) (f : Region → Region) : (d.updRegion r f).rd = d.rd := rfl
@[simp] theorem Dev.updRegion_drv (d : Dev) (r : Nat) (f : Region → Region) : (d.updRegion r f).drv = d.drv := rfl
@[simp] theorem Dev.updRegion_rep (d : Dev) (r : Nat) (f : Region → Region) : (d.updRegion r f).rep = d.rep := rfl
@[simp] theorem Dev.updRegion_cdx (d : Dev) (r : Nat) (f : Region → Region) : (d.updRegion r f).cdx = d.cdx := rfl
@[simp] theorem Dev.updRegion_fov (d : Dev) (r : Nat) (f : Region → Region) : (d.updRegion r f).fov = d.fov := rfl
@[simp] theorem Dev.updRegion_mem (d : Dev) (r : Nat) (f : Region → Region) : (d.updRegion r f).mem = d.mem := rfl
@[simp] theorem Dev.updRegion_fum (d : Dev) (r : Nat) (f : Region → Region) : (d.updRegion r f).fum = d.fum := rfl
@[simp] theorem Dev.updRegion_pmc (d : Dev) (r : Nat) (f : Region → Region) : (d.updRegion r f).pmc = d.pmc := rfl
@[simp] theorem Dev.updRegion_mbx (d : Dev) (r : Nat) (f : Region → Region) : (d.updRegion r f).mbx = d.mbx := rfl
@[simp] theorem Dev.updRegion_fis (d : Dev) (r : Nat) (f : Region → Region) : (d.updRegion r f).fis = d.fis := rfl
@[simp] theorem Dev.updRegion_upd (d : Dev) (r : Nat) (f : Region → Region) : (d.updRegion r f).upd = d.upd := rfl
@[simp] theorem Dev.updRegion_sec (d : Dev) (r : Nat) (f : Region → Region) : (d.updRegion r f).sec = d.sec := rfl
@[simp] theorem Dev.updRegion_fld (d : Dev) (r : Nat) (f : Region → Region) (g : Fld) : (d.updRegion r f).fld g = d.fld g := by simp [Dev.fld]
@[simp] theorem Dev.updRegion_flag (d : Dev) (r : Nat) (f : Region → Region) (g : Fld) : (d.updRegion r f).flag g = d.flag g := by simp [Dev.flag]

/-! ### `updTag` -/

@[simp] theorem Dev.updTag_beat (d : Dev) (t : Nat) (f : Tag → Tag) : (d.updTag t f).beat = d.beat := rfl
@[simp] theorem Dev.updTag_edges (d : Dev) (t : Nat) (f : Tag → Tag) : (d.updTag t f).edges = d.edges := rfl
@[simp] theorem Dev.updTag_fields (d : Dev) (t : Nat) (f : Tag → Tag) : (d.updTag t f).fields = d.fields := rfl
@[simp] theorem Dev.updTag_wins (d : Dev) (t : Nat) (f : Tag → Tag) : (d.updTag t f).wins = d.wins := rfl
@[simp] theorem Dev.updTag_raised (d : Dev) (t : Nat) (f : Tag → Tag) : (d.updTag t f).raised = d.raised := rfl
@[simp] theorem Dev.updTag_seen (d : Dev) (t : Nat) (f : Tag → Tag) : (d.updTag t f).seen = d.seen := rfl
@[simp] theorem Dev.updTag_marks (d : Dev) (t : Nat) (f : Tag → Tag) : (d.updTag t f).marks = d.marks := rfl
@[simp] theorem Dev.updTag_hwPend (d : Dev) (t : Nat) (f : Tag → Tag) : (d.updTag t f).hwPend = d.hwPend := rfl
@[simp] theorem Dev.updTag_seqPend (d : Dev) (t : Nat) (f : Tag → Tag) : (d.updTag t f).seqPend = d.seqPend := rfl
@[simp] theorem Dev.updTag_free (d : Dev) (t : Nat) (f : Tag → Tag) : (d.updTag t f).free = d.free := rfl
@[simp] theorem Dev.updTag_out (d : Dev) (t : Nat) (f : Tag → Tag) : (d.updTag t f).out = d.out := rfl
@[simp] theorem Dev.updTag_edge (d : Dev) (t : Nat) (f : Tag → Tag) : (d.updTag t f).edge = d.edge := rfl
@[simp] theorem Dev.updTag_ram (d : Dev) (t : Nat) (f : Tag → Tag) : (d.updTag t f).ram = d.ram := rfl
@[simp] theorem Dev.updTag_sync (d : Dev) (t : Nat) (f : Tag → Tag) : (d.updTag t f).sync = d.sync := rfl
@[simp] theorem Dev.updTag_stepPend (d : Dev) (t : Nat) (f : Tag → Tag) : (d.updTag t f).stepPend = d.stepPend := rfl
@[simp] theorem Dev.updTag_jumps (d : Dev) (t : Nat) (f : Tag → Tag) : (d.updTag t f).jumps = d.jumps := rfl
@[simp] theorem Dev.updTag_newEpoch (d : Dev) (t : Nat) (f : Tag → Tag) : (d.updTag t f).newEpoch = d.newEpoch := rfl
@[simp] theorem Dev.updTag_hot (d : Dev) (t : Nat) (f : Tag → Tag) : (d.updTag t f).hot = d.hot := rfl
@[simp] theorem Dev.updTag_slices (d : Dev) (t : Nat) (f : Tag → Tag) : (d.updTag t f).slices = d.slices := rfl
@[simp] theorem Dev.updTag_xpt (d : Dev) (t : Nat) (f : Tag → Tag) : (d.updTag t f).xpt = d.xpt := rfl
@[simp] theorem Dev.updTag_cal (d : Dev) (t : Nat) (f : Tag → Tag) : (d.updTag t f).cal = d.cal := rfl
@[simp] theorem Dev.updTag_mde (d : Dev) (t : Nat) (f : Tag → Tag) : (d.updTag t f).mde = d.mde := rfl
@[simp] theorem Dev.updTag_tph (d : Dev) (t : Nat) (f : Tag → Tag) : (d.updTag t f).tph = d.tph := rfl
@[simp] theorem Dev.updTag_key (d : Dev) (t : Nat) (f : Tag → Tag) : (d.updTag t f).key = d.key := rfl
@[simp] theorem Dev.updTag_lay (d : Dev) (t : Nat) (f : Tag → Tag) : (d.updTag t f).lay = d.lay := rfl
@[simp] theorem Dev.updTag_mdc (d : Dev) (t : Nat) (f : Tag → Tag) : (d.updTag t f).mdc = d.mdc := rfl
@[simp] theorem Dev.updTag_rd (d : Dev) (t : Nat) (f : Tag → Tag) : (d.updTag t f).rd = d.rd := rfl
@[simp] theorem Dev.updTag_drv (d : Dev) (t : Nat) (f : Tag → Tag) : (d.updTag t f).drv = d.drv := rfl
@[simp] theorem Dev.updTag_rep (d : Dev) (t : Nat) (f : Tag → Tag) : (d.updTag t f).rep = d.rep := rfl
@[simp] theorem Dev.updTag_cdx (d : Dev) (t : Nat) (f : Tag → Tag) : (d.updTag t f).cdx = d.cdx := rfl
@[simp] theorem Dev.updTag_fov (d : Dev) (t : Nat) (f : Tag → Tag) : (d.updTag t f).fov = d.fov := rfl
@[simp] theorem Dev.updTag_mem (d : Dev) (t : Nat) (f : Tag → Tag) : (d.updTag t f).mem = d.mem := rfl
@[simp] theorem Dev.updTag_fum (d : Dev) (t : Nat) (f : Tag → Tag) : (d.updTag t f).fum = d.fum := rfl
@[simp] theorem Dev.updTag_pmc (d : Dev) (t : Nat) (f : Tag → Tag) : (d.updTag t f).pmc = d.pmc := rfl
@[simp] theorem Dev.updTag_mbx (d : Dev) (t : Nat) (f : Tag → Tag) : (d.updTag t f).mbx = d.mbx := rfl
@[simp] theorem Dev.updTag_fis (d : Dev) (t : Nat) (f : Tag → Tag) : (d.updTag t f).fis = d.fis := rfl
@[simp] theorem Dev.updTag_upd (d : Dev) (t : Nat) (f : Tag → Tag) : (d.updTag t f).upd = d.upd := rfl
@[simp] theorem Dev.updTag_sec (d : Dev) (t : Nat) (f : Tag → Tag) : (d.updTag t f).sec = d.sec := rfl
@[simp] theorem Dev.updTag_fld (d : Dev) (t : Nat) (f : Tag → Tag) (g : Fld) : (d.updTag t f).fld g = d.fld g := by simp [Dev.fld]
@[simp] theorem Dev.updTag_flag (d : Dev) (t : Nat) (f : Tag → Tag) (g : Fld) : (d.updTag t f).flag g = d.flag g := by simp [Dev.flag]

/-! ### `updVol` -/

@[simp] theorem Dev.updVol_beat (d : Dev) (v : Nat) (f : Namespace → Namespace) : (d.updVol v f).beat = d.beat := rfl
@[simp] theorem Dev.updVol_edges (d : Dev) (v : Nat) (f : Namespace → Namespace) : (d.updVol v f).edges = d.edges := rfl
@[simp] theorem Dev.updVol_fields (d : Dev) (v : Nat) (f : Namespace → Namespace) : (d.updVol v f).fields = d.fields := rfl
@[simp] theorem Dev.updVol_wins (d : Dev) (v : Nat) (f : Namespace → Namespace) : (d.updVol v f).wins = d.wins := rfl
@[simp] theorem Dev.updVol_raised (d : Dev) (v : Nat) (f : Namespace → Namespace) : (d.updVol v f).raised = d.raised := rfl
@[simp] theorem Dev.updVol_seen (d : Dev) (v : Nat) (f : Namespace → Namespace) : (d.updVol v f).seen = d.seen := rfl
@[simp] theorem Dev.updVol_marks (d : Dev) (v : Nat) (f : Namespace → Namespace) : (d.updVol v f).marks = d.marks := rfl
@[simp] theorem Dev.updVol_hwPend (d : Dev) (v : Nat) (f : Namespace → Namespace) : (d.updVol v f).hwPend = d.hwPend := rfl
@[simp] theorem Dev.updVol_seqPend (d : Dev) (v : Nat) (f : Namespace → Namespace) : (d.updVol v f).seqPend = d.seqPend := rfl
@[simp] theorem Dev.updVol_free (d : Dev) (v : Nat) (f : Namespace → Namespace) : (d.updVol v f).free = d.free := rfl
@[simp] theorem Dev.updVol_out (d : Dev) (v : Nat) (f : Namespace → Namespace) : (d.updVol v f).out = d.out := rfl
@[simp] theorem Dev.updVol_edge (d : Dev) (v : Nat) (f : Namespace → Namespace) : (d.updVol v f).edge = d.edge := rfl
@[simp] theorem Dev.updVol_ram (d : Dev) (v : Nat) (f : Namespace → Namespace) : (d.updVol v f).ram = d.ram := rfl
@[simp] theorem Dev.updVol_sync (d : Dev) (v : Nat) (f : Namespace → Namespace) : (d.updVol v f).sync = d.sync := rfl
@[simp] theorem Dev.updVol_stepPend (d : Dev) (v : Nat) (f : Namespace → Namespace) : (d.updVol v f).stepPend = d.stepPend := rfl
@[simp] theorem Dev.updVol_jumps (d : Dev) (v : Nat) (f : Namespace → Namespace) : (d.updVol v f).jumps = d.jumps := rfl
@[simp] theorem Dev.updVol_newEpoch (d : Dev) (v : Nat) (f : Namespace → Namespace) : (d.updVol v f).newEpoch = d.newEpoch := rfl
@[simp] theorem Dev.updVol_hot (d : Dev) (v : Nat) (f : Namespace → Namespace) : (d.updVol v f).hot = d.hot := rfl
@[simp] theorem Dev.updVol_slices (d : Dev) (v : Nat) (f : Namespace → Namespace) : (d.updVol v f).slices = d.slices := rfl
@[simp] theorem Dev.updVol_xpt (d : Dev) (v : Nat) (f : Namespace → Namespace) : (d.updVol v f).xpt = d.xpt := rfl
@[simp] theorem Dev.updVol_cal (d : Dev) (v : Nat) (f : Namespace → Namespace) : (d.updVol v f).cal = d.cal := rfl
@[simp] theorem Dev.updVol_mde (d : Dev) (v : Nat) (f : Namespace → Namespace) : (d.updVol v f).mde = d.mde := rfl
@[simp] theorem Dev.updVol_tph (d : Dev) (v : Nat) (f : Namespace → Namespace) : (d.updVol v f).tph = d.tph := rfl
@[simp] theorem Dev.updVol_key (d : Dev) (v : Nat) (f : Namespace → Namespace) : (d.updVol v f).key = d.key := rfl
@[simp] theorem Dev.updVol_lay (d : Dev) (v : Nat) (f : Namespace → Namespace) : (d.updVol v f).lay = d.lay := rfl
@[simp] theorem Dev.updVol_mdc (d : Dev) (v : Nat) (f : Namespace → Namespace) : (d.updVol v f).mdc = d.mdc := rfl
@[simp] theorem Dev.updVol_rd (d : Dev) (v : Nat) (f : Namespace → Namespace) : (d.updVol v f).rd = d.rd := rfl
@[simp] theorem Dev.updVol_drv (d : Dev) (v : Nat) (f : Namespace → Namespace) : (d.updVol v f).drv = d.drv := rfl
@[simp] theorem Dev.updVol_rep (d : Dev) (v : Nat) (f : Namespace → Namespace) : (d.updVol v f).rep = d.rep := rfl
@[simp] theorem Dev.updVol_cdx (d : Dev) (v : Nat) (f : Namespace → Namespace) : (d.updVol v f).cdx = d.cdx := rfl
@[simp] theorem Dev.updVol_fov (d : Dev) (v : Nat) (f : Namespace → Namespace) : (d.updVol v f).fov = d.fov := rfl
@[simp] theorem Dev.updVol_mem (d : Dev) (v : Nat) (f : Namespace → Namespace) : (d.updVol v f).mem = d.mem := rfl
@[simp] theorem Dev.updVol_fum (d : Dev) (v : Nat) (f : Namespace → Namespace) : (d.updVol v f).fum = d.fum := rfl
@[simp] theorem Dev.updVol_pmc (d : Dev) (v : Nat) (f : Namespace → Namespace) : (d.updVol v f).pmc = d.pmc := rfl
@[simp] theorem Dev.updVol_mbx (d : Dev) (v : Nat) (f : Namespace → Namespace) : (d.updVol v f).mbx = d.mbx := rfl
@[simp] theorem Dev.updVol_fis (d : Dev) (v : Nat) (f : Namespace → Namespace) : (d.updVol v f).fis = d.fis := rfl
@[simp] theorem Dev.updVol_upd (d : Dev) (v : Nat) (f : Namespace → Namespace) : (d.updVol v f).upd = d.upd := rfl
@[simp] theorem Dev.updVol_sec (d : Dev) (v : Nat) (f : Namespace → Namespace) : (d.updVol v f).sec = d.sec := rfl
@[simp] theorem Dev.updVol_fld (d : Dev) (v : Nat) (f : Namespace → Namespace) (g : Fld) : (d.updVol v f).fld g = d.fld g := by simp [Dev.fld]
@[simp] theorem Dev.updVol_flag (d : Dev) (v : Nat) (f : Namespace → Namespace) (g : Fld) : (d.updVol v f).flag g = d.flag g := by simp [Dev.flag]

/-! ### `updSubsys` -/

@[simp] theorem Dev.updSubsys_beat (d : Dev) (i : Nat) (f : Subsys → Subsys) : (d.updSubsys i f).beat = d.beat := rfl
@[simp] theorem Dev.updSubsys_edges (d : Dev) (i : Nat) (f : Subsys → Subsys) : (d.updSubsys i f).edges = d.edges := rfl
@[simp] theorem Dev.updSubsys_fields (d : Dev) (i : Nat) (f : Subsys → Subsys) : (d.updSubsys i f).fields = d.fields := rfl
@[simp] theorem Dev.updSubsys_wins (d : Dev) (i : Nat) (f : Subsys → Subsys) : (d.updSubsys i f).wins = d.wins := rfl
@[simp] theorem Dev.updSubsys_raised (d : Dev) (i : Nat) (f : Subsys → Subsys) : (d.updSubsys i f).raised = d.raised := rfl
@[simp] theorem Dev.updSubsys_seen (d : Dev) (i : Nat) (f : Subsys → Subsys) : (d.updSubsys i f).seen = d.seen := rfl
@[simp] theorem Dev.updSubsys_marks (d : Dev) (i : Nat) (f : Subsys → Subsys) : (d.updSubsys i f).marks = d.marks := rfl
@[simp] theorem Dev.updSubsys_hwPend (d : Dev) (i : Nat) (f : Subsys → Subsys) : (d.updSubsys i f).hwPend = d.hwPend := rfl
@[simp] theorem Dev.updSubsys_seqPend (d : Dev) (i : Nat) (f : Subsys → Subsys) : (d.updSubsys i f).seqPend = d.seqPend := rfl
@[simp] theorem Dev.updSubsys_free (d : Dev) (i : Nat) (f : Subsys → Subsys) : (d.updSubsys i f).free = d.free := rfl
@[simp] theorem Dev.updSubsys_out (d : Dev) (i : Nat) (f : Subsys → Subsys) : (d.updSubsys i f).out = d.out := rfl
@[simp] theorem Dev.updSubsys_edge (d : Dev) (i : Nat) (f : Subsys → Subsys) : (d.updSubsys i f).edge = d.edge := rfl
@[simp] theorem Dev.updSubsys_ram (d : Dev) (i : Nat) (f : Subsys → Subsys) : (d.updSubsys i f).ram = d.ram := rfl
@[simp] theorem Dev.updSubsys_sync (d : Dev) (i : Nat) (f : Subsys → Subsys) : (d.updSubsys i f).sync = d.sync := rfl
@[simp] theorem Dev.updSubsys_stepPend (d : Dev) (i : Nat) (f : Subsys → Subsys) : (d.updSubsys i f).stepPend = d.stepPend := rfl
@[simp] theorem Dev.updSubsys_jumps (d : Dev) (i : Nat) (f : Subsys → Subsys) : (d.updSubsys i f).jumps = d.jumps := rfl
@[simp] theorem Dev.updSubsys_newEpoch (d : Dev) (i : Nat) (f : Subsys → Subsys) : (d.updSubsys i f).newEpoch = d.newEpoch := rfl
@[simp] theorem Dev.updSubsys_hot (d : Dev) (i : Nat) (f : Subsys → Subsys) : (d.updSubsys i f).hot = d.hot := rfl
@[simp] theorem Dev.updSubsys_slices (d : Dev) (i : Nat) (f : Subsys → Subsys) : (d.updSubsys i f).slices = d.slices := rfl
@[simp] theorem Dev.updSubsys_xpt (d : Dev) (i : Nat) (f : Subsys → Subsys) : (d.updSubsys i f).xpt = d.xpt := rfl
@[simp] theorem Dev.updSubsys_cal (d : Dev) (i : Nat) (f : Subsys → Subsys) : (d.updSubsys i f).cal = d.cal := rfl
@[simp] theorem Dev.updSubsys_mde (d : Dev) (i : Nat) (f : Subsys → Subsys) : (d.updSubsys i f).mde = d.mde := rfl
@[simp] theorem Dev.updSubsys_tph (d : Dev) (i : Nat) (f : Subsys → Subsys) : (d.updSubsys i f).tph = d.tph := rfl
@[simp] theorem Dev.updSubsys_key (d : Dev) (i : Nat) (f : Subsys → Subsys) : (d.updSubsys i f).key = d.key := rfl
@[simp] theorem Dev.updSubsys_lay (d : Dev) (i : Nat) (f : Subsys → Subsys) : (d.updSubsys i f).lay = d.lay := rfl
@[simp] theorem Dev.updSubsys_mdc (d : Dev) (i : Nat) (f : Subsys → Subsys) : (d.updSubsys i f).mdc = d.mdc := rfl
@[simp] theorem Dev.updSubsys_rd (d : Dev) (i : Nat) (f : Subsys → Subsys) : (d.updSubsys i f).rd = d.rd := rfl
@[simp] theorem Dev.updSubsys_drv (d : Dev) (i : Nat) (f : Subsys → Subsys) : (d.updSubsys i f).drv = d.drv := rfl
@[simp] theorem Dev.updSubsys_rep (d : Dev) (i : Nat) (f : Subsys → Subsys) : (d.updSubsys i f).rep = d.rep := rfl
@[simp] theorem Dev.updSubsys_cdx (d : Dev) (i : Nat) (f : Subsys → Subsys) : (d.updSubsys i f).cdx = d.cdx := rfl
@[simp] theorem Dev.updSubsys_fov (d : Dev) (i : Nat) (f : Subsys → Subsys) : (d.updSubsys i f).fov = d.fov := rfl
@[simp] theorem Dev.updSubsys_mem (d : Dev) (i : Nat) (f : Subsys → Subsys) : (d.updSubsys i f).mem = d.mem := rfl
@[simp] theorem Dev.updSubsys_fum (d : Dev) (i : Nat) (f : Subsys → Subsys) : (d.updSubsys i f).fum = d.fum := rfl
@[simp] theorem Dev.updSubsys_pmc (d : Dev) (i : Nat) (f : Subsys → Subsys) : (d.updSubsys i f).pmc = d.pmc := rfl
@[simp] theorem Dev.updSubsys_mbx (d : Dev) (i : Nat) (f : Subsys → Subsys) : (d.updSubsys i f).mbx = d.mbx := rfl
@[simp] theorem Dev.updSubsys_fis (d : Dev) (i : Nat) (f : Subsys → Subsys) : (d.updSubsys i f).fis = d.fis := rfl
@[simp] theorem Dev.updSubsys_upd (d : Dev) (i : Nat) (f : Subsys → Subsys) : (d.updSubsys i f).upd = d.upd := rfl
@[simp] theorem Dev.updSubsys_sec (d : Dev) (i : Nat) (f : Subsys → Subsys) : (d.updSubsys i f).sec = d.sec := rfl
@[simp] theorem Dev.updSubsys_fld (d : Dev) (i : Nat) (f : Subsys → Subsys) (g : Fld) : (d.updSubsys i f).fld g = d.fld g := by simp [Dev.fld]
@[simp] theorem Dev.updSubsys_flag (d : Dev) (i : Nat) (f : Subsys → Subsys) (g : Fld) : (d.updSubsys i f).flag g = d.flag g := by simp [Dev.flag]

/-! ### `updCtrl` -/

@[simp] theorem Dev.updCtrl_beat (d : Dev) (c : Nat) (f : Ctrl → Ctrl) : (d.updCtrl c f).beat = d.beat := rfl
@[simp] theorem Dev.updCtrl_edges (d : Dev) (c : Nat) (f : Ctrl → Ctrl) : (d.updCtrl c f).edges = d.edges := rfl
@[simp] theorem Dev.updCtrl_fields (d : Dev) (c : Nat) (f : Ctrl → Ctrl) : (d.updCtrl c f).fields = d.fields := rfl
@[simp] theorem Dev.updCtrl_wins (d : Dev) (c : Nat) (f : Ctrl → Ctrl) : (d.updCtrl c f).wins = d.wins := rfl
@[simp] theorem Dev.updCtrl_raised (d : Dev) (c : Nat) (f : Ctrl → Ctrl) : (d.updCtrl c f).raised = d.raised := rfl
@[simp] theorem Dev.updCtrl_seen (d : Dev) (c : Nat) (f : Ctrl → Ctrl) : (d.updCtrl c f).seen = d.seen := rfl
@[simp] theorem Dev.updCtrl_marks (d : Dev) (c : Nat) (f : Ctrl → Ctrl) : (d.updCtrl c f).marks = d.marks := rfl
@[simp] theorem Dev.updCtrl_hwPend (d : Dev) (c : Nat) (f : Ctrl → Ctrl) : (d.updCtrl c f).hwPend = d.hwPend := rfl
@[simp] theorem Dev.updCtrl_seqPend (d : Dev) (c : Nat) (f : Ctrl → Ctrl) : (d.updCtrl c f).seqPend = d.seqPend := rfl
@[simp] theorem Dev.updCtrl_free (d : Dev) (c : Nat) (f : Ctrl → Ctrl) : (d.updCtrl c f).free = d.free := rfl
@[simp] theorem Dev.updCtrl_out (d : Dev) (c : Nat) (f : Ctrl → Ctrl) : (d.updCtrl c f).out = d.out := rfl
@[simp] theorem Dev.updCtrl_edge (d : Dev) (c : Nat) (f : Ctrl → Ctrl) : (d.updCtrl c f).edge = d.edge := rfl
@[simp] theorem Dev.updCtrl_ram (d : Dev) (c : Nat) (f : Ctrl → Ctrl) : (d.updCtrl c f).ram = d.ram := rfl
@[simp] theorem Dev.updCtrl_sync (d : Dev) (c : Nat) (f : Ctrl → Ctrl) : (d.updCtrl c f).sync = d.sync := rfl
@[simp] theorem Dev.updCtrl_stepPend (d : Dev) (c : Nat) (f : Ctrl → Ctrl) : (d.updCtrl c f).stepPend = d.stepPend := rfl
@[simp] theorem Dev.updCtrl_jumps (d : Dev) (c : Nat) (f : Ctrl → Ctrl) : (d.updCtrl c f).jumps = d.jumps := rfl
@[simp] theorem Dev.updCtrl_newEpoch (d : Dev) (c : Nat) (f : Ctrl → Ctrl) : (d.updCtrl c f).newEpoch = d.newEpoch := rfl
@[simp] theorem Dev.updCtrl_hot (d : Dev) (c : Nat) (f : Ctrl → Ctrl) : (d.updCtrl c f).hot = d.hot := rfl
@[simp] theorem Dev.updCtrl_slices (d : Dev) (c : Nat) (f : Ctrl → Ctrl) : (d.updCtrl c f).slices = d.slices := rfl
@[simp] theorem Dev.updCtrl_xpt (d : Dev) (c : Nat) (f : Ctrl → Ctrl) : (d.updCtrl c f).xpt = d.xpt := rfl
@[simp] theorem Dev.updCtrl_cal (d : Dev) (c : Nat) (f : Ctrl → Ctrl) : (d.updCtrl c f).cal = d.cal := rfl
@[simp] theorem Dev.updCtrl_mde (d : Dev) (c : Nat) (f : Ctrl → Ctrl) : (d.updCtrl c f).mde = d.mde := rfl
@[simp] theorem Dev.updCtrl_tph (d : Dev) (c : Nat) (f : Ctrl → Ctrl) : (d.updCtrl c f).tph = d.tph := rfl
@[simp] theorem Dev.updCtrl_key (d : Dev) (c : Nat) (f : Ctrl → Ctrl) : (d.updCtrl c f).key = d.key := rfl
@[simp] theorem Dev.updCtrl_lay (d : Dev) (c : Nat) (f : Ctrl → Ctrl) : (d.updCtrl c f).lay = d.lay := rfl
@[simp] theorem Dev.updCtrl_mdc (d : Dev) (c : Nat) (f : Ctrl → Ctrl) : (d.updCtrl c f).mdc = d.mdc := rfl
@[simp] theorem Dev.updCtrl_rd (d : Dev) (c : Nat) (f : Ctrl → Ctrl) : (d.updCtrl c f).rd = d.rd := rfl
@[simp] theorem Dev.updCtrl_drv (d : Dev) (c : Nat) (f : Ctrl → Ctrl) : (d.updCtrl c f).drv = d.drv := rfl
@[simp] theorem Dev.updCtrl_rep (d : Dev) (c : Nat) (f : Ctrl → Ctrl) : (d.updCtrl c f).rep = d.rep := rfl
@[simp] theorem Dev.updCtrl_cdx (d : Dev) (c : Nat) (f : Ctrl → Ctrl) : (d.updCtrl c f).cdx = d.cdx := rfl
@[simp] theorem Dev.updCtrl_fov (d : Dev) (c : Nat) (f : Ctrl → Ctrl) : (d.updCtrl c f).fov = d.fov := rfl
@[simp] theorem Dev.updCtrl_mem (d : Dev) (c : Nat) (f : Ctrl → Ctrl) : (d.updCtrl c f).mem = d.mem := rfl
@[simp] theorem Dev.updCtrl_fum (d : Dev) (c : Nat) (f : Ctrl → Ctrl) : (d.updCtrl c f).fum = d.fum := rfl
@[simp] theorem Dev.updCtrl_pmc (d : Dev) (c : Nat) (f : Ctrl → Ctrl) : (d.updCtrl c f).pmc = d.pmc := rfl
@[simp] theorem Dev.updCtrl_mbx (d : Dev) (c : Nat) (f : Ctrl → Ctrl) : (d.updCtrl c f).mbx = d.mbx := rfl
@[simp] theorem Dev.updCtrl_fis (d : Dev) (c : Nat) (f : Ctrl → Ctrl) : (d.updCtrl c f).fis = d.fis := rfl
@[simp] theorem Dev.updCtrl_upd (d : Dev) (c : Nat) (f : Ctrl → Ctrl) : (d.updCtrl c f).upd = d.upd := rfl
@[simp] theorem Dev.updCtrl_sec (d : Dev) (c : Nat) (f : Ctrl → Ctrl) : (d.updCtrl c f).sec = d.sec := rfl
@[simp] theorem Dev.updCtrl_fld (d : Dev) (c : Nat) (f : Ctrl → Ctrl) (g : Fld) : (d.updCtrl c f).fld g = d.fld g := by simp [Dev.fld]
@[simp] theorem Dev.updCtrl_flag (d : Dev) (c : Nat) (f : Ctrl → Ctrl) (g : Fld) : (d.updCtrl c f).flag g = d.flag g := by simp [Dev.flag]

/-! ### `updBind` -/

@[simp] theorem Dev.updBind_beat (d : Dev) (q : Nat) (f : QpBind → QpBind) : (d.updBind q f).beat = d.beat := rfl
@[simp] theorem Dev.updBind_edges (d : Dev) (q : Nat) (f : QpBind → QpBind) : (d.updBind q f).edges = d.edges := rfl
@[simp] theorem Dev.updBind_fields (d : Dev) (q : Nat) (f : QpBind → QpBind) : (d.updBind q f).fields = d.fields := rfl
@[simp] theorem Dev.updBind_wins (d : Dev) (q : Nat) (f : QpBind → QpBind) : (d.updBind q f).wins = d.wins := rfl
@[simp] theorem Dev.updBind_raised (d : Dev) (q : Nat) (f : QpBind → QpBind) : (d.updBind q f).raised = d.raised := rfl
@[simp] theorem Dev.updBind_seen (d : Dev) (q : Nat) (f : QpBind → QpBind) : (d.updBind q f).seen = d.seen := rfl
@[simp] theorem Dev.updBind_marks (d : Dev) (q : Nat) (f : QpBind → QpBind) : (d.updBind q f).marks = d.marks := rfl
@[simp] theorem Dev.updBind_hwPend (d : Dev) (q : Nat) (f : QpBind → QpBind) : (d.updBind q f).hwPend = d.hwPend := rfl
@[simp] theorem Dev.updBind_seqPend (d : Dev) (q : Nat) (f : QpBind → QpBind) : (d.updBind q f).seqPend = d.seqPend := rfl
@[simp] theorem Dev.updBind_free (d : Dev) (q : Nat) (f : QpBind → QpBind) : (d.updBind q f).free = d.free := rfl
@[simp] theorem Dev.updBind_out (d : Dev) (q : Nat) (f : QpBind → QpBind) : (d.updBind q f).out = d.out := rfl
@[simp] theorem Dev.updBind_edge (d : Dev) (q : Nat) (f : QpBind → QpBind) : (d.updBind q f).edge = d.edge := rfl
@[simp] theorem Dev.updBind_ram (d : Dev) (q : Nat) (f : QpBind → QpBind) : (d.updBind q f).ram = d.ram := rfl
@[simp] theorem Dev.updBind_sync (d : Dev) (q : Nat) (f : QpBind → QpBind) : (d.updBind q f).sync = d.sync := rfl
@[simp] theorem Dev.updBind_stepPend (d : Dev) (q : Nat) (f : QpBind → QpBind) : (d.updBind q f).stepPend = d.stepPend := rfl
@[simp] theorem Dev.updBind_jumps (d : Dev) (q : Nat) (f : QpBind → QpBind) : (d.updBind q f).jumps = d.jumps := rfl
@[simp] theorem Dev.updBind_newEpoch (d : Dev) (q : Nat) (f : QpBind → QpBind) : (d.updBind q f).newEpoch = d.newEpoch := rfl
@[simp] theorem Dev.updBind_hot (d : Dev) (q : Nat) (f : QpBind → QpBind) : (d.updBind q f).hot = d.hot := rfl
@[simp] theorem Dev.updBind_slices (d : Dev) (q : Nat) (f : QpBind → QpBind) : (d.updBind q f).slices = d.slices := rfl
@[simp] theorem Dev.updBind_xpt (d : Dev) (q : Nat) (f : QpBind → QpBind) : (d.updBind q f).xpt = d.xpt := rfl
@[simp] theorem Dev.updBind_cal (d : Dev) (q : Nat) (f : QpBind → QpBind) : (d.updBind q f).cal = d.cal := rfl
@[simp] theorem Dev.updBind_mde (d : Dev) (q : Nat) (f : QpBind → QpBind) : (d.updBind q f).mde = d.mde := rfl
@[simp] theorem Dev.updBind_tph (d : Dev) (q : Nat) (f : QpBind → QpBind) : (d.updBind q f).tph = d.tph := rfl
@[simp] theorem Dev.updBind_key (d : Dev) (q : Nat) (f : QpBind → QpBind) : (d.updBind q f).key = d.key := rfl
@[simp] theorem Dev.updBind_lay (d : Dev) (q : Nat) (f : QpBind → QpBind) : (d.updBind q f).lay = d.lay := rfl
@[simp] theorem Dev.updBind_mdc (d : Dev) (q : Nat) (f : QpBind → QpBind) : (d.updBind q f).mdc = d.mdc := rfl
@[simp] theorem Dev.updBind_rd (d : Dev) (q : Nat) (f : QpBind → QpBind) : (d.updBind q f).rd = d.rd := rfl
@[simp] theorem Dev.updBind_drv (d : Dev) (q : Nat) (f : QpBind → QpBind) : (d.updBind q f).drv = d.drv := rfl
@[simp] theorem Dev.updBind_rep (d : Dev) (q : Nat) (f : QpBind → QpBind) : (d.updBind q f).rep = d.rep := rfl
@[simp] theorem Dev.updBind_cdx (d : Dev) (q : Nat) (f : QpBind → QpBind) : (d.updBind q f).cdx = d.cdx := rfl
@[simp] theorem Dev.updBind_fov (d : Dev) (q : Nat) (f : QpBind → QpBind) : (d.updBind q f).fov = d.fov := rfl
@[simp] theorem Dev.updBind_mem (d : Dev) (q : Nat) (f : QpBind → QpBind) : (d.updBind q f).mem = d.mem := rfl
@[simp] theorem Dev.updBind_fum (d : Dev) (q : Nat) (f : QpBind → QpBind) : (d.updBind q f).fum = d.fum := rfl
@[simp] theorem Dev.updBind_pmc (d : Dev) (q : Nat) (f : QpBind → QpBind) : (d.updBind q f).pmc = d.pmc := rfl
@[simp] theorem Dev.updBind_mbx (d : Dev) (q : Nat) (f : QpBind → QpBind) : (d.updBind q f).mbx = d.mbx := rfl
@[simp] theorem Dev.updBind_fis (d : Dev) (q : Nat) (f : QpBind → QpBind) : (d.updBind q f).fis = d.fis := rfl
@[simp] theorem Dev.updBind_upd (d : Dev) (q : Nat) (f : QpBind → QpBind) : (d.updBind q f).upd = d.upd := rfl
@[simp] theorem Dev.updBind_sec (d : Dev) (q : Nat) (f : QpBind → QpBind) : (d.updBind q f).sec = d.sec := rfl
@[simp] theorem Dev.updBind_fld (d : Dev) (q : Nat) (f : QpBind → QpBind) (g : Fld) : (d.updBind q f).fld g = d.fld g := by simp [Dev.fld]
@[simp] theorem Dev.updBind_flag (d : Dev) (q : Nat) (f : QpBind → QpBind) (g : Fld) : (d.updBind q f).flag g = d.flag g := by simp [Dev.flag]

/-! ### `updDir` -/

@[simp] theorem Dev.updDir_beat (d : Dev) (s idx : Nat) (f : DirEntry → DirEntry) : (d.updDir s idx f).beat = d.beat := rfl
@[simp] theorem Dev.updDir_edges (d : Dev) (s idx : Nat) (f : DirEntry → DirEntry) : (d.updDir s idx f).edges = d.edges := rfl
@[simp] theorem Dev.updDir_fields (d : Dev) (s idx : Nat) (f : DirEntry → DirEntry) : (d.updDir s idx f).fields = d.fields := rfl
@[simp] theorem Dev.updDir_wins (d : Dev) (s idx : Nat) (f : DirEntry → DirEntry) : (d.updDir s idx f).wins = d.wins := rfl
@[simp] theorem Dev.updDir_raised (d : Dev) (s idx : Nat) (f : DirEntry → DirEntry) : (d.updDir s idx f).raised = d.raised := rfl
@[simp] theorem Dev.updDir_seen (d : Dev) (s idx : Nat) (f : DirEntry → DirEntry) : (d.updDir s idx f).seen = d.seen := rfl
@[simp] theorem Dev.updDir_marks (d : Dev) (s idx : Nat) (f : DirEntry → DirEntry) : (d.updDir s idx f).marks = d.marks := rfl
@[simp] theorem Dev.updDir_hwPend (d : Dev) (s idx : Nat) (f : DirEntry → DirEntry) : (d.updDir s idx f).hwPend = d.hwPend := rfl
@[simp] theorem Dev.updDir_seqPend (d : Dev) (s idx : Nat) (f : DirEntry → DirEntry) : (d.updDir s idx f).seqPend = d.seqPend := rfl
@[simp] theorem Dev.updDir_free (d : Dev) (s idx : Nat) (f : DirEntry → DirEntry) : (d.updDir s idx f).free = d.free := rfl
@[simp] theorem Dev.updDir_out (d : Dev) (s idx : Nat) (f : DirEntry → DirEntry) : (d.updDir s idx f).out = d.out := rfl
@[simp] theorem Dev.updDir_edge (d : Dev) (s idx : Nat) (f : DirEntry → DirEntry) : (d.updDir s idx f).edge = d.edge := rfl
@[simp] theorem Dev.updDir_ram (d : Dev) (s idx : Nat) (f : DirEntry → DirEntry) : (d.updDir s idx f).ram = d.ram := rfl
@[simp] theorem Dev.updDir_sync (d : Dev) (s idx : Nat) (f : DirEntry → DirEntry) : (d.updDir s idx f).sync = d.sync := rfl
@[simp] theorem Dev.updDir_stepPend (d : Dev) (s idx : Nat) (f : DirEntry → DirEntry) : (d.updDir s idx f).stepPend = d.stepPend := rfl
@[simp] theorem Dev.updDir_jumps (d : Dev) (s idx : Nat) (f : DirEntry → DirEntry) : (d.updDir s idx f).jumps = d.jumps := rfl
@[simp] theorem Dev.updDir_newEpoch (d : Dev) (s idx : Nat) (f : DirEntry → DirEntry) : (d.updDir s idx f).newEpoch = d.newEpoch := rfl
@[simp] theorem Dev.updDir_hot (d : Dev) (s idx : Nat) (f : DirEntry → DirEntry) : (d.updDir s idx f).hot = d.hot := rfl
@[simp] theorem Dev.updDir_slices (d : Dev) (s idx : Nat) (f : DirEntry → DirEntry) : (d.updDir s idx f).slices = d.slices := rfl
@[simp] theorem Dev.updDir_xpt (d : Dev) (s idx : Nat) (f : DirEntry → DirEntry) : (d.updDir s idx f).xpt = d.xpt := rfl
@[simp] theorem Dev.updDir_nvt (d : Dev) (s idx : Nat) (f : DirEntry → DirEntry) : (d.updDir s idx f).nvt = d.nvt := rfl
@[simp] theorem Dev.updDir_mde (d : Dev) (s idx : Nat) (f : DirEntry → DirEntry) : (d.updDir s idx f).mde = d.mde := rfl
@[simp] theorem Dev.updDir_tph (d : Dev) (s idx : Nat) (f : DirEntry → DirEntry) : (d.updDir s idx f).tph = d.tph := rfl
@[simp] theorem Dev.updDir_key (d : Dev) (s idx : Nat) (f : DirEntry → DirEntry) : (d.updDir s idx f).key = d.key := rfl
@[simp] theorem Dev.updDir_lay (d : Dev) (s idx : Nat) (f : DirEntry → DirEntry) : (d.updDir s idx f).lay = d.lay := rfl
@[simp] theorem Dev.updDir_mdc (d : Dev) (s idx : Nat) (f : DirEntry → DirEntry) : (d.updDir s idx f).mdc = d.mdc := rfl
@[simp] theorem Dev.updDir_rd (d : Dev) (s idx : Nat) (f : DirEntry → DirEntry) : (d.updDir s idx f).rd = d.rd := rfl
@[simp] theorem Dev.updDir_drv (d : Dev) (s idx : Nat) (f : DirEntry → DirEntry) : (d.updDir s idx f).drv = d.drv := rfl
@[simp] theorem Dev.updDir_rep (d : Dev) (s idx : Nat) (f : DirEntry → DirEntry) : (d.updDir s idx f).rep = d.rep := rfl
@[simp] theorem Dev.updDir_cdx (d : Dev) (s idx : Nat) (f : DirEntry → DirEntry) : (d.updDir s idx f).cdx = d.cdx := rfl
@[simp] theorem Dev.updDir_fov (d : Dev) (s idx : Nat) (f : DirEntry → DirEntry) : (d.updDir s idx f).fov = d.fov := rfl
@[simp] theorem Dev.updDir_mem (d : Dev) (s idx : Nat) (f : DirEntry → DirEntry) : (d.updDir s idx f).mem = d.mem := rfl
@[simp] theorem Dev.updDir_fum (d : Dev) (s idx : Nat) (f : DirEntry → DirEntry) : (d.updDir s idx f).fum = d.fum := rfl
@[simp] theorem Dev.updDir_pmc (d : Dev) (s idx : Nat) (f : DirEntry → DirEntry) : (d.updDir s idx f).pmc = d.pmc := rfl
@[simp] theorem Dev.updDir_mbx (d : Dev) (s idx : Nat) (f : DirEntry → DirEntry) : (d.updDir s idx f).mbx = d.mbx := rfl
@[simp] theorem Dev.updDir_fis (d : Dev) (s idx : Nat) (f : DirEntry → DirEntry) : (d.updDir s idx f).fis = d.fis := rfl
@[simp] theorem Dev.updDir_upd (d : Dev) (s idx : Nat) (f : DirEntry → DirEntry) : (d.updDir s idx f).upd = d.upd := rfl
@[simp] theorem Dev.updDir_sec (d : Dev) (s idx : Nat) (f : DirEntry → DirEntry) : (d.updDir s idx f).sec = d.sec := rfl
@[simp] theorem Dev.updDir_fld (d : Dev) (s idx : Nat) (f : DirEntry → DirEntry) (g : Fld) : (d.updDir s idx f).fld g = d.fld g := by simp [Dev.fld]
@[simp] theorem Dev.updDir_flag (d : Dev) (s idx : Nat) (f : DirEntry → DirEntry) (g : Fld) : (d.updDir s idx f).flag g = d.flag g := by simp [Dev.flag]

/-! ### `updPage` -/

@[simp] theorem Dev.updPage_beat (d : Dev) (p : Nat) (f : MapPage → MapPage) : (d.updPage p f).beat = d.beat := rfl
@[simp] theorem Dev.updPage_edges (d : Dev) (p : Nat) (f : MapPage → MapPage) : (d.updPage p f).edges = d.edges := rfl
@[simp] theorem Dev.updPage_fields (d : Dev) (p : Nat) (f : MapPage → MapPage) : (d.updPage p f).fields = d.fields := rfl
@[simp] theorem Dev.updPage_wins (d : Dev) (p : Nat) (f : MapPage → MapPage) : (d.updPage p f).wins = d.wins := rfl
@[simp] theorem Dev.updPage_raised (d : Dev) (p : Nat) (f : MapPage → MapPage) : (d.updPage p f).raised = d.raised := rfl
@[simp] theorem Dev.updPage_seen (d : Dev) (p : Nat) (f : MapPage → MapPage) : (d.updPage p f).seen = d.seen := rfl
@[simp] theorem Dev.updPage_marks (d : Dev) (p : Nat) (f : MapPage → MapPage) : (d.updPage p f).marks = d.marks := rfl
@[simp] theorem Dev.updPage_hwPend (d : Dev) (p : Nat) (f : MapPage → MapPage) : (d.updPage p f).hwPend = d.hwPend := rfl
@[simp] theorem Dev.updPage_seqPend (d : Dev) (p : Nat) (f : MapPage → MapPage) : (d.updPage p f).seqPend = d.seqPend := rfl
@[simp] theorem Dev.updPage_free (d : Dev) (p : Nat) (f : MapPage → MapPage) : (d.updPage p f).free = d.free := rfl
@[simp] theorem Dev.updPage_out (d : Dev) (p : Nat) (f : MapPage → MapPage) : (d.updPage p f).out = d.out := rfl
@[simp] theorem Dev.updPage_edge (d : Dev) (p : Nat) (f : MapPage → MapPage) : (d.updPage p f).edge = d.edge := rfl
@[simp] theorem Dev.updPage_ram (d : Dev) (p : Nat) (f : MapPage → MapPage) : (d.updPage p f).ram = d.ram := rfl
@[simp] theorem Dev.updPage_sync (d : Dev) (p : Nat) (f : MapPage → MapPage) : (d.updPage p f).sync = d.sync := rfl
@[simp] theorem Dev.updPage_stepPend (d : Dev) (p : Nat) (f : MapPage → MapPage) : (d.updPage p f).stepPend = d.stepPend := rfl
@[simp] theorem Dev.updPage_jumps (d : Dev) (p : Nat) (f : MapPage → MapPage) : (d.updPage p f).jumps = d.jumps := rfl
@[simp] theorem Dev.updPage_newEpoch (d : Dev) (p : Nat) (f : MapPage → MapPage) : (d.updPage p f).newEpoch = d.newEpoch := rfl
@[simp] theorem Dev.updPage_hot (d : Dev) (p : Nat) (f : MapPage → MapPage) : (d.updPage p f).hot = d.hot := rfl
@[simp] theorem Dev.updPage_slices (d : Dev) (p : Nat) (f : MapPage → MapPage) : (d.updPage p f).slices = d.slices := rfl
@[simp] theorem Dev.updPage_xpt (d : Dev) (p : Nat) (f : MapPage → MapPage) : (d.updPage p f).xpt = d.xpt := rfl
@[simp] theorem Dev.updPage_nvt (d : Dev) (p : Nat) (f : MapPage → MapPage) : (d.updPage p f).nvt = d.nvt := rfl
@[simp] theorem Dev.updPage_cal (d : Dev) (p : Nat) (f : MapPage → MapPage) : (d.updPage p f).cal = d.cal := rfl
@[simp] theorem Dev.updPage_tph (d : Dev) (p : Nat) (f : MapPage → MapPage) : (d.updPage p f).tph = d.tph := rfl
@[simp] theorem Dev.updPage_key (d : Dev) (p : Nat) (f : MapPage → MapPage) : (d.updPage p f).key = d.key := rfl
@[simp] theorem Dev.updPage_lay (d : Dev) (p : Nat) (f : MapPage → MapPage) : (d.updPage p f).lay = d.lay := rfl
@[simp] theorem Dev.updPage_mdc (d : Dev) (p : Nat) (f : MapPage → MapPage) : (d.updPage p f).mdc = d.mdc := rfl
@[simp] theorem Dev.updPage_rd (d : Dev) (p : Nat) (f : MapPage → MapPage) : (d.updPage p f).rd = d.rd := rfl
@[simp] theorem Dev.updPage_drv (d : Dev) (p : Nat) (f : MapPage → MapPage) : (d.updPage p f).drv = d.drv := rfl
@[simp] theorem Dev.updPage_rep (d : Dev) (p : Nat) (f : MapPage → MapPage) : (d.updPage p f).rep = d.rep := rfl
@[simp] theorem Dev.updPage_cdx (d : Dev) (p : Nat) (f : MapPage → MapPage) : (d.updPage p f).cdx = d.cdx := rfl
@[simp] theorem Dev.updPage_fov (d : Dev) (p : Nat) (f : MapPage → MapPage) : (d.updPage p f).fov = d.fov := rfl
@[simp] theorem Dev.updPage_mem (d : Dev) (p : Nat) (f : MapPage → MapPage) : (d.updPage p f).mem = d.mem := rfl
@[simp] theorem Dev.updPage_fum (d : Dev) (p : Nat) (f : MapPage → MapPage) : (d.updPage p f).fum = d.fum := rfl
@[simp] theorem Dev.updPage_pmc (d : Dev) (p : Nat) (f : MapPage → MapPage) : (d.updPage p f).pmc = d.pmc := rfl
@[simp] theorem Dev.updPage_mbx (d : Dev) (p : Nat) (f : MapPage → MapPage) : (d.updPage p f).mbx = d.mbx := rfl
@[simp] theorem Dev.updPage_fis (d : Dev) (p : Nat) (f : MapPage → MapPage) : (d.updPage p f).fis = d.fis := rfl
@[simp] theorem Dev.updPage_upd (d : Dev) (p : Nat) (f : MapPage → MapPage) : (d.updPage p f).upd = d.upd := rfl
@[simp] theorem Dev.updPage_sec (d : Dev) (p : Nat) (f : MapPage → MapPage) : (d.updPage p f).sec = d.sec := rfl
@[simp] theorem Dev.updPage_fld (d : Dev) (p : Nat) (f : MapPage → MapPage) (g : Fld) : (d.updPage p f).fld g = d.fld g := by simp [Dev.fld]
@[simp] theorem Dev.updPage_flag (d : Dev) (p : Nat) (f : MapPage → MapPage) (g : Fld) : (d.updPage p f).flag g = d.flag g := by simp [Dev.flag]

/-! ### `updTree` -/

@[simp] theorem Dev.updTree_beat (d : Dev) (t : Nat) (f : Tree → Tree) : (d.updTree t f).beat = d.beat := rfl
@[simp] theorem Dev.updTree_edges (d : Dev) (t : Nat) (f : Tree → Tree) : (d.updTree t f).edges = d.edges := rfl
@[simp] theorem Dev.updTree_fields (d : Dev) (t : Nat) (f : Tree → Tree) : (d.updTree t f).fields = d.fields := rfl
@[simp] theorem Dev.updTree_wins (d : Dev) (t : Nat) (f : Tree → Tree) : (d.updTree t f).wins = d.wins := rfl
@[simp] theorem Dev.updTree_raised (d : Dev) (t : Nat) (f : Tree → Tree) : (d.updTree t f).raised = d.raised := rfl
@[simp] theorem Dev.updTree_seen (d : Dev) (t : Nat) (f : Tree → Tree) : (d.updTree t f).seen = d.seen := rfl
@[simp] theorem Dev.updTree_marks (d : Dev) (t : Nat) (f : Tree → Tree) : (d.updTree t f).marks = d.marks := rfl
@[simp] theorem Dev.updTree_hwPend (d : Dev) (t : Nat) (f : Tree → Tree) : (d.updTree t f).hwPend = d.hwPend := rfl
@[simp] theorem Dev.updTree_seqPend (d : Dev) (t : Nat) (f : Tree → Tree) : (d.updTree t f).seqPend = d.seqPend := rfl
@[simp] theorem Dev.updTree_free (d : Dev) (t : Nat) (f : Tree → Tree) : (d.updTree t f).free = d.free := rfl
@[simp] theorem Dev.updTree_out (d : Dev) (t : Nat) (f : Tree → Tree) : (d.updTree t f).out = d.out := rfl
@[simp] theorem Dev.updTree_edge (d : Dev) (t : Nat) (f : Tree → Tree) : (d.updTree t f).edge = d.edge := rfl
@[simp] theorem Dev.updTree_ram (d : Dev) (t : Nat) (f : Tree → Tree) : (d.updTree t f).ram = d.ram := rfl
@[simp] theorem Dev.updTree_sync (d : Dev) (t : Nat) (f : Tree → Tree) : (d.updTree t f).sync = d.sync := rfl
@[simp] theorem Dev.updTree_stepPend (d : Dev) (t : Nat) (f : Tree → Tree) : (d.updTree t f).stepPend = d.stepPend := rfl
@[simp] theorem Dev.updTree_jumps (d : Dev) (t : Nat) (f : Tree → Tree) : (d.updTree t f).jumps = d.jumps := rfl
@[simp] theorem Dev.updTree_newEpoch (d : Dev) (t : Nat) (f : Tree → Tree) : (d.updTree t f).newEpoch = d.newEpoch := rfl
@[simp] theorem Dev.updTree_hot (d : Dev) (t : Nat) (f : Tree → Tree) : (d.updTree t f).hot = d.hot := rfl
@[simp] theorem Dev.updTree_slices (d : Dev) (t : Nat) (f : Tree → Tree) : (d.updTree t f).slices = d.slices := rfl
@[simp] theorem Dev.updTree_xpt (d : Dev) (t : Nat) (f : Tree → Tree) : (d.updTree t f).xpt = d.xpt := rfl
@[simp] theorem Dev.updTree_nvt (d : Dev) (t : Nat) (f : Tree → Tree) : (d.updTree t f).nvt = d.nvt := rfl
@[simp] theorem Dev.updTree_cal (d : Dev) (t : Nat) (f : Tree → Tree) : (d.updTree t f).cal = d.cal := rfl
@[simp] theorem Dev.updTree_tph (d : Dev) (t : Nat) (f : Tree → Tree) : (d.updTree t f).tph = d.tph := rfl
@[simp] theorem Dev.updTree_key (d : Dev) (t : Nat) (f : Tree → Tree) : (d.updTree t f).key = d.key := rfl
@[simp] theorem Dev.updTree_lay (d : Dev) (t : Nat) (f : Tree → Tree) : (d.updTree t f).lay = d.lay := rfl
@[simp] theorem Dev.updTree_mdc (d : Dev) (t : Nat) (f : Tree → Tree) : (d.updTree t f).mdc = d.mdc := rfl
@[simp] theorem Dev.updTree_rd (d : Dev) (t : Nat) (f : Tree → Tree) : (d.updTree t f).rd = d.rd := rfl
@[simp] theorem Dev.updTree_drv (d : Dev) (t : Nat) (f : Tree → Tree) : (d.updTree t f).drv = d.drv := rfl
@[simp] theorem Dev.updTree_rep (d : Dev) (t : Nat) (f : Tree → Tree) : (d.updTree t f).rep = d.rep := rfl
@[simp] theorem Dev.updTree_cdx (d : Dev) (t : Nat) (f : Tree → Tree) : (d.updTree t f).cdx = d.cdx := rfl
@[simp] theorem Dev.updTree_fov (d : Dev) (t : Nat) (f : Tree → Tree) : (d.updTree t f).fov = d.fov := rfl
@[simp] theorem Dev.updTree_mem (d : Dev) (t : Nat) (f : Tree → Tree) : (d.updTree t f).mem = d.mem := rfl
@[simp] theorem Dev.updTree_fum (d : Dev) (t : Nat) (f : Tree → Tree) : (d.updTree t f).fum = d.fum := rfl
@[simp] theorem Dev.updTree_pmc (d : Dev) (t : Nat) (f : Tree → Tree) : (d.updTree t f).pmc = d.pmc := rfl
@[simp] theorem Dev.updTree_mbx (d : Dev) (t : Nat) (f : Tree → Tree) : (d.updTree t f).mbx = d.mbx := rfl
@[simp] theorem Dev.updTree_fis (d : Dev) (t : Nat) (f : Tree → Tree) : (d.updTree t f).fis = d.fis := rfl
@[simp] theorem Dev.updTree_upd (d : Dev) (t : Nat) (f : Tree → Tree) : (d.updTree t f).upd = d.upd := rfl
@[simp] theorem Dev.updTree_sec (d : Dev) (t : Nat) (f : Tree → Tree) : (d.updTree t f).sec = d.sec := rfl
@[simp] theorem Dev.updTree_fld (d : Dev) (t : Nat) (f : Tree → Tree) (g : Fld) : (d.updTree t f).fld g = d.fld g := by simp [Dev.fld]
@[simp] theorem Dev.updTree_flag (d : Dev) (t : Nat) (f : Tree → Tree) (g : Fld) : (d.updTree t f).flag g = d.flag g := by simp [Dev.flag]

/-! ### `updGrec` -/

@[simp] theorem Dev.updGrec_beat (d : Dev) (r : Nat) (f : GrainRec → GrainRec) : (d.updGrec r f).beat = d.beat := rfl
@[simp] theorem Dev.updGrec_edges (d : Dev) (r : Nat) (f : GrainRec → GrainRec) : (d.updGrec r f).edges = d.edges := rfl
@[simp] theorem Dev.updGrec_fields (d : Dev) (r : Nat) (f : GrainRec → GrainRec) : (d.updGrec r f).fields = d.fields := rfl
@[simp] theorem Dev.updGrec_wins (d : Dev) (r : Nat) (f : GrainRec → GrainRec) : (d.updGrec r f).wins = d.wins := rfl
@[simp] theorem Dev.updGrec_raised (d : Dev) (r : Nat) (f : GrainRec → GrainRec) : (d.updGrec r f).raised = d.raised := rfl
@[simp] theorem Dev.updGrec_seen (d : Dev) (r : Nat) (f : GrainRec → GrainRec) : (d.updGrec r f).seen = d.seen := rfl
@[simp] theorem Dev.updGrec_marks (d : Dev) (r : Nat) (f : GrainRec → GrainRec) : (d.updGrec r f).marks = d.marks := rfl
@[simp] theorem Dev.updGrec_hwPend (d : Dev) (r : Nat) (f : GrainRec → GrainRec) : (d.updGrec r f).hwPend = d.hwPend := rfl
@[simp] theorem Dev.updGrec_seqPend (d : Dev) (r : Nat) (f : GrainRec → GrainRec) : (d.updGrec r f).seqPend = d.seqPend := rfl
@[simp] theorem Dev.updGrec_free (d : Dev) (r : Nat) (f : GrainRec → GrainRec) : (d.updGrec r f).free = d.free := rfl
@[simp] theorem Dev.updGrec_out (d : Dev) (r : Nat) (f : GrainRec → GrainRec) : (d.updGrec r f).out = d.out := rfl
@[simp] theorem Dev.updGrec_edge (d : Dev) (r : Nat) (f : GrainRec → GrainRec) : (d.updGrec r f).edge = d.edge := rfl
@[simp] theorem Dev.updGrec_ram (d : Dev) (r : Nat) (f : GrainRec → GrainRec) : (d.updGrec r f).ram = d.ram := rfl
@[simp] theorem Dev.updGrec_sync (d : Dev) (r : Nat) (f : GrainRec → GrainRec) : (d.updGrec r f).sync = d.sync := rfl
@[simp] theorem Dev.updGrec_stepPend (d : Dev) (r : Nat) (f : GrainRec → GrainRec) : (d.updGrec r f).stepPend = d.stepPend := rfl
@[simp] theorem Dev.updGrec_jumps (d : Dev) (r : Nat) (f : GrainRec → GrainRec) : (d.updGrec r f).jumps = d.jumps := rfl
@[simp] theorem Dev.updGrec_newEpoch (d : Dev) (r : Nat) (f : GrainRec → GrainRec) : (d.updGrec r f).newEpoch = d.newEpoch := rfl
@[simp] theorem Dev.updGrec_hot (d : Dev) (r : Nat) (f : GrainRec → GrainRec) : (d.updGrec r f).hot = d.hot := rfl
@[simp] theorem Dev.updGrec_slices (d : Dev) (r : Nat) (f : GrainRec → GrainRec) : (d.updGrec r f).slices = d.slices := rfl
@[simp] theorem Dev.updGrec_xpt (d : Dev) (r : Nat) (f : GrainRec → GrainRec) : (d.updGrec r f).xpt = d.xpt := rfl
@[simp] theorem Dev.updGrec_nvt (d : Dev) (r : Nat) (f : GrainRec → GrainRec) : (d.updGrec r f).nvt = d.nvt := rfl
@[simp] theorem Dev.updGrec_cal (d : Dev) (r : Nat) (f : GrainRec → GrainRec) : (d.updGrec r f).cal = d.cal := rfl
@[simp] theorem Dev.updGrec_tph (d : Dev) (r : Nat) (f : GrainRec → GrainRec) : (d.updGrec r f).tph = d.tph := rfl
@[simp] theorem Dev.updGrec_key (d : Dev) (r : Nat) (f : GrainRec → GrainRec) : (d.updGrec r f).key = d.key := rfl
@[simp] theorem Dev.updGrec_lay (d : Dev) (r : Nat) (f : GrainRec → GrainRec) : (d.updGrec r f).lay = d.lay := rfl
@[simp] theorem Dev.updGrec_mdc (d : Dev) (r : Nat) (f : GrainRec → GrainRec) : (d.updGrec r f).mdc = d.mdc := rfl
@[simp] theorem Dev.updGrec_rd (d : Dev) (r : Nat) (f : GrainRec → GrainRec) : (d.updGrec r f).rd = d.rd := rfl
@[simp] theorem Dev.updGrec_drv (d : Dev) (r : Nat) (f : GrainRec → GrainRec) : (d.updGrec r f).drv = d.drv := rfl
@[simp] theorem Dev.updGrec_rep (d : Dev) (r : Nat) (f : GrainRec → GrainRec) : (d.updGrec r f).rep = d.rep := rfl
@[simp] theorem Dev.updGrec_cdx (d : Dev) (r : Nat) (f : GrainRec → GrainRec) : (d.updGrec r f).cdx = d.cdx := rfl
@[simp] theorem Dev.updGrec_fov (d : Dev) (r : Nat) (f : GrainRec → GrainRec) : (d.updGrec r f).fov = d.fov := rfl
@[simp] theorem Dev.updGrec_mem (d : Dev) (r : Nat) (f : GrainRec → GrainRec) : (d.updGrec r f).mem = d.mem := rfl
@[simp] theorem Dev.updGrec_fum (d : Dev) (r : Nat) (f : GrainRec → GrainRec) : (d.updGrec r f).fum = d.fum := rfl
@[simp] theorem Dev.updGrec_pmc (d : Dev) (r : Nat) (f : GrainRec → GrainRec) : (d.updGrec r f).pmc = d.pmc := rfl
@[simp] theorem Dev.updGrec_mbx (d : Dev) (r : Nat) (f : GrainRec → GrainRec) : (d.updGrec r f).mbx = d.mbx := rfl
@[simp] theorem Dev.updGrec_fis (d : Dev) (r : Nat) (f : GrainRec → GrainRec) : (d.updGrec r f).fis = d.fis := rfl
@[simp] theorem Dev.updGrec_upd (d : Dev) (r : Nat) (f : GrainRec → GrainRec) : (d.updGrec r f).upd = d.upd := rfl
@[simp] theorem Dev.updGrec_sec (d : Dev) (r : Nat) (f : GrainRec → GrainRec) : (d.updGrec r f).sec = d.sec := rfl
@[simp] theorem Dev.updGrec_fld (d : Dev) (r : Nat) (f : GrainRec → GrainRec) (g : Fld) : (d.updGrec r f).fld g = d.fld g := by simp [Dev.fld]
@[simp] theorem Dev.updGrec_flag (d : Dev) (r : Nat) (f : GrainRec → GrainRec) (g : Fld) : (d.updGrec r f).flag g = d.flag g := by simp [Dev.flag]

/-! ### `updSegEnt` -/

@[simp] theorem Dev.updSegEnt_beat (d : Dev) (s : Nat) (f : SegEnt → SegEnt) : (d.updSegEnt s f).beat = d.beat := rfl
@[simp] theorem Dev.updSegEnt_edges (d : Dev) (s : Nat) (f : SegEnt → SegEnt) : (d.updSegEnt s f).edges = d.edges := rfl
@[simp] theorem Dev.updSegEnt_fields (d : Dev) (s : Nat) (f : SegEnt → SegEnt) : (d.updSegEnt s f).fields = d.fields := rfl
@[simp] theorem Dev.updSegEnt_wins (d : Dev) (s : Nat) (f : SegEnt → SegEnt) : (d.updSegEnt s f).wins = d.wins := rfl
@[simp] theorem Dev.updSegEnt_raised (d : Dev) (s : Nat) (f : SegEnt → SegEnt) : (d.updSegEnt s f).raised = d.raised := rfl
@[simp] theorem Dev.updSegEnt_seen (d : Dev) (s : Nat) (f : SegEnt → SegEnt) : (d.updSegEnt s f).seen = d.seen := rfl
@[simp] theorem Dev.updSegEnt_marks (d : Dev) (s : Nat) (f : SegEnt → SegEnt) : (d.updSegEnt s f).marks = d.marks := rfl
@[simp] theorem Dev.updSegEnt_hwPend (d : Dev) (s : Nat) (f : SegEnt → SegEnt) : (d.updSegEnt s f).hwPend = d.hwPend := rfl
@[simp] theorem Dev.updSegEnt_seqPend (d : Dev) (s : Nat) (f : SegEnt → SegEnt) : (d.updSegEnt s f).seqPend = d.seqPend := rfl
@[simp] theorem Dev.updSegEnt_free (d : Dev) (s : Nat) (f : SegEnt → SegEnt) : (d.updSegEnt s f).free = d.free := rfl
@[simp] theorem Dev.updSegEnt_out (d : Dev) (s : Nat) (f : SegEnt → SegEnt) : (d.updSegEnt s f).out = d.out := rfl
@[simp] theorem Dev.updSegEnt_edge (d : Dev) (s : Nat) (f : SegEnt → SegEnt) : (d.updSegEnt s f).edge = d.edge := rfl
@[simp] theorem Dev.updSegEnt_ram (d : Dev) (s : Nat) (f : SegEnt → SegEnt) : (d.updSegEnt s f).ram = d.ram := rfl
@[simp] theorem Dev.updSegEnt_sync (d : Dev) (s : Nat) (f : SegEnt → SegEnt) : (d.updSegEnt s f).sync = d.sync := rfl
@[simp] theorem Dev.updSegEnt_stepPend (d : Dev) (s : Nat) (f : SegEnt → SegEnt) : (d.updSegEnt s f).stepPend = d.stepPend := rfl
@[simp] theorem Dev.updSegEnt_jumps (d : Dev) (s : Nat) (f : SegEnt → SegEnt) : (d.updSegEnt s f).jumps = d.jumps := rfl
@[simp] theorem Dev.updSegEnt_newEpoch (d : Dev) (s : Nat) (f : SegEnt → SegEnt) : (d.updSegEnt s f).newEpoch = d.newEpoch := rfl
@[simp] theorem Dev.updSegEnt_hot (d : Dev) (s : Nat) (f : SegEnt → SegEnt) : (d.updSegEnt s f).hot = d.hot := rfl
@[simp] theorem Dev.updSegEnt_slices (d : Dev) (s : Nat) (f : SegEnt → SegEnt) : (d.updSegEnt s f).slices = d.slices := rfl
@[simp] theorem Dev.updSegEnt_xpt (d : Dev) (s : Nat) (f : SegEnt → SegEnt) : (d.updSegEnt s f).xpt = d.xpt := rfl
@[simp] theorem Dev.updSegEnt_nvt (d : Dev) (s : Nat) (f : SegEnt → SegEnt) : (d.updSegEnt s f).nvt = d.nvt := rfl
@[simp] theorem Dev.updSegEnt_cal (d : Dev) (s : Nat) (f : SegEnt → SegEnt) : (d.updSegEnt s f).cal = d.cal := rfl
@[simp] theorem Dev.updSegEnt_tph (d : Dev) (s : Nat) (f : SegEnt → SegEnt) : (d.updSegEnt s f).tph = d.tph := rfl
@[simp] theorem Dev.updSegEnt_key (d : Dev) (s : Nat) (f : SegEnt → SegEnt) : (d.updSegEnt s f).key = d.key := rfl
@[simp] theorem Dev.updSegEnt_lay (d : Dev) (s : Nat) (f : SegEnt → SegEnt) : (d.updSegEnt s f).lay = d.lay := rfl
@[simp] theorem Dev.updSegEnt_mdc (d : Dev) (s : Nat) (f : SegEnt → SegEnt) : (d.updSegEnt s f).mdc = d.mdc := rfl
@[simp] theorem Dev.updSegEnt_rd (d : Dev) (s : Nat) (f : SegEnt → SegEnt) : (d.updSegEnt s f).rd = d.rd := rfl
@[simp] theorem Dev.updSegEnt_drv (d : Dev) (s : Nat) (f : SegEnt → SegEnt) : (d.updSegEnt s f).drv = d.drv := rfl
@[simp] theorem Dev.updSegEnt_rep (d : Dev) (s : Nat) (f : SegEnt → SegEnt) : (d.updSegEnt s f).rep = d.rep := rfl
@[simp] theorem Dev.updSegEnt_cdx (d : Dev) (s : Nat) (f : SegEnt → SegEnt) : (d.updSegEnt s f).cdx = d.cdx := rfl
@[simp] theorem Dev.updSegEnt_fov (d : Dev) (s : Nat) (f : SegEnt → SegEnt) : (d.updSegEnt s f).fov = d.fov := rfl
@[simp] theorem Dev.updSegEnt_mem (d : Dev) (s : Nat) (f : SegEnt → SegEnt) : (d.updSegEnt s f).mem = d.mem := rfl
@[simp] theorem Dev.updSegEnt_fum (d : Dev) (s : Nat) (f : SegEnt → SegEnt) : (d.updSegEnt s f).fum = d.fum := rfl
@[simp] theorem Dev.updSegEnt_pmc (d : Dev) (s : Nat) (f : SegEnt → SegEnt) : (d.updSegEnt s f).pmc = d.pmc := rfl
@[simp] theorem Dev.updSegEnt_mbx (d : Dev) (s : Nat) (f : SegEnt → SegEnt) : (d.updSegEnt s f).mbx = d.mbx := rfl
@[simp] theorem Dev.updSegEnt_fis (d : Dev) (s : Nat) (f : SegEnt → SegEnt) : (d.updSegEnt s f).fis = d.fis := rfl
@[simp] theorem Dev.updSegEnt_upd (d : Dev) (s : Nat) (f : SegEnt → SegEnt) : (d.updSegEnt s f).upd = d.upd := rfl
@[simp] theorem Dev.updSegEnt_sec (d : Dev) (s : Nat) (f : SegEnt → SegEnt) : (d.updSegEnt s f).sec = d.sec := rfl
@[simp] theorem Dev.updSegEnt_fld (d : Dev) (s : Nat) (f : SegEnt → SegEnt) (g : Fld) : (d.updSegEnt s f).fld g = d.fld g := by simp [Dev.fld]
@[simp] theorem Dev.updSegEnt_flag (d : Dev) (s : Nat) (f : SegEnt → SegEnt) (g : Fld) : (d.updSegEnt s f).flag g = d.flag g := by simp [Dev.flag]

/-! ### `setPool` -/

@[simp] theorem Dev.setPool_beat (d : Dev) (s : Nat) (l : List Nat) : (d.setPool s l).beat = d.beat := rfl
@[simp] theorem Dev.setPool_edges (d : Dev) (s : Nat) (l : List Nat) : (d.setPool s l).edges = d.edges := rfl
@[simp] theorem Dev.setPool_fields (d : Dev) (s : Nat) (l : List Nat) : (d.setPool s l).fields = d.fields := rfl
@[simp] theorem Dev.setPool_wins (d : Dev) (s : Nat) (l : List Nat) : (d.setPool s l).wins = d.wins := rfl
@[simp] theorem Dev.setPool_raised (d : Dev) (s : Nat) (l : List Nat) : (d.setPool s l).raised = d.raised := rfl
@[simp] theorem Dev.setPool_seen (d : Dev) (s : Nat) (l : List Nat) : (d.setPool s l).seen = d.seen := rfl
@[simp] theorem Dev.setPool_marks (d : Dev) (s : Nat) (l : List Nat) : (d.setPool s l).marks = d.marks := rfl
@[simp] theorem Dev.setPool_hwPend (d : Dev) (s : Nat) (l : List Nat) : (d.setPool s l).hwPend = d.hwPend := rfl
@[simp] theorem Dev.setPool_seqPend (d : Dev) (s : Nat) (l : List Nat) : (d.setPool s l).seqPend = d.seqPend := rfl
@[simp] theorem Dev.setPool_free (d : Dev) (s : Nat) (l : List Nat) : (d.setPool s l).free = d.free := rfl
@[simp] theorem Dev.setPool_out (d : Dev) (s : Nat) (l : List Nat) : (d.setPool s l).out = d.out := rfl
@[simp] theorem Dev.setPool_edge (d : Dev) (s : Nat) (l : List Nat) : (d.setPool s l).edge = d.edge := rfl
@[simp] theorem Dev.setPool_ram (d : Dev) (s : Nat) (l : List Nat) : (d.setPool s l).ram = d.ram := rfl
@[simp] theorem Dev.setPool_sync (d : Dev) (s : Nat) (l : List Nat) : (d.setPool s l).sync = d.sync := rfl
@[simp] theorem Dev.setPool_stepPend (d : Dev) (s : Nat) (l : List Nat) : (d.setPool s l).stepPend = d.stepPend := rfl
@[simp] theorem Dev.setPool_jumps (d : Dev) (s : Nat) (l : List Nat) : (d.setPool s l).jumps = d.jumps := rfl
@[simp] theorem Dev.setPool_newEpoch (d : Dev) (s : Nat) (l : List Nat) : (d.setPool s l).newEpoch = d.newEpoch := rfl
@[simp] theorem Dev.setPool_hot (d : Dev) (s : Nat) (l : List Nat) : (d.setPool s l).hot = d.hot := rfl
@[simp] theorem Dev.setPool_slices (d : Dev) (s : Nat) (l : List Nat) : (d.setPool s l).slices = d.slices := rfl
@[simp] theorem Dev.setPool_xpt (d : Dev) (s : Nat) (l : List Nat) : (d.setPool s l).xpt = d.xpt := rfl
@[simp] theorem Dev.setPool_nvt (d : Dev) (s : Nat) (l : List Nat) : (d.setPool s l).nvt = d.nvt := rfl
@[simp] theorem Dev.setPool_cal (d : Dev) (s : Nat) (l : List Nat) : (d.setPool s l).cal = d.cal := rfl
@[simp] theorem Dev.setPool_tph (d : Dev) (s : Nat) (l : List Nat) : (d.setPool s l).tph = d.tph := rfl
@[simp] theorem Dev.setPool_key (d : Dev) (s : Nat) (l : List Nat) : (d.setPool s l).key = d.key := rfl
@[simp] theorem Dev.setPool_lay (d : Dev) (s : Nat) (l : List Nat) : (d.setPool s l).lay = d.lay := rfl
@[simp] theorem Dev.setPool_mdc (d : Dev) (s : Nat) (l : List Nat) : (d.setPool s l).mdc = d.mdc := rfl
@[simp] theorem Dev.setPool_rd (d : Dev) (s : Nat) (l : List Nat) : (d.setPool s l).rd = d.rd := rfl
@[simp] theorem Dev.setPool_drv (d : Dev) (s : Nat) (l : List Nat) : (d.setPool s l).drv = d.drv := rfl
@[simp] theorem Dev.setPool_rep (d : Dev) (s : Nat) (l : List Nat) : (d.setPool s l).rep = d.rep := rfl
@[simp] theorem Dev.setPool_cdx (d : Dev) (s : Nat) (l : List Nat) : (d.setPool s l).cdx = d.cdx := rfl
@[simp] theorem Dev.setPool_fov (d : Dev) (s : Nat) (l : List Nat) : (d.setPool s l).fov = d.fov := rfl
@[simp] theorem Dev.setPool_mem (d : Dev) (s : Nat) (l : List Nat) : (d.setPool s l).mem = d.mem := rfl
@[simp] theorem Dev.setPool_fum (d : Dev) (s : Nat) (l : List Nat) : (d.setPool s l).fum = d.fum := rfl
@[simp] theorem Dev.setPool_pmc (d : Dev) (s : Nat) (l : List Nat) : (d.setPool s l).pmc = d.pmc := rfl
@[simp] theorem Dev.setPool_mbx (d : Dev) (s : Nat) (l : List Nat) : (d.setPool s l).mbx = d.mbx := rfl
@[simp] theorem Dev.setPool_fis (d : Dev) (s : Nat) (l : List Nat) : (d.setPool s l).fis = d.fis := rfl
@[simp] theorem Dev.setPool_upd (d : Dev) (s : Nat) (l : List Nat) : (d.setPool s l).upd = d.upd := rfl
@[simp] theorem Dev.setPool_sec (d : Dev) (s : Nat) (l : List Nat) : (d.setPool s l).sec = d.sec := rfl
@[simp] theorem Dev.setPool_fld (d : Dev) (s : Nat) (l : List Nat) (g : Fld) : (d.setPool s l).fld g = d.fld g := by simp [Dev.fld]
@[simp] theorem Dev.setPool_flag (d : Dev) (s : Nat) (l : List Nat) (g : Fld) : (d.setPool s l).flag g = d.flag g := by simp [Dev.flag]

/-! ### Register fields -/

@[simp] theorem Dev.fld_setFld_self (d : Dev) (f : Fld) (v : Nat) : (d.setFld f v).fld f = v % 2 ^ f.w := by
  simp [Dev.fld, Dev.setFld]

theorem Dev.fld_setFld_ne (d : Dev) (f g : Fld) (v : Nat) (h : f.key ≠ g.key) : (d.setFld f v).fld g = d.fld g :=
  tget_tput_other f.reset g.reset d.fields f.key _ g.key h

theorem Dev.flag_setFld_ne (d : Dev) (f g : Fld) (v : Nat) (h : f.key ≠ g.key) : (d.setFld f v).flag g = d.flag g := by
  simp [Dev.flag, Dev.fld_setFld_ne d f g v h]

theorem Dev.setFlag_eq (d : Dev) (f : Fld) (b : Bool) : d.setFlag f b = d.setFld f (if b then 1 else 0) := rfl

theorem Dev.fld_setFlag_ne (d : Dev) (f g : Fld) (b : Bool) (h : f.key ≠ g.key) : (d.setFlag f b).fld g = d.fld g :=
  Dev.fld_setFld_ne d f g _ h

theorem Dev.flag_setFlag_ne (d : Dev) (f g : Fld) (b : Bool) (h : f.key ≠ g.key) : (d.setFlag f b).flag g = d.flag g :=
  Dev.flag_setFld_ne d f g _ h

@[simp] theorem Dev.flag_setFlag_self (d : Dev) (f : Fld) (b : Bool) (h : 0 < f.w) : (d.setFlag f b).flag f = b := by
  have h2 : 1 < 2 ^ f.w := Nat.one_lt_two_pow (by omega)
  cases b <;> simp [Dev.flag, Dev.setFlag, Nat.mod_eq_of_lt h2]

theorem Dev.fld_bump_ne (d : Dev) (f g : Fld) (n : Nat) (h : f.key ≠ g.key) : (d.bump f n).fld g = d.fld g :=
  Dev.fld_setFld_ne d f g _ h

theorem Dev.fld_bumpSat_ne (d : Dev) (f g : Fld) (n : Nat) (h : f.key ≠ g.key) : (d.bumpSat f n).fld g = d.fld g :=
  Dev.fld_setFld_ne d f g _ h

/-! ### Conditions and lists -/

@[simp] theorem Dev.cond_true (d : Dev) (f : Dev → Dev) : d.cond true f = f d := rfl
@[simp] theorem Dev.cond_false (d : Dev) (f : Dev → Dev) : d.cond false f = d := rfl
@[simp] theorem Dev.each_nil {α : Type} (d : Dev) (f : α → Dev → Dev) : d.each [] f = d := rfl
@[simp] theorem Dev.each_cons {α : Type} (d : Dev) (x : α) (l : List α) (f : α → Dev → Dev) :
    d.each (x :: l) f = (f x d).each l f := rfl

/-- What holds of `d` and is kept by each step holds after the whole list. -/
theorem Dev.each_induct {α : Type} (P : Dev → Prop) (f : α → Dev → Dev) (l : List α) (d : Dev) (h : P d)
    (hf : ∀ x ∈ l, ∀ e, P e → P (f x e)) : P (d.each l f) := by
  induction l generalizing d with
  | nil => exact h
  | cons x t ih => exact ih (f x d) (hf x (by simp) d h) (fun y hy => hf y (by simp [hy]))

/-- What holds of `d` and is kept by `f` holds after `cond`. -/
theorem Dev.cond_induct (P : Dev → Prop) (f : Dev → Dev) (c : Bool) (d : Dev) (h : P d)
    (hf : ∀ e, P e → P (f e)) : P (d.cond c f) := by
  cases c
  · exact h
  · exact hf d h

/-- What holds of `s` and is kept by each round holds after `loop`. -/
theorem loop_induct {σ : Type} (P : σ → Prop) (f : Nat → σ → σ) (n : Nat) (s : σ) (h : P s)
    (hf : ∀ i e, P e → P (f i e)) : P (loop f n s) := by
  induction n with
  | zero => exact h
  | succ n ih => exact hf n _ ih

/-! ### Table entries: the one updated, and the others -/

@[simp] theorem Dev.slice_updSlice_self (d : Dev) (k : Nat) (f : Slice → Slice) : (d.updSlice k f).slice k = f (d.slice k) := by
  simp [Dev.slice, Dev.updSlice, tget_tupd]
theorem Dev.slice_updSlice_ne (d : Dev) (k j : Nat) (f : Slice → Slice) (h : k ≠ j) : (d.updSlice k f).slice j = d.slice j := by
  simp [Dev.slice, Dev.updSlice, tget_tupd, h]

@[simp] theorem Dev.port_updPort_self (d : Dev) (k : Nat) (f : PortRec → PortRec) : (d.updPort k f).port k = f (d.port k) := by
  simp [Dev.port, Dev.updPort, tget_tupd]
theorem Dev.port_updPort_ne (d : Dev) (k j : Nat) (f : PortRec → PortRec) (h : k ≠ j) : (d.updPort k f).port j = d.port j := by
  simp [Dev.port, Dev.updPort, tget_tupd, h]

@[simp] theorem Dev.work_updWork_self (d : Dev) (k : Nat) (f : QpWork → QpWork) : (d.updWork k f).work k = f (d.work k) := by
  simp [Dev.work, Dev.updWork, tget_tupd]
theorem Dev.work_updWork_ne (d : Dev) (k j : Nat) (f : QpWork → QpWork) (h : k ≠ j) : (d.updWork k f).work j = d.work j := by
  simp [Dev.work, Dev.updWork, tget_tupd, h]

@[simp] theorem Dev.bitmap_updBitmap_self (d : Dev) (k : Nat) (f : Bitmap → Bitmap) : (d.updBitmap k f).bitmap k = f (d.bitmap k) := by
  simp [Dev.bitmap, Dev.updBitmap, tget_tupd]
theorem Dev.bitmap_updBitmap_ne (d : Dev) (k j : Nat) (f : Bitmap → Bitmap) (h : k ≠ j) : (d.updBitmap k f).bitmap j = d.bitmap j := by
  simp [Dev.bitmap, Dev.updBitmap, tget_tupd, h]

@[simp] theorem Dev.region_updRegion_self (d : Dev) (k : Nat) (f : Region → Region) : (d.updRegion k f).region k = f (d.region k) := by
  simp [Dev.region, Dev.updRegion, tget_tupd]
theorem Dev.region_updRegion_ne (d : Dev) (k j : Nat) (f : Region → Region) (h : k ≠ j) : (d.updRegion k f).region j = d.region j := by
  simp [Dev.region, Dev.updRegion, tget_tupd, h]

@[simp] theorem Dev.tag_updTag_self (d : Dev) (k : Nat) (f : Tag → Tag) : (d.updTag k f).tag k = f (d.tag k) := by
  simp [Dev.tag, Dev.updTag, tget_tupd]
theorem Dev.tag_updTag_ne (d : Dev) (k j : Nat) (f : Tag → Tag) (h : k ≠ j) : (d.updTag k f).tag j = d.tag j := by
  simp [Dev.tag, Dev.updTag, tget_tupd, h]

@[simp] theorem Dev.vol_updVol_self (d : Dev) (k : Nat) (f : Namespace → Namespace) : (d.updVol k f).vol k = f (d.vol k) := by
  simp [Dev.vol, Dev.updVol, tget_tupd]
theorem Dev.vol_updVol_ne (d : Dev) (k j : Nat) (f : Namespace → Namespace) (h : k ≠ j) : (d.updVol k f).vol j = d.vol j := by
  simp [Dev.vol, Dev.updVol, tget_tupd, h]

@[simp] theorem Dev.subsystem_updSubsys_self (d : Dev) (k : Nat) (f : Subsys → Subsys) : (d.updSubsys k f).subsystem k = f (d.subsystem k) := by
  simp [Dev.subsystem, Dev.updSubsys, tget_tupd]
theorem Dev.subsystem_updSubsys_ne (d : Dev) (k j : Nat) (f : Subsys → Subsys) (h : k ≠ j) : (d.updSubsys k f).subsystem j = d.subsystem j := by
  simp [Dev.subsystem, Dev.updSubsys, tget_tupd, h]

@[simp] theorem Dev.ctrl_updCtrl_self (d : Dev) (k : Nat) (f : Ctrl → Ctrl) : (d.updCtrl k f).ctrl k = f (d.ctrl k) := by
  simp [Dev.ctrl, Dev.updCtrl, tget_tupd]
theorem Dev.ctrl_updCtrl_ne (d : Dev) (k j : Nat) (f : Ctrl → Ctrl) (h : k ≠ j) : (d.updCtrl k f).ctrl j = d.ctrl j := by
  simp [Dev.ctrl, Dev.updCtrl, tget_tupd, h]

@[simp] theorem Dev.bind_updBind_self (d : Dev) (k : Nat) (f : QpBind → QpBind) : (d.updBind k f).bind k = f (d.bind k) := by
  simp [Dev.bind, Dev.updBind, tget_tupd]
theorem Dev.bind_updBind_ne (d : Dev) (k j : Nat) (f : QpBind → QpBind) (h : k ≠ j) : (d.updBind k f).bind j = d.bind j := by
  simp [Dev.bind, Dev.updBind, tget_tupd, h]

@[simp] theorem Dev.page_updPage_self (d : Dev) (k : Nat) (f : MapPage → MapPage) : (d.updPage k f).page k = f (d.page k) := by
  simp [Dev.page, Dev.updPage, tget_tupd]
theorem Dev.page_updPage_ne (d : Dev) (k j : Nat) (f : MapPage → MapPage) (h : k ≠ j) : (d.updPage k f).page j = d.page j := by
  simp [Dev.page, Dev.updPage, tget_tupd, h]

@[simp] theorem Dev.tree_updTree_self (d : Dev) (k : Nat) (f : Tree → Tree) : (d.updTree k f).tree k = f (d.tree k) := by
  simp [Dev.tree, Dev.updTree, tget_tupd]
theorem Dev.tree_updTree_ne (d : Dev) (k j : Nat) (f : Tree → Tree) (h : k ≠ j) : (d.updTree k f).tree j = d.tree j := by
  simp [Dev.tree, Dev.updTree, tget_tupd, h]

@[simp] theorem Dev.grec_updGrec_self (d : Dev) (k : Nat) (f : GrainRec → GrainRec) : (d.updGrec k f).grec k = f (d.grec k) := by
  simp [Dev.grec, Dev.updGrec, tget_tupd]
theorem Dev.grec_updGrec_ne (d : Dev) (k j : Nat) (f : GrainRec → GrainRec) (h : k ≠ j) : (d.updGrec k f).grec j = d.grec j := by
  simp [Dev.grec, Dev.updGrec, tget_tupd, h]

@[simp] theorem Dev.segEnt_updSegEnt_self (d : Dev) (k : Nat) (f : SegEnt → SegEnt) : (d.updSegEnt k f).segEnt k = f (d.segEnt k) := by
  simp [Dev.segEnt, Dev.updSegEnt, tget_tupd]
theorem Dev.segEnt_updSegEnt_ne (d : Dev) (k j : Nat) (f : SegEnt → SegEnt) (h : k ≠ j) : (d.updSegEnt k f).segEnt j = d.segEnt j := by
  simp [Dev.segEnt, Dev.updSegEnt, tget_tupd, h]

@[simp] theorem Dev.ctx_updCtx_self (d : Dev) (k : Nat) (f : QpCtx → QpCtx) : (d.updCtx k f).ctx k = f (d.ctx k) := by
  simp [Dev.ctx, Dev.updCtx, tget_tupd]
theorem Dev.ctx_updCtx_ne (d : Dev) (k j : Nat) (f : QpCtx → QpCtx) (h : k ≠ j) : (d.updCtx k f).ctx j = d.ctx j :=
  tget_tput_other (ctxInit k) (ctxInit j) d.xpt.ctxs k _ j h
@[simp] theorem Dev.dir_updDir_self (d : Dev) (s i : Nat) (f : DirEntry → DirEntry) : (d.updDir s i f).dir s i = f (d.dir s i) := by
  simp [Dev.dir, Dev.updDir, tget_tupd]
theorem Dev.dir_updDir_ne (d : Dev) (s i s' i' : Nat) (f : DirEntry → DirEntry) (h : dirKey s i ≠ dirKey s' i') :
    (d.updDir s i f).dir s' i' = d.dir s' i' := by
  simp [Dev.dir, Dev.updDir, tget_tupd, h]

end Sys2Proof.Machine
end

