-- ==== Sys2Proof/Tests/Slice0.lean ====
section
/-! SUPPORT. Small tests: ill-formed commands that the checks refuse, and for each statement a state and operands that meet its hypotheses. -/
namespace Sys2Proof.Machine.Tests
open Sys2Proof Sys2Proof.Machine

set_option Elab.async false

/-! ### Ill-formed commands: one term for each check, with its operand just outside its range -/

theorem test_illFormed_units : ([.registerWrite .bar0 0 2 ⟨0, 0⟩, .registerWrite .bar0 6 4 ⟨0, 0⟩, .registerWrite .bar2 0 4 ⟨0x1_0000_0000, 0⟩, .registerWrite .bar2 0 4 ⟨0, 0x1_0000_0000⟩,
    .unitEnWrite (.slice 8) 1, .unitStateEdge (.port 16) .none none, .startDone (.qp 16384), .startFail .mdc 256, .startFail (.att 128) 0,
    .stopDone (.lane 16), .hwStop .mdc 256, .stopLate (.slice 8), .winIdxWrite (.dir 8) 0, .windowCapture (.dir 8),
    .engineSchedule 8, .admitCommand 8, .tagFree 65536, .syncReq 0 (2 ^ 32), .syncResp 0 (2 ^ 64) 0 0, .syncResp 0 0 512 0] : List Instr).all
    (fun c => !c.wellFormed) = true := by decide

theorem test_illFormed_transport : ([.portLinkTimeout 16, .portLinkLost 16, .frameReceive 16 ⟨[1]⟩, .cnpReceive ⟨some 16, 0⟩, .cnpReceive ⟨none, 0⟩, .rateLimitRecover 16384,
    .pfcRefresh 16 .a, .pfcFrameReceive 0 8 true, .pfcWatchdog 16 .b, .cmDatagram 0 (.disconnect 16384), .hostDisconnect 16384,
    .workItemFlushed 16384, .waitConditionMet 16384, .waitBroken 16384, .ackReceive ⟨some 16, 0⟩ 0 0 0 0, .ackReceive ⟨none, 0⟩ 4 0 0 0, .ackReceive ⟨none, 0⟩ 0 0 65536 0, .ackTimeout 64 4,
    .nakReceive ⟨none, 0⟩ 4 0 .seqErr, .rnrNakReceive ⟨none, 0⟩ 0 ⟨0, 32⟩, .rnrTimerExpire ⟨16384, 0⟩, .rnrTimerExpire ⟨0, 4⟩, .messageComplete 16384, .mrRegister 1024 0 0 0 true,
    .mrRegister 0 (2 ^ 64) 0 0 true, .mrRevoke 1024, .revocationDone 1024] : List Instr).all (fun c => !c.wellFormed) = true := by decide

theorem test_illFormed_target : ([.flush 65536, .write 65536, .read 65536, .compare 65536, .writeZeroes 65536, .datasetManagement 65536, .verify 65536,
    .copy 65536, .reservationReport 65536, .reservationEffect 32768, .keepAliveExpire 65536, .disconnect 0 65536, .keepAlive 16384 0,
    .abort 0 0 0 65536, .abort 0 0 16384 0, .asynchronousEventRequest 0 65536, .fwdData 65536 0 [], .fwdCpl 0 8 0, .fwdCpl 0 0 256, .forwardFail 65536,
    .anaChange 0 1, .anaChange 65 1, .anaChange 1 16, .anaChangeDrained 65] : List Instr).all (fun c => !c.wellFormed) = true := by decide

theorem test_illFormed_storage : ([.regionGroupPlace 8, .catchupWrite 0 1048576 true, .destageStart 8 0, .destagePlaced 0 1048576, .releasePut 8 0,
    .fingerprintDone 0 16, .fpuFault 8 0, .tephraCheck 0 1048576, .loadWaitTimeout 8 0, .decompressDone 0 4, .decompressorFault 0 4,
    .loadCounter 4096, .zeroise 4096, .nonceDraw 0 2, .hwmRecordCommit 4096 0 0, .gcmJobDone 8 0, .gcmParityFault 0 2, .segmentOpen 8 false,
    .erasureUnitFault 8, .treeDeleteDone (2 ^ 21), .idPoolRefill 8, .writebackFailed 262144, .prefetchLock 12, .lockSet 12, .lockClear 12,
    .readBufferGrant 8, .drvPortModeWrite 32 0, .drvPortModeWrite 0 2, .perst 32, .perstRelease 32, .presenceChange 128 true, .surpriseDown 128,
    .driveCommandIssue 128, .driveCommandTimeout 0 256, .retireTimerExpire 128, .rebuildComplete 128] : List Instr).all (fun c => !c.wellFormed) = true := by
  decide

theorem test_illFormed_peer : ([.open_ 16384 [], .openAck 16384 [], .grains 16384 [], .windowAck 16384 [], .commit 16384 [], .commitAck 16384 [],
    .repAbort 16384 [], .repDiffBatch 256, .repTimeout 256, .repRetry 256, .qpPairTimeout 64, .singlePathLost 2,
    .witnessRefresh [none, none, none, none], .witnessReadResult [none, none, none, none], .claimWaitExpire [none, none, none, none],
    .handoverStepDone [none, none, none, none], .inconclusiveRepeat [none, none, none, none], .handoverReq (2 ^ 64) 0, .handoverAck 0 (2 ^ 64),
    .leave (2 ^ 64), .flitReceive (.good 16 0 0 [] [])] : List Instr).all (fun c => !c.wellFormed) = true := by decide

theorem test_illFormed_management : ([.calibrationBeat 76, .retrainDone 76 true, .loadClassUpdate 101 0 [], .loadClassUpdate 0 101 [], .doorbell 8 0, .requestTake 8,
    .managementReset 3, .requestBufferWrite 65536 [0], .vectorUnmask 2048, .smbusOtherCommand 256, .eventRaise 2048 0 0 0 0, .eventRaise 0 (2 ^ 32) 0 0 0,
    .ringFreeze 8192, .smbusLastGaspEntry 8, .counterOverflow 9 0, .counterOverflow 0 8, .sampleDeliver 9, .bootRomStart (2 ^ 32) 0,
    .phaseChangeDone 65536, .updateStaged [0], .updateArm (2 ^ 41) (List.replicate 48 0), .updateArmAck [], .updateArmNak [], .updatePhaseDone 8 (List.replicate 48 0),
    .updateRevert 256 (List.replicate 48 0), .updateCommit [], .activationRevert 256 0, .jtagInstructionLoad 256, .alarm [(4, 0, 0)], .alarmCauseClear 4,
    .temperatureWarning [128] [], .temperatureWarning [] [-129]] : List Instr).all (fun c => !c.wellFormed) = true := by decide

theorem test_illFormed_rest : ([.rocePacketReceive 0 ⟨0, 0, .send, .only, 0, true, false, 64, [8], 0, none, none, none, []⟩ 0,
    .rocePacketReceive 0 ⟨0, 0, .send, .only, 0, true, false, 64, [], 64, none, none, none, []⟩ 0,
    .mpPacketReceive 0 ⟨0, 0, .send, .only, 0, true, false, 64, [], 0, none, none, none, []⟩,
    .workItemPost 16384 ⟨.send, [], .steward, none⟩, .reservationRegister 65536 .register 0 0 none, .reservationAcquire 0 .acquire 256 0 0, .reservationRelease 65536 .release 0,
    .connect 0 0 0 0 0 0 65536 false 0, .propertyGet 0 65536 .cap, .propertySet 16384 0 .cc 0, .authenticationSend 0 65536 [],
    .placedWrite 64 ⟨0, []⟩, .reconstructionRound 8 0, .relocationDone 8 0, .rmwMerge 8 (.bytes 0 []), .verifyCompareDone 8 0 none, .tephraBatch 0 0 true [[0]], .compressDone 0 4 [], .load 4096 false,
    .verifyReport 0 256 0 0, .verifyReq [] (List.replicate 33 .readError), .ownVerifyDone 0 (List.replicate 33 .readError),
    .rebuildStrip (List.replicate 33 .readError), .scrub [List.replicate 33 .readError], .cacheAccess 0 (some [0]) none false, .cacheAccess 0 none (some 3) false, .memoryReadError 0 .corrected 0 (List.replicate 4097 0),
    .driveCompletion 0 0 8 0 [], .retireWrite 128 true, .extents 16384 [] [], .need 16384 [] [], .laneStart 16 none false, .laneStart 0 (some 256) false,
    .initRecord ⟨2, 0, 0, 0, 0, 0⟩, .nak ⟨0, 65536, 0, 0, 0, 0⟩, .width ⟨0, 0, 17, 0, 0, 0⟩, .widthAck ⟨0, 0, 0, 16, 0, 0⟩, .qpPair 64 true,
    .heartbeat 0 (2 ^ 64) 0 0, .joinReq (2 ^ 64) 0, .joinAck (2 ^ 64) 0, .resyncCommit (2 ^ 64) 0, .resyncAck (2 ^ 64) 0, .resyncDone (2 ^ 64) 0,
    .handover (2 ^ 64) 0 0 {}, .handoverAbort 0 (2 ^ 64) 0, .memoryStart (some (256, 0)) 0 [] [], .memoryStart none 0 [(76, 0)] [],
    .geyserRestore [none, none, none] [] [], .invalidCommandOpcode 0 65536, .keyOpNotUsed 8 0 false, .norFailure 3 0, .counterWrite 9 0 0 false] : List Instr).all
    (fun c => !c.wellFormed) = true := by decide +kernel

theorem wit_StepRunsTheFrontCommand : ({ pending := [.epochEdge] } : State).pending = .epochEdge :: [] := rfl

theorem wit_EmptyQueueLetsABeatPass : State.reset.pending = [] := rfl

theorem wit_ResetLeavesTheStatedValues : (UnitId.qp 16383).wellFormed = true ∧ (UnitId.att 127).wellFormed = true ∧ 7 < 8 := by decide

theorem wit_UnitsMoveByTheTableOfR19 : (UnitId.qp 16383).wellFormed = true ∧ (State.reset.dev.bind 16383).closing = false := by decide

theorem wit_UnitStartsAndStopsComplete :
    (let d : Dev := Dev.setFld (Dev.setFld {} (Reg.CDX_LANE_STS_STATE 15) 1) (Reg.CDX_LANE_CTL_EN 15) 1
     (UnitId.lane 15).wellFormed = true ∧ d.ustate (.lane 15) = .starting ∧ unitIsSlice (.lane 15) = false ∧ d.canFail (.lane 15) 1 = true ∧
       tget 0 d.hwPend (unitNo (.lane 15)) = 0) ∧
    (let d : Dev := { Dev.setFld {} (Reg.HPT_STS_STATE 0) 3 with edges := 16 }.arm (tmStop (.port 0))
     d.ustate (.port 0) = .stopping ∧ { d with edges := 32 }.expired (tmStop (.port 0)) 16 = true ∧ d.armed (tmLate (.port 0)) = false) ∧
    (Dev.setFld {} (Reg.SLI_STS_STATE 7) 2).ustate (.slice 7) = .on ∧ unitIsSlice (.slice 7) = true ∧
    (let d : Dev := Dev.setFld {} (Reg.HPT_STS_STATE 15) 2
     d.ustate (.port 15) = .on ∧ tget .none d.seqPend (unitNo (.port 15)) = .none) := by decide

theorem wit_UnitEnWriteSetsEnAlone : (UnitId.slice 7).wellFormed = true ∧ (UnitId.att 127).wellFormed = true := by decide

theorem wit_WindowsCaptureAnEntry : ((({} : Dev).winIdx .tree 5).win .tree).req = true := by decide

theorem wit_TimeAndAlignmentCommands :
    (let d : Dev := Dev.setFld (Dev.setFld {} Reg.GLB_SYNC_STS_ROLE 2) Reg.CDX_STS_LINK 2
     d.fld Reg.GLB_SYNC_STS_ROLE = roleFollower ∧ d.armed tmSyncReq = false ∧ d.fld Reg.CDX_STS_LINK = 2) ∧
    (Dev.setFld {} Reg.GLB_SYNC_STS_ROLE 1).fld Reg.GLB_SYNC_STS_ROLE = roleReference ∧
    ({ Dev.setFld {} Reg.GLB_SYNC_STS_ROLE 2 with sync := { awaiting := true } } : Dev).sync.awaiting = true ∧ (0 : Word) = State.reset.dev.sync.seq ∧
    (let d : Dev := { Dev.arm (Dev.setFld (Dev.setFld {} Reg.GLB_SYNC_STS_ROLE 2) Reg.GLB_SYNC_STS_LOCKED 1) tmSync with edges := 8192 }
     d.flag Reg.GLB_SYNC_STS_LOCKED = true ∧ d.expired tmSync (2 ^ 13) = true) := by decide

theorem wit_QuadModesChangeWholeOrNotAtAll : ({} : Dev).quadWriteOk (quadModes 0x2144) = true ∧ ({} : Dev).quadWriteOk (quadModes 0x0004) = false := by
  decide

/-- A frame: two addresses, EtherType ARP. -/
def frameArp : Frame := ⟨List.replicate 12 0 ++ [0x08, 0x06] ++ List.replicate 46 0⟩
theorem wit_PortsTakeFramesAndLoseTheirLink :
    (let d : Dev := Dev.setFld {} (Reg.HPT_STS_STATE 15) 2
     d.isOn (.port 15) = true ∧ d.frameFits 15 frameArp.bytes.length (ethTags 4 12 frameArp.bytes).1.length = true ∧
       frameKind frameArp.bytes = .arp ∧ frameKind [] = .other ∧ d.fld (Reg.HPT_MTU_MAX_FRAME 15) = 9216 ∧
       tget 0 d.hwPend (unitNo (.port 15)) = 0) ∧
    frameKind (List.replicate 12 0 ++ [0x08, 0x00, 0x45] ++ List.replicate 8 0 ++ [17] ++ List.replicate 12 0 ++ [0x12, 0xB7]) = .roce ∧
    (ethTags 4 12 (List.replicate 12 0 ++ [0x81, 0, 0, 0, 0x81, 0, 0, 0, 8, 6])).1.length = 2 ∧
    (let d : Dev := { Dev.arm (Dev.setFld {} (Reg.HPT_STS_STATE 0) 1) (tmStart (.port 0)) with edges := 0x400000 }
     d.ustate (.port 0) = .starting ∧ d.expired (tmStart (.port 0)) (d.fld (Reg.HPT_CFG_LINK_TIMEOUT 0)) = true) := by decide

/-- A device whose port 0 is ON and whose context 64 receives at PSN 5. -/
def devRx : Dev := (Dev.setFld {} (Reg.HPT_STS_STATE 0) 2).updCtx 64 (fun c => { c with unit := { c.unit with state := .on, en := true }, xstate := .rts, rqEpsn := 5 })
theorem wit_FlowControlAndRateLimit :
    (let d : Dev := { Dev.arm (Dev.updPort {} 15 (fun r => r.setXoff .a true)) (tmXoff 15 .a) with edges := 100000 }
     (d.port 15).xoff .a = true ∧ d.expired (tmXoff 15 .a) (d.fld (Reg.HPT_PFC_TIME_REFRESH 15)) = true) ∧
    (let d : Dev := Dev.setFld {} (Reg.HPT_PFC_PFC_EN 0) 1
     d.prioOf 0 3 = some .a ∧ (d.port 0).paused .a = false) ∧
    (let d : Dev := { Dev.arm (Dev.setFld (Dev.updPort {} 0 (fun r => r.setPaused .b true false)) (Reg.HPT_PFC_WD_PFC_WD 0) 8) (tmPause 0 .b) with edges := 9 }
     (d.port 0).paused .b = true ∧ (d.port 0).discard .b = false ∧ d.expired (tmPause 0 .b) (d.fld (Reg.HPT_PFC_WD_PFC_WD 0) + 1) = true) ∧
    devRx.takesFor (some 0) 64 64 = true ∧
    (let d : Dev := { Dev.arm {} (tmRate 64) with edges := 1024 }
     d.expired (tmRate 64) 1024 = true) := by decide

/-- A packet to context 64. -/
def pktRx (psn : Psn) (op : RcOp) : Packet := ⟨64, 0, op, .only, psn, true, false, 100, [], 0, none, some ⟨0, 0, 4⟩, none, [1]⟩
/-- The same device with a slot free and region 0 registered. -/
def devRx2 : Dev := (devRx.updCtx 64 (fun c => { c with rqFree := 1 })).updRegion 0 (fun r => { r with state := .valid, write := true, len := 1 })
theorem wit_PacketsReachTheirQueuePair :
    devRx.isOn (.port 0) = true ∧ devRx.frameFits 0 (pktRx 5 .write).frameLen 0 = true ∧ devRx.frameFits 0 9217 0 = false ∧ devRx.prioOf 0 0 = none ∧
    devRx.takesFor (some 0) 64 64 = true ∧ (devRx.ctx 64).mp = false ∧ (devRx.ctx 64).receives = true ∧ devRx.reaches (some 0) 65 = none ∧
    psnBefore (devRx.ctx 64).rqEpsn (pktRx 6 .send).psn = true ∧ (devRx.work 64).nakSent = false ∧
    psnBefore (devRx.ctx 64).rqEpsn (pktRx 4 .send).psn = false ∧ devRx.putPlacing 64 = false ∧
    devRx.keyCheck (devRx.ctx 64).pd 0 0 1 = false ∧ devRx2.keyCheck (devRx2.ctx 64).pd 0 0 1 = true ∧ (devRx2.ctx 64).cls = 0 ∧
    (devRx2.ctx 64).noSlot = false ∧ (devRx2.bind 64).bound = false := by decide

theorem wit_ConnectionsBeginAndEnd :
    devRx.isOn (.port 0) = true ∧ devRx.ustate (.qp 16383) = .off ∧ (devRx.ctx 16383).attrValid = false ∧
    devRx.ustate (.qp 64) ≠ .off ∧ (devRx.bind 64).bound = false := by decide

/-- An item of the steward that waits for context m's count. -/
def itemW (m : Nat) (n : Word) : WorkItem := ⟨.send, [], .steward, some (m, n)⟩
theorem wit_WorkItemsAreQueuedFlushedAndWait :
    (let d := devRx.updWork 64 (fun x => { x with sendQ := [itemW 0 0] })
     d.accepts 64 = true ∧ (d.work 64).sendQ = itemW 0 0 :: [] ∧ waitHolds (d.ctx 0).cc 0 = true ∧ waitHolds (d.ctx 0).cc 1 = false ∧
     d.isOn (.qp 0) = false) ∧ devRx.accepts 16383 = false ∧
    (let d := (devRx.updCtx 64 (fun c => { c with xstate := .error })).updWork 64 (fun x => { x with sendQ := [itemW 0 0] })
     (d.ctx 64).xstate = .error ∧ (d.work 64).sendQ = [itemW 0 0] ∧ (d.work 64).sent = [] ∧ (d.work 64).flushed = []) := by decide

/-- Context 64 with one SEND outstanding, PSN 7. -/
def devTx : Dev := { ((devRx.updCtx 64 (fun c => { c with ackTo := 1, retryLeft := 1, sqPsn := 8, rnrRetry := 7 })).updWork 64
        (fun x => { x with sent := [⟨0, 7, 7, 0, 0, itemW 0 0⟩] })).arm (tmAck 64 0) with edges := 66 }
theorem wit_AcknowledgementsAndRetries :
    devTx.takesFor (some 0) 64 64 = true ∧ (devTx.ctx 64).mp = false ∧ (devTx.work 64).sendQ = [] ∧ devTx.ackUpTo 64 0 6 = devTx ∧
    (devTx.work 64).sent = [⟨0, 7, 7, 0, 0, itemW 0 0⟩] ∧ SentMsg.acked ⟨0, 7, 7, 0, 0, itemW 0 0⟩ = false ∧ psnBefore 7 7 = false ∧ psnBefore 7 (devTx.ctx 64).sqPsn = true ∧
    (devTx.ctx 64).ackTo ≠ 0 ∧ devTx.expired (tmAck 64 0) (ackTimeoutBeats (devTx.ctx 64).ackTo) = true ∧ (devTx.unacked 64 0).isEmpty = false ∧
    (devTx.ctx 64).retry 0 ≠ 0 ∧ ((devTx.updCtx 64 (fun c => { c with retryLeft := 0 })).ctx 64).retry 0 = 0 ∧
    ((devTx.updCtx 64 (fun c => { c with mp := true })).ctx 64).retry 0 = 0 ∧
    ((devTx.ackUpTo 64 0 (7 - 1)).unacked 64 0).isEmpty = false ∧ ((devTx.ackUpTo 64 0 (7 - 1)).ctx 64).rnrRetry = 7 ∧
    (((devTx.updCtx 64 (fun c => { c with rnrRetry := 0 })).ackUpTo 64 0 (7 - 1)).ctx 64).rnrLeft = 0 ∧
    ({ devRx.arm (tmRnr 64 0) with edges := 9 }).expired (tmRnr 64 0) (tget 0 (devRx.work 64).rnrWait 0) = true := by decide

/-- A multipath context with one whole message in flight. -/
def devMp : Dev := (devRx.updCtx 64 (fun c => { c with mp := true })).updBitmap 0 (fun _ => { valid := true, qp := 64, msgId := 0, pktLast := 0, bits := 1, op := .write })
/-- The same with the first packet of a SEND in flight, the message after the oldest. -/
def devMp2 : Dev := ((devRx.updCtx 64 (fun c => { c with mp := true })).updWork 64 (fun w => { w with msgWindow := 2 })).updBitmap 0
  (fun _ => { valid := true, qp := 64, msgId := 1, pktLast := 2, bits := 1, op := .send })
def mpeth1 : Mpeth := ⟨1, 1, 2, 4096, 0, 0, 9000⟩
theorem wit_MultipathMessagesAreReleasedInOrder :
    devMp.takesFor (some 0) 64 64 = true ∧ (devMp.ctx 64).receives = true ∧ (devMp.ctx 64).mp = true ∧ psnBefore ((devMp.ctx 64).path 0).rxEpsn 1 = true ∧
    devMp2.takesFor (some 0) 64 64 = true ∧ (devMp2.ctx 64).receives = true ∧ ((devMp2.ctx 64).path 0).rxEpsn = 0 ∧
    devMp2.mpInvalid 64 mpeth1 (pktRx 0 .send) = false ∧ (devMp2.ctx 64).inWindow (devMp2.work 64).msgWindow 1 = true ∧
    devMp2.bitmapOf 64 1 false = some 0 ∧ devMp2.bitmapOf 64 (devMp2.ctx 64).msgRxBase false = none ∧ (devMp2.bitmap 0).has 1 = false ∧
    devMp.bitmapOf 64 (devMp.ctx 64).msgRxBase false = some 0 ∧ devMp.xpt.bitmaps = [(0, devMp.bitmap 0)] ∧ (devMp.bitmap 0).bits = 2 ^ ((devMp.bitmap 0).pktLast + 1) - 1 := by
  decide

theorem wit_RegionsAreRegisteredAndRevoked :
    (({} : Dev).region 1023).state = .free ∧ ((Dev.updRegion {} 1023 (fun x => { x with state := .valid })).region 1023).state = .valid ∧
    (let d : Dev := Dev.updRegion {} 0 (fun x => { x with state := .revoking })
     (d.region 0).state = .revoking ∧ (d.region 0).inflight = 0) ∧ rkeyIndex 0 = 0 ∧ rkeyTag 0 = (({} : Dev).region 0).tag := by decide

/-- A write of one block on context 64 (its namespace is unknown here). -/
def cmdW : HostCmd := { qp := 64, cid := 1, opcode := 1, nsid := 1, slba := 0, nlb := 1, sgl := .none, dlen := 0, ranges := [], ad := false, copyFormat := 0, data := [], fwdIn := false, fwdTag := 0, hostIdx := 0, pages := [] }
/-- Slice 7 is ON and `cmdW` waits. -/
def devAdm : Dev := (Dev.setFld {} (Reg.SLI_STS_STATE 7) 2).updSlice 7 (fun x => { x with waiting := [cmdW] })
theorem wit_CommandsAreAdmittedInOrder :
    devAdm.isOn (.slice 7) = true ∧ (devAdm.slice 7).waiting = [cmdW] ∧ ((devAdm.refill 7).admitNext 7 cmdW).isSome = true ∧
    (let d := devAdm.setFld Reg.GLB_CAL_STS_COMMIT_HELD 1
     (d.refill 7).admitNext 7 cmdW = none) ∧
    (let d := devAdm.setBudget (Reg.SLI_ADM_IN_IN 7) (-5000)
     (d.refill 7).affords 7 ((d.refill 7).charge 7 cmdW).1 ((d.refill 7).charge 7 cmdW).2 = false) ∧
    (({} : Dev).isOn (.slice 7) = false ∧ ({} : Dev).ustate (.slice 7) = .off) ∧
    ((Dev.updTag {} 65535 (fun x => { x with leaveAt := true })).tag 65535).leaveAt = true ∧
    (let j : Job := ⟨.gcm 0, 0, 9000, 0, false, 0, .none⟩
     let d : Dev := (Dev.setFld {} (Reg.SLI_STS_STATE 7) 2).updSlice 7 (fun x => { x with jobs := [j] })
     (d.takeWork 7).mayRun 7 j = true ∧ ((d.takeWork 7).slice 7).jobs = [j] ∧ j.run.left ≠ 0 ∧ ∀ k ∈ schedule ((d.takeWork 7).mayRun 7) [j], k.left ≠ 0) := by decide +kernel

theorem wit_HostCommandsOnTheStewardRun :
    (0x460001 : DWord).toNat / 2 ^ 14 % 4 = 0 ∧ (({} : Dev).ctrl 0).events = [] ∧ (({} : Dev).ctrl 0).aers.length < 8 ∧
    8 ≤ ((Dev.updCtrl {} 0 (fun c => { c with aers := [0, 1, 2, 3, 4, 5, 6, 7] })).ctrl 0).aers.length := by decide

/-- A host that subsystem 3 allows. -/
def devHost : Dev := { nvt := { hosts := [77], subsys := [(3, { valid := true, hosts := [0] })] } }
theorem wit_ConnectIdentifyAndLogs :
    devHost.hostIndex 77 = some (0, devHost) ∧ devHost.hostAllowed 3 0 = true ∧ (devHost.ctrl devHost.cntlidBase).valid = false := by decide +kernel

theorem wit_AbortsAndKeepAlive :
    (∀ c ∈ (({} : Dev).slice (home 64)).waiting, c.qp ≠ 64) ∧
    (let d : Dev := Dev.updSlice {} (home 64) (fun x => { x with waiting := [{ cmdW with cid := 9 }, cmdW] })
     (d.slice (home 64)).waiting = [{ cmdW with cid := 9 }] ++ cmdW :: [] ∧ cmdW.qp = 64 ∧ cmdW.cid = BitVec.ofNat 16 1 ∧ cmdW.fwdIn = false ∧
     ({ cmdW with cid := 9 } : HostCmd).cid ≠ BitVec.ofNat 16 1) ∧
    (let d : Dev := { Dev.updCtrl {} 1 (fun c => { c with valid := true, kato := 1 }) with beat := 8000 }
     (d.ctrl 1).valid = true ∧ (d.ctrl 1).kato ≠ 0 ∧ 8000 * (d.ctrl 1).kato ≤ d.since (d.ctrl 1).lastCmdBeat ∧
     { d with beat := 7999 }.since (d.ctrl 1).lastCmdBeat < 8000 * (d.ctrl 1).kato) := by decide

/-- Tag 5 runs a command of opcode `op` on volume 2 for host 9. -/
def devResv (op : Nat) (r : Resv) : Dev :=
  (Dev.updTag {} 5 (fun x => { x with state := .running, vol := 2, cmd := some { cmdW with opcode := op, hostIdx := 9, fwdIn := true } })).updVol 2
    (fun v => { v with valid := true, resv := r })
theorem wit_ReservationsChangeAfterTheirRecord :
    ((devResv opResvRegister {}).runs 5 opResvRegister).isSome = true ∧ keyOfHost ((devResv opResvRegister {}).vol 2).resvLast 9 = none ∧
    keyOfHost ((devResv opResvAcquire { regs := [⟨9, 1⟩] }).vol 2).resvLast 9 = some 1 ∧
    ((devResv opResvRelease { regs := [⟨9, 1⟩], rtype := 6, holder := 9 }).vol 2).resvLast.holder = 9 ∧
    ((devResv opResvReport {}).runs 5 opResvReport).isSome = true ∧
    ((Dev.updVol {} 2 (fun v => { v with resvNext := [{ new := {}, tag := some 5 }] })).vol 2).resvNext = [{ new := {}, tag := some 5 }] ∧
    (({} : Dev).tag 5).mirror = none := by decide

theorem wit_GroupsAndForwarding :
    anaAllowed (({} : Dev).fld (Reg.NVT_ANA 63)) 15 = true ∧ anaAllowed (({} : Dev).fld (Reg.NVT_ANA 0)) 1 = false ∧
    (let d : Dev := Dev.setFld {} (Reg.NVT_ANA 0) 15
     d.fld (Reg.NVT_ANA 0) = 15 ∧ d.fld (Reg.NVT_ANA_OWN 0) = 0 ∧ d.grpRunning 0 = false) ∧
    (let d : Dev := Dev.updTag {} 5 (fun x => { x with state := .running, fwdOut := true, cmd := some { cmdW with opcode := 2 } })
     (d.tag 5).state = .running ∧ (d.tag 5).fwdOut = true ∧ (⟨3, 0⟩ : Status) ≠ stAnaTransition ∧ d.forwardLost 5 = true ∧ d.fov.handRole ≠ 2) := by decide

/-- A command over blocks 72 to 79, with one descriptor, in a format of `n` bytes, of blocks 8 to 15. -/
def cmdOf (op : Nat) (ad : Bool) : HostCmd :=
  let data : List Byte := if op = opDsm then leBytes 4 0 ++ leBytes 4 8 ++ leBytes 8 8 else leBytes 8 0 ++ leBytes 8 8 ++ leBytes 2 7 ++ leBytes 14 0
  { qp := 64, cid := 1, opcode := op, nsid := 1, slba := 72, nlb := 8, sgl := .none, dlen := if op = opDsm then 16 else if op = opCopy then 32 else 0
    ranges := [], ad := ad, copyFormat := 0, data := data, fwdIn := false, fwdTag := 0, hostIdx := 0, pages := [] }
/-- It runs in tag 5, on a namespace of two regions. -/
def devCmd (op : Nat) (ad : Bool) : Dev :=
  (Dev.updTag {} 5 (fun x => { x with state := .running, vol := 3, cmd := some (cmdOf op ad) })).updVol 3 (fun x => { x with size := 2 })
theorem wit_CommandsWithoutHostDataEnd :
    (devCmd opFlush false).runs 5 opFlush = some (cmdOf opFlush false) ∧ (devCmd opDsm true).runs 5 opDsm = some (cmdOf opDsm true) ∧
    (devCmd opDsm true).fetchDue 5 (cmdOf opDsm true) = false ∧ (devCmd opDsm true).descriptors 5 (cmdOf opDsm true) = some (cmdOf opDsm true).data ∧
    dsmRanges 1 (cmdOf opDsm true).data = [⟨8, 8⟩] ∧ innerRange (8 * 512) (16 * 512) = (4096, 8192) ∧ (devCmd opDsm true).needsPages 5 3 1 2 = false ∧
    inVolume { cmdOf opDsm true with ranges := [⟨8, 8⟩] } ((devCmd opDsm true).vol 3) = true ∧
    inVolume { cmdOf opDsm true with ranges := [⟨8, 1000⟩] } ((devCmd opDsm true).vol 3) = false ∧
    (devCmd opDsm true).fetchDue 5 { cmdOf opDsm true with sgl := .keyed ⟨0, 16, 0, false⟩ } = true ∧
    (devCmd opCopy false).runs 5 opCopy = some (cmdOf opCopy false) ∧ (devCmd opCopy false).descriptors 5 (cmdOf opCopy false) = some (cmdOf opCopy false).data ∧
    copyRanges 1 (cmdOf opCopy false).data = [⟨8, 8⟩] ∧ copyOk (cmdOf opCopy false) ((devCmd opCopy false).vol 3) [⟨8, 8⟩] = true ∧
    copyOk { cmdOf opCopy false with copyFormat := 1 } ((devCmd opCopy false).vol 3) [⟨8, 8⟩] = false ∧
    (devCmd opCopy false).grainsIn 5 3 1 2 = ([(keyOf 1 0, 0)], []) :=
  ⟨by decide +kernel, by decide +kernel, by decide +kernel, by decide +kernel, by decide +kernel, by decide +kernel, by decide +kernel, by decide +kernel, by decide +kernel, by decide +kernel, by decide +kernel, by decide +kernel, by decide +kernel, by decide +kernel, by decide +kernel, by decide +kernel⟩

/-- Slice 2 is ON, its pool holds a record ID, and a group of one grain waits for placement. -/
def grp0 : RGroup := { tag := 16384, slice := 2, vol := 3, grains := [⟨4096, 4096⟩], pages := [7], m := 10, gaps := [], rmw := false, admitBeat := 0, order := 0 }
def devGrp : Dev := ((Dev.setFld {} (Reg.SLI_STS_STATE 2) 2).setPool 2 [99]).updCtx 10 (fun c => { c with unit := { c.unit with state := .on, en := true } })
def devPlace : Dev := { devGrp.setFld Reg.GLB_CAL_STS_MODE 0 with cal := { devGrp.cal with groups := [(4, grp0)], placeQ := tput [] [] 2 [4] } }
theorem wit_WritesBecomeGroupsThatArePlaced :
    (let d := (devCmd opWrite false).updTag 5 (fun x => { x with pages := [8] })
     d.runs 5 opWrite = some (cmdOf opWrite false) ∧ (d.tag 5).pages = [8]) ∧
    ({} : Dev).nextGroup 2 = none ∧ devPlace.wpeFree 2 = true ∧ (devPlace.updSlice 2 (fun x => { x with wpeAt := 1 })).wpeFree 2 = false ∧
    devPlace.nextGroup 2 = some 4 ∧ devPlace.group 4 = some grp0 ∧ devPlace.dirUsed 2 + 1 ≤ Config.dirEntries ∧ 1 ≤ (devPlace.pool 2).length ∧
    devPlace.ringFull 1 = false ∧ devPlace.isOn (.qp 10) = true ∧ devPlace.vaultThrough = false ∧ (devPlace.setPool 2 []).pool 2 = [] ∧
    devPlace.freeIdx 2 1 = [0] :=
  ⟨by decide +kernel, by decide +kernel, by decide +kernel, by decide +kernel, by decide +kernel, by decide +kernel, by decide +kernel, by decide +kernel, by decide +kernel, by decide +kernel, by decide +kernel, by decide +kernel, by decide +kernel⟩

/-- A group of slice 2 with one gap byte range, over a record on flash, and a mirror context that receives. -/
def devGap : Dev := { devGrp with
  cal := { devGrp.cal with groups := [(4, { grp0 with gaps := [(4096, 16, 0)], rmw := true })] }
  mde := { devGrp.mde with recs := [(9, { state := .placed })] } }
/-- A whole mirror window under region 0, which context 10 may use. -/
def devWin : Dev := (devGrp.updCtx 10 (fun c => { c with xstate := .rts })).updRegion 0
  (fun r => { r with state := .valid, write := true, base := 2 ^ 34, len := 2 ^ 34 })
theorem wit_ZeroesMergesAndPutsFromThePeer :
    ((devCmd opZeroes false).runs 5 opZeroes = some (cmdOf opZeroes false) ∧ cmdRange (cmdOf opZeroes false) ((devCmd opZeroes false).vol 3) = (4096 * 9, 4096 * (9 + 1))) ∧
    devGap.nextMerge 2 = some (4, { grp0 with gaps := [(4096, 16, 0)], rmw := true }) ∧ devGap.needsFlash { grp0 with gaps := [(4096, 16, 0)], rmw := true } = false ∧
    (∀ b ∈ RGroup.units { grp0 with gaps := [(4096, 16, 0)], rmw := true }, devGap.oldSource grp0 b ≠ .damaged) ∧
    ({} : Dev).nextMerge 0 = none ∧ (devWin.ctx 10).receives = true ∧ devWin.windowCheck (devWin.ctx 10).pd 0 = true ∧
    devWin.windowCheck (devWin.ctx 10).pd 256 = false :=
  ⟨by decide +kernel, by decide +kernel, by decide +kernel, by decide +kernel, by decide +kernel, by decide +kernel, by decide +kernel, by decide +kernel⟩

/-- The peer is absent, and one own grain is MIRRORED. -/
def devVt (mode : Nat) : Dev := ((Dev.setFld {} Reg.GLB_CAL_STS_PEER_ABSENT 1).setFld Reg.GLB_CAL_STS_MODE mode).updDir 7 262143 (fun e => { e with state := .mirrored })
/-- No reason holds. -/
def devNoReason : Dev := [Reg.GLB_CAL_STS_PEER_ABSENT, Reg.GLB_CAL_STS_MIRROR_BROKEN, Reg.GLB_CAL_STS_HOLDUP_LOW, Reg.GLB_CAL_STS_ONE_VAULT].foldl (fun d f => d.setFld f 0) (devVt 1)
theorem wit_VaultThroughModeIsEnteredAndLeft :
    (devVt 0).vaultReasons ≠ 0 ∧ (devVt 0).vaultThrough = false ∧ devNoReason.vaultReasons = 0 ∧
    devNoReason.vaultThrough = true ∧ ((devVt 1).dir 7 262143).unvaulted = true ∧ (devVt 1).cal.pwrfail = false ∧
    (let d : Dev := { ({} : Dev) with cal := { ({} : Dev).cal with groups := [(4, { grp0 with vault := true })] } }
     d.group 4 = some { grp0 with vault := true }) :=
  ⟨by decide +kernel, by decide +kernel, by decide +kernel, by decide +kernel, by decide +kernel, by decide +kernel, by decide +kernel⟩

/-- One grain of slice 0 in a state, past its age. -/
def devGrain (st : GState) : Dev :=
  { ((Dev.setFld {} (Reg.SLI_STS_STATE 0) 2).updDir 0 3 (fun e => { e with state := st, segment := 6, grid := 9 })).arm (tmMirrored 0 3) with edges := 2 ^ 32 }
theorem wit_GrainsAreDestagedAndReleased :
    (devGrain .mirrored).eligible 0 3 = true ∧ (devGrain .mirrored).isOn (.slice 0) = true ∧
    ((devGrain .mirrored).dirOf 0).all (fun x => !((devGrain .mirrored).eligible 0 x.1 && x.2.before ((devGrain .mirrored).dir 0 3))) = true ∧
    (devGrain .staged).eligible 0 3 = false ∧
    (let d := ((devGrain .destaging).updRed (dirKey 0 3) (fun r => { r with step := .journaled, wait := some (0, 0) })).updGrec 9 (fun g => { g with state := .placed })
     (d.dir 0 3).state = .destaging ∧ (d.red (dirKey 0 3)).step = .journaled ∧ (d.red (dirKey 0 3)).wait = some (0, 0) ∧ waitHolds (d.ctx 0).cc 0 = true ∧
      (d.grec (d.dir 0 3).placeGrid).state = .placed) ∧
    ((devGrain .verified).dir 0 3).state = .verified ∧ (devGrain .verified).insertPending 9 = false ∧ (devGrain .verified).isOn (.qp 0) = false ∧
    ((devGrain .verified).updCtx 0 (fun c => { c with unit := { c.unit with state := .on } })).isOn (.qp 0) = true ∧
    (devGrain .verified).cal.dirs = [(dirKey 0 3, (devGrain .verified).dir 0 3)] :=
  ⟨by decide +kernel, by decide +kernel, by decide +kernel, by decide +kernel, by decide +kernel, by decide +kernel, by decide +kernel, by decide +kernel, by decide +kernel, by decide +kernel⟩

/-- Slice 0 is ON, a Write waits, and the mark is 0 pages. -/
def devMark : Dev :=
  let d : Dev := ((Dev.setFld {} (Reg.SLI_STS_STATE 0) 2).setFld Reg.GLB_CAL_HWM_PAGES 0).updSlice 0 (fun x => { x with waiting := [cmdOf opWrite false] })
  { d with cal := { d.cal with runs := [⟨0, 1, .command 0⟩] } }
theorem wit_WriteClassCommandsWaitAboveTheHighWaterMark :
    devMark.isOn (.slice 0) = true ∧ (devMark.slice 0).waiting = [cmdOf opWrite false] ∧ writeClass (cmdOf opWrite false).opcode = true ∧
    devMark.fld Reg.GLB_CAL_HWM_PAGES < devMark.ownDirty :=
  ⟨by decide +kernel, by decide +kernel, by decide +kernel, by decide +kernel⟩

/-- A grain of slice 0 at a step of reduction, in a volume that deduplicates and compresses, with a table of 2^16 buckets. -/
def devRed (st : RedStep) : Dev :=
  let d : Dev := ((devGrain .destaging).updRed (dirKey 0 3) (fun r => { r with step := st, fp := [1] })).updVolRed 0 (fun v => { v with dedup := true, comp := true })
  d.setFld Reg.MDE_TPH_SIZE_LOG2_BUCKETS 16
theorem wit_GrainsAreFingerprintedAndMatched :
    (devRed (.hashing 15)).grainIn 0 (isHashing 15) = some (dirKey 0 3) ∧ ((devRed (.hashing 15)).volRed 0).dedup = true ∧
    (devRed (.hashing 15)).tphActive = true ∧
    (((devRed (.hashing 15)).updVolRed 0 (fun v => { v with dedup := false })).volRed 0).comp = true ∧
    (((devRed .check).red (dirKey 0 3)).step = .check ∧ (devRed .check).insertPending 9 = false ∧ (devRed .check).tph.loads = [] ∧ (devRed .loadWait).grainsWith 0 (isHashing 1) = [] ∧
      (devRed .check).tph.mans = [] ∧ isHook [1] = false ∧ isHook [0] = true ∧
        ({ devRed .check with tph := { (devRed .check).tph with touched := [0] } } : Dev).bucketBusy (bucketOf (devRed .check).tphBits [0]) = true) ∧
    (devRed (.hashing 15)).grainsWith 0 (isHashing 15) = [dirKey 0 3] ∧
    ((devRed .loadWait).arm (tmLoadWait 0 3)).edges = 2 ^ 32 ∧
    ({ (devRed .loadWait).arm (tmLoadWait 0 3) with edges := 2 ^ 33 } : Dev).expired (tmLoadWait 0 3) ((devRed .loadWait).fld Reg.MDE_TPH_CFG_LOAD_WAIT) = true ∧
    newest ((devRed (.verifying 7)).cal.dirs.filter (fun x => x.2.seen && decide (x.2.grid = 7))) = none ∧
    ({ ({} : Dev) with tph := { ({} : Dev).tph with loads := [⟨5, 0, 0⟩] } } : Dev).tph.grains = [] :=
  ⟨by decide +kernel, by decide +kernel, by decide +kernel, by decide +kernel, by decide +kernel, by decide +kernel, by decide +kernel, by decide +kernel, by decide +kernel, by decide +kernel⟩

/-- The link is UP, one entry waits, and the beat lies past offset 2^20. -/
def devBatch : Dev := { Dev.setFld {} Reg.CDX_STS_LINK 3 with beat := 2 ^ 23 + 2 ^ 20, tph := { ({} : Dev).tph with outQ := [⟨1, 2, 0, 0, 1, true⟩] } }
theorem wit_TephraBatchesAndCompressedFrames :
    devBatch.tph.sentEpoch ≠ devBatch.epoch + 1 ∧ 2 ^ 20 ≤ devBatch.offset ∧ devBatch.linkSends = true ∧ devBatch.flag Reg.MDE_TPH_CFG_BATCH_EN = true ∧
    ({} : Dev).offset < 2 ^ 20 ∧ ({} : Dev).flag Reg.MDE_TPH_CFG_BATCH_ACCEPT = true ∧ (Dev.setFld {} Reg.MDE_TPH_CFG_BATCH_ACCEPT 0).flag Reg.MDE_TPH_CFG_BATCH_ACCEPT = false ∧
    (let b : BatchIn := ⟨5, [], none, 0⟩
     (b.epoch + 1) * Config.epochBeats + 2 ^ 20 ≤ devBatch.beat ∧ ({} : Dev).beat < (b.epoch + 1) * Config.epochBeats + 2 ^ 20) ∧
    (devRed (.compressing 3 2)).grainIn 0 (isCompressing 3) = some (dirKey 0 3) ∧ ((devRed (.compressing 3 2)).red (dirKey 0 3)).step = .compressing 3 2 ∧
    ((devRed (.compressing 3 2)).slice 0).jobs = [] ∧
    sinterDecode [] ((devRed (.compressing 3 2)).dirKeyed (dirKey 0 3)).bytes ≠ .ok [] :=
  ⟨by decide +kernel, by decide +kernel, by decide +kernel, by decide +kernel, by decide +kernel, by decide +kernel, by decide +kernel, by decide +kernel, by decide +kernel, by decide +kernel, by decide +kernel, by decide +kernel⟩

/-- Slot 4095 holds a key of generation 3 and waits for its counter. -/
def devKey : Dev := Dev.updKslot {} 4095 (fun _ => { state := .unsealed, gen := 3 })
theorem wit_KeyCommandsActOnTheirSlot :
    (Dev.setFld {} Reg.KEY_STS_BUSY 1).flag Reg.KEY_STS_BUSY = true ∧ devKey.flag Reg.KEY_STS_BUSY = false ∧ devKey.flag Reg.KEY_STS_LOCKED = false ∧
    (devKey.kslot 4095).gen ≠ devKey.fld Reg.KEY_LOAD_GEN_GEN ∧ (devKey.kslot 0).state = .empty ∧ devKey.fld Reg.KEY_LOAD_HWM_HWM + 2 ^ 20 < 2 ^ 48 ∧
    2 ^ 48 ≤ (devKey.setFld Reg.KEY_LOAD_HWM_HWM (2 ^ 48 - 2 ^ 20)).fld Reg.KEY_LOAD_HWM_HWM + 2 ^ 20 ∧
    (devKey.setFld Reg.KEY_LOAD_GEN_GEN 3).fld Reg.KEY_LOAD_GEN_GEN = (devKey.kslot 4095).gen ∧ (devKey.kslot 4095).state = .unsealed ∧
    (devKey.kslot 4095).durableValid = false ∧
    (⟨4095, 3, 8, 0, 0, false⟩ : HwmPost) ∈ ({ devKey with key := { devKey.key with posts := [⟨4095, 3, 8, 0, 0, false⟩] } } : Dev).key.posts :=
  ⟨by decide +kernel, by decide +kernel, by decide +kernel, by decide +kernel, by decide +kernel, by decide +kernel, by decide +kernel, by decide +kernel, by decide +kernel, by decide +kernel, by decide +kernel⟩

/-- Slice 0 is ON and two drives are in service for data. -/
def devLay : Dev :=
  [Reg.DRV_ATT_STS_STATE 0, Reg.DRV_ATT_STS_STATE 127].foldl (fun d f => d.setFld f 2) ([(Reg.DRV_ATT_FREE_FREE 0, 9), (Reg.DRV_ATT_FREE_FREE 127, 9),
    (Reg.DRV_ATT_CTL_DATA_EN 0, 1), (Reg.DRV_ATT_CTL_DATA_EN 127, 1), (Reg.GLB_LAY_DATA_GEOM_K, 1), (Reg.GLB_LAY_DATA_GEOM_M, 1), (Reg.SLI_STS_STATE 0, 2)].foldl
      (fun d f => d.setFld f.1 f.2) ({} : Dev))
/-- A segment of slice 0 in the in-flight table. -/
def devSeg (x : LaySeg) : Dev := { devLay with lay := { devLay.lay with segs := [(0, x)] } }
/-- One record waits for a nonce of slot 5. -/
def jobN : GcmJob := { slice := 0, eng := 0, cls := 2, side := 0, work := .sealRec 7 0, slot := 5, len := 64 }
def devNonce : Dev := { (Dev.updKslot {} 5 (fun _ => { state := .ready, counter := 3, durableValid := true, gen := 2 })) with key :=
  { (Dev.updKslot {} 5 (fun _ => { state := .ready, counter := 3, durableValid := true, gen := 2 })).key with jobs := [jobN] } }
theorem wit_SegmentsOpenSealAndClose :
    devLay.fld (Reg.SLI_ECU_OPEN_SEG_SEGMENT 0) = 0 ∧ devLay.flag (Reg.SLI_ECU_STS_FAULT 0) = false ∧ devLay.isOn (.slice 0) = true ∧
    devLay.layOf 0 = none ∧ devLay.lay.segs.length < 4096 ∧ devLay.freeSegNo = some 1 ∧
    devLay.fld Reg.GLB_LAY_DATA_GEOM_K + devLay.fld Reg.GLB_LAY_DATA_GEOM_M ≤ (devLay.drivesFor false).length ∧
    (∀ a ∈ devLay.drivesFor false, (devLay.freeLoc a).isSome = true) ∧ devLay.slotId < 2 ∧
    (let d := devLay.setFld Reg.GLB_LAY_DATA_GEOM_K 2
     (d.drivesFor false).length < d.fld Reg.GLB_LAY_DATA_GEOM_K + d.fld Reg.GLB_LAY_DATA_GEOM_M) ∧
    devNonce.gcmRunning 0 0 = none ∧ devNonce.gcmWaiting 0 0 = [(0, jobN)] ∧ (devNonce.kslot 5).mayDraw = true ∧ (devNonce.kslot 5).state = .ready ∧
    (devSeg { seg := 7, k := 1, m := 1, isMeta := false }).layOf 7 = some { seg := 7, k := 1, m := 1, isMeta := false } ∧
    ({ devSeg { seg := 7 } with beat := 2 ^ 24 } : Dev).closeDue { seg := 7 } = true ∧ (devSeg { seg := 7 }).closeDue { seg := 7 } = false ∧
    (devSeg { seg := 7, state := .closed, ecu := .parityDone }).layOf 7 = some { seg := 7, state := .closed, ecu := .parityDone } :=
  ⟨by decide +kernel, by decide +kernel, by decide +kernel, by decide +kernel, by decide +kernel, by decide +kernel, by decide +kernel, by decide +kernel, by decide +kernel, by decide +kernel, by decide +kernel, by decide +kernel, by decide +kernel, by decide +kernel, by decide +kernel, by decide +kernel, by decide +kernel, by decide +kernel⟩

/-- A descriptor of zeros with its DCRC; the CRC is found 32 bytes at a time. -/
def desc0 : List Byte := List.replicate 28 0 ++ [0x90, 0xb1, 0x72, 0xb8] ++ List.replicate 224 0
def zeros32 : List Byte := List.replicate 32 0
theorem desc0_crc0 : zeros32.foldl crcByte 0xffffffff#32 = 0x756ec955#32 := by decide +kernel
theorem desc0_crc1 : zeros32.foldl crcByte 0x756ec955#32 = 0xfc371498#32 := by decide +kernel
theorem desc0_crc2 : zeros32.foldl crcByte 0xfc371498#32 = 0xae0dfb54#32 := by decide +kernel
theorem desc0_crc3 : zeros32.foldl crcByte 0xae0dfb54#32 = 0xf7d89b24#32 := by decide +kernel
theorem desc0_crc4 : zeros32.foldl crcByte 0xf7d89b24#32 = 0x1c545c65#32 := by decide +kernel
theorem desc0_crc5 : zeros32.foldl crcByte 0x1c545c65#32 = 0x8bca87cf#32 := by decide +kernel
theorem desc0_crc6 : zeros32.foldl crcByte 0x8bca87cf#32 = 0xb7050ee9#32 := by decide +kernel
theorem desc0_crc7 : zeros32.foldl crcByte 0xb7050ee9#32 = 0x478d4e6f#32 := by decide +kernel
theorem desc0_list : desc0.take 28 ++ [0, 0, 0, 0] ++ (desc0.take 256).drop 32 = zeros32 ++ zeros32 ++ zeros32 ++ zeros32 ++ zeros32 ++ zeros32 ++ zeros32 ++ zeros32 := by decide +kernel
theorem desc0_ok : (descOf desc0).isSome = true := by
  have h : crc32c (desc0.take 28 ++ [0, 0, 0, 0] ++ (desc0.take 256).drop 32) = 0xb872b190#32 := by
    rw [desc0_list, crc32c]
    simp only [List.foldl_append, desc0_crc0, desc0_crc1, desc0_crc2, desc0_crc3, desc0_crc4, desc0_crc5, desc0_crc6, desc0_crc7]
    decide +kernel
  have h2 : (0xb872b190#32).toNat = leField desc0 28 4 := by decide +kernel
  have h3 : 256 ≤ desc0.length := by decide +kernel
  simp only [descOf, h, h2, h3, and_self, if_true, Option.isSome_some]
theorem wit_SegmentsAreWrittenAndVerified :
    (devSeg { seg := 7, state := .writing }).layOf 7 = some { seg := 7, state := .writing } ∧
    (devSeg { seg := 7, state := .writing, bad := some (1, 2) }).layOf 7 = some { seg := 7, state := .writing, bad := some (1, 2) } ∧
    (devSeg { seg := 7, state := .written }).layOf 7 = some { seg := 7, state := .written } ∧
    (devSeg { seg := 7, state := .written }).since 0 < (devSeg { seg := 7, state := .written }).fld Reg.GLB_LAY_VERIFY_TIMEOUT ∧
    (devSeg { seg := 7, state := .written }).linkSends = false ∧
    (verifyStrips (devSeg { seg := 7 }).slotKey (({ seg := 7, ownPass := true, state := .written } : LaySeg).desc 0) [.unreachable]).result = vrUnreachable ∧
    (descOf desc0).isSome = true ∧ 2 ≤ devBatch.fld Reg.CDX_STS_LINK ∧
    (∃ y, descOf desc0 = some y ∧ (y.seg, true) ∈ ({ ({} : Dev) with lay := { ({} : Dev).lay with checks := [(y.seg, true)] } } : Dev).lay.checks) ∧
    (devSeg { seg := 7, state := .written, ownPass := true, ecu := .checkDone }).layOf 7 =
      some { seg := 7, state := .written, ownPass := true, ecu := .checkDone } :=
  ⟨by decide +kernel, by decide +kernel, by decide +kernel, by decide +kernel, by decide +kernel, by decide +kernel, desc0_ok, by decide +kernel,
    (Option.isSome_iff_exists.1 desc0_ok).elim (fun y h => ⟨y, h, List.mem_singleton.2 rfl⟩), by decide +kernel⟩

/-- A pending insert of zeros, a leaf page in the cascade, and a snapshot that waits for nothing. -/
def recZ : JRec := ⟨0, 0, 4, 7, .insert 3 40 0 false true, true⟩
def devMde (st : TreeState) : Dev :=
  let d : Dev := (((Dev.updPage {} 9 (fun p => { p with tree := 3 })).updTree 3 (fun t => { t with state := st, root := 9 })).setFld Reg.MDE_CFG_DEL_RATE 4).setFld
    Reg.MDE_JSEQ_NEXT_SEQ 5
  { d with mde := { d.mde with inserts := [recZ] } }
theorem wit_MetadataEngineSteps :
    (devMde .ready).mde.inserts.find? (devMde .ready).insertReady = some recZ ∧ ((devMde .damaged).tree 3).state = .damaged ∧
    ({} : Dev).mde.inserts.find? ({} : Dev).insertReady = none ∧
    (((devMde .ready).page 9).level = 0 ∧ ((devMde .ready).page 9).ents = [] ∧ 1 ≤ (devMde .ready).fld Reg.MDE_CFG_DEL_RATE) ∧
    (let d : Dev := { devMde .ready with mde := { (devMde .ready).mde with inserts := [], snaps := [⟨32768, 3, 8, 0⟩] } }
     d.mde.snaps.find? (fun p => !d.snapWaits p) = some ⟨32768, 3, 8, 0⟩ ∧ (d.tree 3).root ≠ 0) ∧
    ((devMde .deleting).tree 3).state = .deleting ∧ (devMde .deleting).mde.cascade.any (fun e => decide (e.2 = 3)) = false ∧
    ((devMde .ready).tree 3).state ≠ .deleting ∧ pageClass 9 ≠ 1 ∧ pageClass (2 ^ 44) = 1 ∧ (({} : Dev).pool 7).length < 1024 ∧
    1024 ≤ ((Dev.setPool {} 7 (List.replicate 1024 1)).pool 7).length :=
  ⟨by decide +kernel, by decide +kernel, by decide +kernel, by decide +kernel, by decide +kernel, by decide +kernel, by decide +kernel, by decide +kernel, by decide +kernel, by decide +kernel, by decide +kernel, by decide +kernel⟩

/-- Record 5 of segment 7 was written again in segment 8, and segment 7 has nothing else left to relocate. -/
def devMoved : Dev :=
  let d : Dev := (Dev.updGrec {} 5 (fun g => { g with state := .placed, seg := 7 })).updSegEnt 7 (fun x => { x with relocLeft := [5], state := .relocating })
  { d with mde := { d.mde with relocReady := [⟨5, 7, 8, 0, 64⟩], reloc := [7] } }
theorem wit_CheckpointsReplayAndRelocation :
    ({} : Dev).fld Reg.MDE_JSEQ_NEXT_SEQ < (({} : Dev).mde.spillTo / recsPerPage + ({} : Dev).runPages) * recsPerPage ∧
    (let d : Dev := Dev.setFld {} Reg.MDE_JSEQ_NEXT_SEQ (64 * 63)
     (d.mde.spillTo / recsPerPage + d.runPages) * recsPerPage ≤ d.fld Reg.MDE_JSEQ_NEXT_SEQ) ∧
    (({} : Dev).mde.cpRun = false ∧ ({} : Dev).mde.ownGone = false) ∧
    (let d : Dev := { ({} : Dev) with mde := { ({} : Dev).mde with cpRun := true, cpAnchors := 2 } }
     d.mde.cpRun = true ∧ 2 ≤ d.mde.cpAnchors ∧ d.mde.cpOther = false ∧ d.mde.cpNext = false ∧ d.mde.cpDue = false) ∧
    (({} : Dev).fld Reg.FOV_STS_STATE = 0 ∧ ({} : Dev).fov.replayDone = false) ∧ ({} : Dev).fov.handRole ≠ 1 ∧
    (let d : Dev := devMoved
     d.mde.relocReady = [⟨5, 7, 8, 0, 64⟩] ∧ (d.grec 5).state = .placed ∧ (d.grec 5).seg = 7 ∧ 7 ∈ d.mde.reloc ∧ (d.segEnt 7).relocLeft = [5]) ∧
    (2 ≤ devBatch.fld Reg.CDX_STS_LINK ∧ devBatch.mde.peerRseq < 1 ∧ 0 ≤ devBatch.mde.peerRseq) :=
  ⟨by decide +kernel, by decide +kernel, by decide +kernel, by decide +kernel, by decide +kernel, by decide +kernel, by decide +kernel, by decide +kernel⟩

/-- The cache is ON with line 5 in a way. -/
def devMdc : Dev := (Dev.setFld {} Reg.MDC_STS_STATE 2).putLine (wayKey (mdcSet 5) 3) { valid := true, line := 5, bytes := [1] }
theorem wit_TheMetadataCacheAndItsCommands :
    ({} : Dev).flag Reg.MDC_CMD_STS_BUSY = false ∧ (Dev.setFld {} Reg.MDC_CMD_STS_BUSY 1).flag Reg.MDC_CMD_STS_BUSY = true ∧ ({} : Dev).mdc.cmd = none ∧
    (let c : MdcCmd := { op := .lockClear, entry := 11, begun := true, walk := 2 ^ 36, lockDrop := 1 }
     ({ ({} : Dev) with mdc := { ({} : Dev).mdc with cmd := some c } } : Dev).walkLen c ≤ c.walk) ∧
    (devMdc.fld Reg.MDC_STS_STATE = 2 ∧ devMdc.mdcFind 5 = some (wayKey (mdcSet 5) 3) ∧ devMdc.mdc.drain = 0) ∧
    (let d := devMdc.setFld Reg.MDC_CTL_PF_EN 0
     d.mdcFind (2 ^ 36 - 1) = none ∧ d.flag Reg.MDC_CTL_PF_EN = false ∧ d.victim (mdcSet (2 ^ 36 - 1)) (d.mayFill (2 ^ 36 - 1)) = some 0) ∧
    (({} : Dev).fld Reg.MDC_STS_STATE = 0 ∧ ({} : Dev).mdcFind 0 = none) ∧
    (let d : Dev := { devMdc with mdc := { devMdc.mdc with wb := [MdcWb.mk 9 77 [2] 0] } }
     d.mdc.wb.find? (fun w => decide (w.key = 9)) = some (MdcWb.mk 9 77 [2] 0) ∧ (d.mdcLine 9).valid = false) :=
  ⟨by decide +kernel, by decide +kernel, by decide +kernel, by decide +kernel, by decide +kernel, by decide +kernel, by decide +kernel, by decide +kernel⟩

/-- A command whose reading ended one edge ago, and which was judged then. -/
def devEnded (op : Nat) (j : Nat) : Dev :=
  { (devCmd op false).updTag 5 (fun x => { x with begun := true, ended := 1, judged := j, status := some stSuccess }) with edges := 4 }
theorem wit_ReadCommandsResolveAndEnd :
    (cmdOf opRead false).sgl = .none ∧ (cmdOf opRead false).fwdIn = false ∧ (devCmd opRead false).runs 5 opRead = some (cmdOf opRead false) ∧
    (devCmd opVerify false).runs 5 opVerify = some (cmdOf opVerify false) ∧ (devCmd opCompare false).runs 5 opCompare = some (cmdOf opCompare false) ∧
    (devCmd opRead false).rd.reads = [] ∧ ((devCmd opRead false).tag 5).posted = false ∧ ((devCmd opRead false).tag 5).left ≤ ((devCmd opRead false).tag 5).fetched ∧
    (devCmd opRead false).extents 3 ((cmdInput (cmdOf opRead false) ((devCmd opRead false).vol 3)).1 / 4096) 1 = [⟨.zeros, 9, 1⟩] ∧
    ((devCmd opRead false).tag 5).ended = 0 ∧ ((devEnded opRead 0).tag 5).ended ≠ (devEnded opRead 0).edges + 1 ∧ (devEnded opRead 0).readsOf 5 = [] ∧
    (devEnded opRead 0).dataQueued 5 (cmdOf opRead false) = false ∧ ((devEnded opCompare 2).tag 5).judged ≠ (devEnded opCompare 2).edges + 1 ∧
    (let d : Dev := ((devCmd opRead false).updTree 3 (fun x => { x with state := .ready, root := 9 })).updPage 9 (fun p => { p with resident := false, tree := 3 })
     (d.extents 3 9 1).any (fun y => y.src.needsPage) = true) :=
  ⟨by decide +kernel, by decide +kernel, by decide +kernel, by decide +kernel, by decide +kernel, by decide +kernel, by decide +kernel, by decide +kernel, by decide +kernel, by decide +kernel, by decide +kernel, by decide +kernel, by decide +kernel, by decide +kernel, by decide +kernel⟩

/-- A grain of a read in slice 0 at a step. -/
def devRd (st : RdStep) : Dev :=
  { (Dev.updRd {} 3 (fun x => { x with slice := 0, step := st, dec := 4, seg := 7, slen := 100, tag := 5, hi := 4096, dirRef := some 9 })) with beat := 2 ^ 30 }
theorem wit_RecordsOfAReadOnTheirWay :
    (let d : Dev := (devRd .bufWait).setFld (Reg.SLI_STS_STATE 0) 2
     (d.lookupsEnd 0).rdOf 3 = d.rdOf 3 ∧ (d.lookupsEnd 0).fld (Reg.SLI_RD_RBUF_FREE 0) = d.fld (Reg.SLI_RD_RBUF_FREE 0) ∧
       ((d.lookupsEnd 0).rd.reads.filter (fun e => decide (e.2.slice = 0) && decide (e.2.step = .bufWait) &&
         (d.lookupsEnd 0).serves 0 (e.2.tag / Config.tagsPerSlice))).map (·.1) = [3]) ∧
    ((devRd .bufWait).rdOf 3).need ≤ (devRd .bufWait).fld (Reg.SLI_RD_RBUF_FREE 0) ∧ devLay.inService 127 = true ∧
    ((devRd .bufWait).setFld (Reg.SLI_RD_RBUF_FREE 0) 0).fld (Reg.SLI_RD_RBUF_FREE 0) < ((devRd .bufWait).rdOf 3).need ∧
    (let d : Dev := (devSeg { seg := 7, state := .closed, k := 1, m := 1, recs := [⟨.summary, tySummary, 0, 0, 0, 1, false, [], metaSlot, 0, [1], []⟩] })
     let d1 : Dev := { d with key := { d.key with jobs := [{ jobN with latched := true }] } }
     d1.gcmRunning 0 0 = some (0, { jobN with latched := true }) ∧ (d1.layOf 7).isSome = true) ∧
    ((devRd .inflating).rd.reads.find? (fun e => decide (e.2.slice = 0) && decide (e.2.step = .inflating) && decide (e.2.dec = 3 + 1))).isSome = true ∧
    sinterDecode [] 4096 = .malformed ∧ ((devRd .sent).rdOf 3).active = false ∧ ((devRd .sent).tag 5).out = 0 ∧ ((devRd .sent).rdOf 3).dirRef = some 9 ∧
    ((devRd .drive).rdOf 3).active = true ∧
    ((devRd .drive).fld (Reg.SLI_RD_CFG_HEDGE 0) ≠ 0 ∧ (devRd .drive).fld (Reg.SLI_RD_CFG_HEDGE 0) ≤ (devRd .drive).since ((devRd .drive).rdOf 3).issued) :=
  by and_intros <;> decide +kernel

theorem wit_ReconstructionsEnd :
    ((devRd .recon).rdOf 3).step = .recon ∧ ((devRd .recon).updRd 3 (fun x => { x with solve := .solved })).rdOf 3 = { (devRd .recon).rdOf 3 with solve := .solved } ∧ ((devRd .drive).rdOf 3).step ≠ .recon ∧
    ((devRd .recon).rdOf 3).driveBusy = false ∧ ({} : Dev).rd.reads = [] ∧
    (let d : Dev := { Dev.setFld {} (Reg.SLI_STS_STATE 7) 2 with drv := { ({} : Dev).drv with rebuilds := [(7, 0)], rebEpoch := 5 } }
     d.flag Reg.DRV_REBUILD_EN = true ∧ d.drv.rebEpoch ≠ d.epoch ∧ 1 ≤ d.fld Reg.DRV_REBUILD_RATE ∧ d.isOn (.slice 7) = true) ∧
    (let d : Dev := (Dev.setFld {} (Reg.DRV_ATT_STS_RETIRED 127) 1).setFld Reg.MDE_CP_NUM_NUM 4
     ({ d with drv := { d.drv with rebuildCp := tput 0 [] 127 4 } } : Dev).rebuildDue 127 = true) ∧ ({} : Dev).rebuildDue 0 = false ∧
    ({} : Dev).reclaimDue 7 = false ∧
    (let d : Dev := (Dev.updSegEnt {} 7 (fun x => { x with state := .live, live := 0, emptyEpoch := 1 })).setFld Reg.CDX_STS_LINK 3
     ({ d with beat := 2 ^ 26 } : Dev).reclaimDue 7 = true) :=
  ⟨by decide +kernel, by decide +kernel, by decide +kernel, by decide +kernel, by decide +kernel, by decide +kernel, by decide +kernel, by decide +kernel, by decide +kernel, by decide +kernel⟩

/-- Attach point 4 is ON, its slot 0 holds a command in the given state, and another command waits. -/
def drvC (st : DState) : DrvCmd := { req := .other, cls := 2, op := 2, slice := 0, lba := 0, nlb := 8, state := st }
def devDrv (st : DState) : Dev :=
  let d : Dev := (((Dev.setFld {} (Reg.DRV_ATT_STS_STATE 4) 2).setFld (Reg.DRV_PORT_CTL_MODE 2) 1).updAtt 4 (fun x => { x with ioq := 8 })).setFld Reg.DRV_CFG_CMD_TIMEOUT 0
  { d with drv := { d.drv with slots := [(1024, drvC st)], queue := [(4, drvC .waiting)] } }
theorem wit_DrivePortsAndDriveCommands :
    (Dev.setFld {} (Reg.DRV_PORT_STS_VAULT 0) 1).flag (Reg.DRV_PORT_STS_VAULT 0) = true ∧
    ((devDrv .issued).flag (Reg.DRV_PORT_STS_VAULT 2) = false ∧ (devDrv .issued).portOff 2 = true) ∧ (devDrv .issued).portOff 1 = false ∧
    (devDrv .issued).perstDue 2 = false ∧
    (let d : Dev := (((Dev.setFld {} (Reg.DRV_PORT_STS_PERST_ASSERTED 2) 1).setFld (Reg.DRV_PORT_CTL_PERST 2) 1).setFld (Reg.DRV_PORT_CFG_PERST_HOLD 2) 0).arm (tmPerst 2)
     d.perstDue 2 = true) ∧
    (({} : Dev).flag (Reg.DRV_ATT_STS_PRESENT 127) = false ∧ ({} : Dev).flag (Reg.DRV_ATT_STS_PRESENT 127) ≠ true) ∧
    (({} : Dev).ustate (.att 4) ≠ .on ∧ ({} : Dev).ustate (.att 4) ≠ .starting) ∧
    ((devDrv .issued).ustate (.att 4) = .on ∧ (∀ e ∈ (devDrv .issued).slotsOf 4, e.2.req = .other) ∧ tget 0 (devDrv .issued).hwPend (128 + 4) = 0) ∧
    ((devDrv .issued).drv.queue = [(4, drvC .waiting)] ∧ (devDrv .issued).isOn (.att 4) = true ∧ (devDrv .issued).driveHeld 4 = false ∧
      (devDrv .issued).mayIssue 4 (drvC .waiting) = true) ∧
    (let d : Dev := { ({} : Dev) with drv := { ({} : Dev).drv with queue := [(4, drvC .waiting)] } }
     d.drv.queue = [(4, drvC .waiting)] ∧ d.isOn (.att 4) = false) ∧
    ((devDrv .issued).slotCmd 4 1 = none ∧ (devDrv .timedOut).slotCmd 4 0 = some (drvC .timedOut) ∧ (devDrv .issued).slotCmd 4 0 = some (drvC .issued)) ∧
    ((devDrv .issued).isVault 4 = false ∧ (devDrv .issued).fencing = false ∧ (devDrv .issued).fld Reg.FOV_STS_STATE ≠ 7) ∧
    ((drvC .issued).cls ≠ 0 ∧ (devDrv .issued).fld Reg.DRV_CFG_CMD_TIMEOUT ≤ (devDrv .issued).since (drvC .issued).issued) :=
  ⟨by decide +kernel, by decide +kernel, by decide +kernel, by decide +kernel, by decide +kernel, by decide +kernel, by decide +kernel, by decide +kernel, by decide +kernel, by decide +kernel, by decide +kernel, by decide +kernel, by decide +kernel⟩

theorem desc0_some : ∃ x : SegDesc, descOf desc0 = some x ∧ x.k = 0 ∧ x.m = 0 := by
  have h : (descOf desc0).isSome = true := desc0_ok
  have hk : leField desc0 4 1 = 0 := by decide +kernel
  have hm : leField desc0 5 1 = 0 := by decide +kernel
  simp only [descOf] at h ⊢
  split at h
  · rename_i hc
    exact ⟨_, if_pos hc, hk, hm⟩
  · cases h
/-- A segment whose descriptor is `desc0`, scrubbing on. -/
def devScrub : Dev :=
  let d : Dev := (Dev.setFld {} Reg.GLB_LAY_SCRUB_EN 1).setFld (Reg.SLI_STS_STATE 7) 2
  { d with mde := { d.mde with segs := [(7, { state := .live, desc := desc0 })] } }
theorem devScrub_list : devScrub.scrubList = [7] := by
  have hr : devScrub.rebuildable 7 = true := by decide +kernel
  show ((List.filter _ [(7, ({ state := .live, desc := desc0 } : SegEnt))]).map (·.1)) = [7]
  simp [desc0_ok, hr]
/-- A live record at the head of the vault log of attach point 0, whose vault SSD is ON, under a ready slot 4,095. -/
def recV : VRec := ⟨5, [], 4096, [(0, 4096)], 0⟩
def devVlog : Dev :=
  let d : Dev := ((Dev.setFld {} (Reg.DRV_PORT_STS_VAULT 0) 1).setFld (Reg.DRV_ATT_STS_STATE 0) 2)
  { d with
    mem := { d.mem with live := [recV], next := 1 }
    key := { d.key with slots := [(4095, { state := .ready, durableValid := true })] } }
/-- Three witness drives, all ON. -/
def devWit : Dev :=
  ((((((Dev.setFld {} Reg.DRV_WIT_CFG_VALID 1).setFld (Reg.DRV_WIT_CFG_WIT 0) 4).setFld (Reg.DRV_WIT_CFG_WIT 1) 8).setFld (Reg.DRV_WIT_CFG_WIT 2) 12).setFld
    (Reg.DRV_ATT_STS_STATE 4) 2).setFld (Reg.DRV_ATT_STS_STATE 8) 2).setFld (Reg.DRV_ATT_STS_STATE 12) 2
theorem wit_PreemptsWitnessesRetirementScrubAndTheVaultLog :
    ((5 : DWord).toNat ≠ 0 ∧ devWit.sharedAtts.filter (fun a => devWit.isOn (.att a)) ≠ []) ∧
    ({} : Dev).flag Reg.DRV_STS_PREEMPT_BUSY = false ∧
    (let d : Dev := (Dev.setFld {} Reg.DRV_STS_PREEMPT_BUSY 1).setFld Reg.DRV_PREEMPT_TIMEOUT 0
     d.flag Reg.DRV_STS_PREEMPT_BUSY = true ∧ d.fld Reg.DRV_PREEMPT_TIMEOUT ≤ d.since d.drv.preBeat) ∧
    ({} : Dev).flag Reg.DRV_WIT_CFG_VALID = false ∧
    (devWit.flag Reg.DRV_WIT_CFG_VALID = true ∧ (∀ i, i < 3 → devWit.isOn (.att (devWit.fld (Reg.DRV_WIT_CFG_WIT i))) = true)) ∧
    (let d : Dev := (Dev.setFld {} Reg.DRV_REBUILD_DELAY_BEATS 0).arm (tmRetire 127)
     d.flag (Reg.DRV_ATT_STS_RETIRED 127) = false ∧ d.expired (tmRetire 127) (d.fld Reg.DRV_REBUILD_DELAY_BEATS) = true ∧ d.isOn (.att 127) = false) ∧
    ({} : Dev).expired (tmRetire 0) (({} : Dev).fld Reg.DRV_REBUILD_DELAY_BEATS) = false ∧
    (let d : Dev := Dev.setFld {} (Reg.DRV_ATT_STS_RETIRED 0) 1
     d.flag (Reg.DRV_ATT_STS_RETIRED 0) = true ∧ d.flag (Reg.DRV_ATT_STS_REBUILT 0) = false ∧
       (d.setFld (Reg.DRV_ATT_STS_REBUILT 0) 1).flag (Reg.DRV_ATT_STS_RETIRED 0) = true ∧ (d.setFld (Reg.DRV_ATT_STS_REBUILT 0) 1).flag (Reg.DRV_ATT_STS_REBUILT 0) = true) ∧
    (Dev.setFld {} Reg.GLB_LAY_SCRUB_EN 0).flag Reg.GLB_LAY_SCRUB_EN = false ∧
    (devScrub.flag Reg.GLB_LAY_SCRUB_EN = true ∧ devScrub.cal.pwrfail = false ∧ devScrub.lay.repair = [] ∧ devScrub.scrubList = [7] ∧
      devScrub.fld Reg.GLB_LAY_SCRUB_POS_SEGMENT ≤ 7 ∧ devScrub.isOn (.slice 7) = true ∧ (∃ x : SegDesc, devScrub.segDesc 7 = some x ∧ x.k + x.m ≤ 0 ∧ x.m < 1)) ∧
    ({} : Dev).rewriteDue = none ∧
    (devVlog.rewriteDue = some recV ∧ devVlog.vaultMay = true ∧ devVlog.vaultsOn ≠ []) :=
  ⟨by decide +kernel, by decide +kernel, by decide +kernel, by decide +kernel, by decide +kernel, by decide +kernel, by decide +kernel, by decide +kernel, by decide +kernel,
   ⟨by decide +kernel, by decide +kernel, by decide +kernel, devScrub_list, by decide +kernel, by decide +kernel, by
      obtain ⟨x, h, hk, hm⟩ := desc0_some
      refine ⟨x, h, ?_, ?_⟩ <;> simp [hk, hm]⟩,
   by decide +kernel, by decide +kernel⟩

/-- Counter 7 of block 8 counts. -/
def devPmc : Dev := ((Dev.setFld {} (Reg.PMC_CFG_EN 8 7) 1).setFld (Reg.PMC_CFG_EVENT 8 7) 1).setFld Reg.GLB_MODE_MODE 0
theorem wit_RegisterWritesMailboxBuffersAndCounters :
    (0x030 % 4 = 0 ∧ 0x030 < 0x400_0000 ∧ edgeReg 0x030 = true) ∧
    ((Dev.setFld {} (Reg.MBX_STS_STATE 7) 2).fld (Reg.MBX_STS_STATE 7) = 2 ∧ 0xFFF + [0#8].length ≤ 0x1000) ∧
    (({} : Dev).fld (Reg.MBX_STS_STATE 7) ≠ 1 ∧ ({} : Dev).fld (Reg.MBX_STS_STATE 7) ≠ 2) ∧
    ({} : Dev).pmcRuns 0 0 = false ∧
    (devPmc.pmcRuns 8 7 = true ∧ devPmc.pmcHigh 8 7 = false ∧ devPmc.pmcLow 8 7 = false ∧ devPmc.fld Reg.GLB_MODE_MODE = 0 ∧
      devPmc.fld (Reg.PMC_CFG_EVENT 8 7) ∈ pmcEvents 8 ∧ devPmc.pmcRuns 8 (if devPmc.pmcHigh 8 7 then 6 else 7) = true ∧ devPmc.fld (Reg.PMC_CNT_COUNT 8 7) < 2 ^ 32) ∧
    ((∀ x ∈ ({} : Dev).pmc.due, x.1 ≠ 0) ∧ ({} : Dev).flag (Reg.PMC_SMP_STS_SAMPLE_VALID 0) = false ∧
      (Dev.setFld {} (Reg.PMC_SMP_STS_SAMPLE_VALID 0) 1).flag (Reg.PMC_SMP_STS_SAMPLE_VALID 0) = true) ∧
    ({ ({} : Dev) with pmc := { ({} : Dev).pmc with due := [(0, 0, 5)] } } : Dev).pmc.due = [(0, 0, 5)] :=
  ⟨by decide +kernel, by decide +kernel, by decide +kernel, by decide +kernel, by decide +kernel, by decide +kernel, by decide +kernel⟩

/-- The steward runs, in the given phase of the pins. -/
def devRun (phase : Nat) : Dev := ((Dev.setFld {} Reg.MBX_GLB_STS_STEWARD 1).setFld Reg.FIS_STS_PHASE phase).setFld Reg.FIS_LED_CFG_LEN 8
def devPhase (probe : Bool) : Dev := { devRun 0 with edges := 40, fis := { (devRun 0).fis with switchAt := 2, toProbe := probe } }
def devStep (n : Nat) : Dev := { devRun 0 with fis := { (devRun 0).fis with step := n } }
theorem wit_PinsResetBootAndStartUp :
    ((devRun 0).fld Reg.FIS_STS_PHASE = 0 ∧ (devRun 0).flag Reg.FIS_STS_STRAP_BAD = false ∧ (devRun 0).fis.switchAt = 0 ∧
      (devRun 0).steward = stRunning) ∧ (devRun 1).fld Reg.FIS_STS_PHASE ≠ 0 ∧
    ((devPhase true).fis.switchAt ≠ 0 ∧ (devPhase true).fis.switchAt + 16 ≤ (devPhase true).edges + 1 ∧ (devPhase true).fis.toProbe = true) ∧
    ((devPhase false).fis.switchAt + 16 ≤ (devPhase false).edges + 1 ∧ (devPhase false).fis.toProbe = false ∧
      Nat.testBit (0x40 % 2 ^ 16) 6 = true) ∧
    ({} : Dev).fis.switchAt = 0 ∧ (devRun 0).fld Reg.FIS_STS_PHASE ≠ 1 ∧
    ((devRun 1).fld Reg.FIS_STS_PHASE = 1 ∧ (devRun 1).flag Reg.FIS_STS_SWITCHING = false ∧ 1 ≤ (devRun 1).fld Reg.FIS_LED_CFG_LEN ∧
      (devRun 1).fld Reg.FIS_LED_CFG_LEN ≤ 32 ∧ (devRun 1).flag Reg.FIS_STS_BUTTON = false ∧
      ((devRun 1).setFld Reg.FIS_STS_BUTTON 1).flag Reg.FIS_STS_BUTTON = true) ∧
    (({} : Dev).flag Reg.FUM_STS_SEQ_LOADED = false ∧ ({} : Dev).steward = stBoot) ∧ (devRun 0).steward ≠ stBoot ∧
    (let d : Dev := Dev.setFld {} Reg.FUM_STS_SEQ_LOADED 1
     d.steward = stBoot ∧ d.flag Reg.FUM_STS_SEQ_LOADED = true ∧ d.bootSrc ≠ 3) ∧
    ({} : Dev).fis.step = 0 ∧
    ((devStep 13).steward = stRunning ∧ (devStep 13).stepOver (devStep 13).fis.step = true ∧ (devStep 6).stepOver (devStep 6).fis.step = true ∧
      (devStep 1).stepOver (devStep 1).fis.step = true) ∧
    (let d : Dev := { devRun 0 with beat := 2 ^ 23 }
     max (d.fld Reg.MBX_WDOG_TIMEOUT) (2 ^ 20) ≤ d.since (d.fld Reg.MBX_KICK_BEAT) ∧ d.steward = stRunning) ∧
    ({} : Dev).since (({} : Dev).fld Reg.MBX_KICK_BEAT) < max (({} : Dev).fld Reg.MBX_WDOG_TIMEOUT) (2 ^ 20) :=
  ⟨by decide +kernel, by decide +kernel, by decide +kernel, by decide +kernel, by decide +kernel, by decide +kernel, by decide +kernel, by decide +kernel, by decide +kernel, by decide +kernel, by decide +kernel, by decide +kernel, by decide +kernel, by decide +kernel⟩

/-- A session 3 on context 100 in the given state. -/
def devSess (st : RepState) (tgt final : Bool) : Dev :=
  let d : Dev := (Dev.setFld {} Reg.MDE_REP_TIMEOUT_TIMEOUT 0).setFld Reg.MDE_REP_RETRY_RETRY 1
  { d with
    rep := { d.rep with sess := [(3, { state := st, target := tgt, qp := 100, session := 5, final := final, want := 1, dstVol := 2, exts := [(7, 0, 1)]
                                       ents := [⟨8, true, [], 0⟩] })] }
    marks := [(tmRep 3, 1)], edges := 9 }
/-- A message of session 5. -/
def msgR (typ seq : Nat) (body : List Byte) : List Byte := repMsg typ 5 seq 0 body
/-- The session's new snapshot, of generation 7, has one grain that its base, the empty tree, does not have. -/
def devDiff : Dev :=
  let d : Dev := ((devSess .streaming false false).updSess 3 (fun x => { x with exts := [], diff := some 0, srcVol := 4, newGen := 7 })).updTree 32768 (fun x =>
    { x with state := .ready, root := 9, source := 4 })
  let e : Dev := d.updPage 9 (fun p => { p with tree := 32768, ents := [⟨3, 3, 5⟩] })
  { e with rep := { e.rep with gens := [(32768, 7)] } }
def zerosN (n : Nat) : List Byte := List.replicate n 0
theorem wit_ReplicationSessionsFollowTheirMessages :
    ({} : Dev).sessOf 100 = none ∧
    ((devSess .suspended false false).sessOf 100 = some 3 ∧ ((devSess .suspended false false).sess 3).state = .suspended) ∧
    ((devSess .streaming true false).sessOf 100 = some 3 ∧ ((devSess .streaming true false).sess 3).state ≠ .suspended ∧
      (devSess .streaming true false).repInOrder 100 3 3 [] true = false) ∧
    (repWf 1 (msgR 1 0 (zerosN 40)) = true ∧ leField (msgR 1 0 (zerosN 40)) 16 8 = 0 ∧
      ({} : Dev).rep.sess.find? (fun e => e.2.target && decide (e.2.session = leField (msgR 1 0 (zerosN 40)) 8 8)) = none) ∧
    (let m := msgR 1 0 (zerosN 6 ++ [2, 0] ++ zerosN 32)
     let d : Dev := ((devSess .opening true false).updVol 2 (fun v => { v with valid := true, roVol := true, anaGrp := 0 })).setFld (Reg.NVT_ANA_OWN 0) 1
     repWf 1 m = true ∧ leField m 16 8 = 0 ∧ leField m 2 1 = 1 ∧
      (d.rep.sess.find? (fun e => e.2.target && decide (e.2.session = leField m 8 8))).map (·.1) = some 3 ∧ (d.sess 3).mr = none ∧
      d.openResult 3 m = rcOk ∧ (d.repWindowBase (d.sess 3).want).isSome = true ∧
      (List.range 1024).find? (fun k => decide ((d.region k).state = .free)) = some 0) ∧
    ((devSess .streaming false false).repInOrder 100 6 3 (msgR 6 1 ([1, 0] ++ zerosN 10)) false = true ∧ ((devSess .streaming false false).sess 3).sendQ = []) ∧
    ((devSess .committing false true).repInOrder 100 8 3 (msgR 8 1 (zerosN 16)) false = true ∧ ((devSess .committing false true).sess 3).state = .committing ∧
      leField (msgR 8 1 (zerosN 16)) 32 2 = rcOk ∧ ((devSess .committing false true).sess 3).final = true ∧
      (devSess .committing false false).repInOrder 100 8 3 (msgR 8 1 (zerosN 16)) false = true ∧ ((devSess .committing false false).sess 3).final = false) ∧
    ((devSess .streaming true false).repInOrder 100 7 3 (msgR 7 1 (zerosN 16)) true = true ∧ (devSess .streaming true false).repDurable 3 = true ∧
      leField (msgR 7 1 (zerosN 16)) 36 4 % 2 = 0) ∧
    (let d : Dev := devSess .streaming true false
     ({ d with cal := { d.cal with groups := [(0, { tag := 0, slice := 0, vol := 2, grains := [], pages := [], gaps := [], rmw := false, admitBeat := 0
                                                    order := 0, m := 0 })] } } : Dev).repDurable 3 = false) ∧
    ((devSess .streaming true false).repInOrder 100 3 3 (msgR 3 1 (zerosN 4 ++ [1, 0] ++ zerosN 7 ++ [1] ++ zerosN 18)) true = true ∧
      leField (msgR 3 1 (zerosN 4 ++ [1, 0] ++ zerosN 7 ++ [1] ++ zerosN 18)) 36 2 = 1 ∧
      (repEntOf (msgR 3 1 (zerosN 4 ++ [1, 0] ++ zerosN 7 ++ [1] ++ zerosN 18)) 0).zero = true) ∧
    (let m := msgR 4 1 ([7] ++ zerosN 7 ++ [1, 0] ++ zerosN 6 ++ [1, 0, 0, 0])
     (devSess .streaming false false).repInOrder 100 4 3 m false = true ∧ ((devSess .streaming false false).sess 3).slots = [] ∧
      ((devSess .streaming false false).sess 3).exts.find? (fun e => decide (e.1 = leField m 32 8)) = some (7, 0, 1) ∧ leField m 32 8 ≠ 0) ∧
    (let m := msgR 5 1 ([1, 0] ++ zerosN 22)
     (devSess .streaming true false).repInOrder 100 5 3 m true = true ∧ leField m 32 2 = 1 ∧
      ((devSess .streaming true false).sess 3).ents[leField m 40 4]? = some ⟨8, true, [], 0⟩) ∧
    (let m := msgR 2 0 (zerosN 48)
     ((devSess .opening false false).sess 3).state = .opening ∧ repWf 2 m = true ∧ leField m 2 1 = 1 ∧
      leField m 8 8 = ((devSess .opening false false).sess 3).session ∧ leField m 16 8 = 0 ∧ leField m 36 2 = rcOk) ∧
    (let m := msgR 2 0 (zerosN 4 ++ [3, 0] ++ zerosN 42)
     repWf 2 m = true ∧ leField m 36 2 = rcNotOwner ∧ ((devSess .opening false false).sess 3).other = false) ∧
    (let m := msgR 2 0 (zerosN 4 ++ [4, 0] ++ zerosN 42)
     repWf 2 m = true ∧ leField m 36 2 ≠ rcOk ∧ leField m 36 2 ≠ rcNotOwner) ∧
    (repWf 9 (msgR 9 1 (zerosN 8)) = true ∧ leField (msgR 9 1 (zerosN 8)) 8 8 = ((devSess .streaming false false).sess 3).session ∧
      leField (msgR 9 1 (zerosN 8)) 16 8 = ((devSess .streaming false false).sess 3).rxSeq + 1) ∧
    (let d : Dev := (devSess .streaming false false).updSess 3 (fun x => { x with exts := [], diff := some 0 })
     (d.sess 3).state = .streaming ∧ (d.sess 3).target = false ∧ (d.sess 3).batched = false ∧ (d.sess 3).exts = [] ∧ (d.sess 3).sendQ = [] ∧
       (d.sess 3).diff = some 0 ∧ (d.diffPlan (d.sess 3)).ready = true ∧ (d.diffPlan (d.sess 3)).ents = []) ∧
    ((devSess .streaming false false).sess 3).diff = none ∧
    (let d : Dev := devDiff
     (d.sess 3).diff = some 0 ∧ (d.diffPlan (d.sess 3)).ready = true ∧ (d.diffPlan (d.sess 3)).ents.length = 2) ∧
    ((({} : Dev).sess 3).state ∉ [RepState.opening, .streaming, .committing] ∧ (({} : Dev).sess 3).state ≠ .suspended) ∧
    (((devSess .opening false false).sess 3).state ∈ [RepState.opening, .streaming, .committing] ∧
      (devSess .opening false false).expired (tmRep 3) ((devSess .opening false false).fld Reg.MDE_REP_TIMEOUT_TIMEOUT) = true) ∧
    ((devSess .suspended false false).fld Reg.MDE_REP_RETRY_RETRY ≠ 0 ∧
      (devSess .suspended false false).expired (tmRep 3) ((devSess .suspended false false).fld Reg.MDE_REP_RETRY_RETRY) = true) :=
  ⟨by decide +kernel, by decide +kernel, by decide +kernel, by decide +kernel, by decide +kernel, by decide +kernel, by decide +kernel, by decide +kernel, by decide +kernel, by decide +kernel, by decide +kernel, by decide +kernel, by decide +kernel, by decide +kernel, by decide +kernel, by decide +kernel, by decide +kernel, by decide +kernel, by decide +kernel, by decide +kernel, by decide +kernel, by decide +kernel⟩

/-- The link in the given state, with lanes 0 to 3 ON and timers long run out. -/
def devLink (st : Nat) : Dev :=
  let d : Dev := ((((((Dev.setFld {} Reg.CDX_STS_LINK st).setFld (Reg.CDX_LANE_STS_STATE 0) 2).setFld (Reg.CDX_LANE_STS_STATE 1) 2).setFld
    (Reg.CDX_LANE_STS_STATE 2) 2).setFld (Reg.CDX_LANE_STS_STATE 3) 2).setFld Reg.CDX_PEER_LANES_OK 15).setFld Reg.CDX_STS_WIDTH 2
  { d with
    marks := [(tmNegotiate, 1), (tmResize, 1), (tmFlitLoss, 1)], edges := 2 ^ 15, newEpoch := true
    sync := { d.sync with measured := true }, mde := { d.mde with remote := [⟨1, 7, 1, false⟩] } }
def recL : CtrlRec := ⟨1, 15, 4, 0, 0, 0⟩
theorem wit_TheLinkFollowsItsRecordsAndTimers :
    ({} : Dev).ustate (.lane 15) ≠ .starting ∧
    (let d : Dev := (Dev.setFld {} (Reg.CDX_LANE_STS_STATE 15) 1).setFld (Reg.CDX_LANE_CTL_EN 15) 1
     d.ustate (.lane 15) = .starting ∧ d.canFail (.lane 15) 1 = true ∧ d.canFail (.lane 15) 2 = false ∧ d.canFail (.lane 15) 3 = false) ∧
    (0 < (devLink 1).epoch % 2 ^ 32 + 1 ∧ (devLink 1).epoch % 2 ^ 32 < 7 ∧ 0 < ({ devLink 1 with beat := 2 ^ 40 } : Dev).epoch % 2 ^ 32) ∧
    ((devLink 1).fld Reg.CDX_STS_LINK = 1 ∧ (devLink 1).flag Reg.FIS_STS_SLOT_CONFLICT = false ∧ recL.slot ≠ (devLink 1).slotId ∧
      ({ recL with slot := 0 } : CtrlRec).slot = (devLink 1).slotId ∧
      lanesChoice (Nat.land (devLink 1).lanesOk (recL.lanesOk % 2 ^ 16)) = some (recL.width, recL.first) ∧ (devLink 1).cdx.inits + 1 < 8 ∧
      8 ≤ ({ ({} : Dev).cdx with inits := 7 } : CdxSt).inits + 1) ∧
    (({} : Dev).fld Reg.CDX_STS_LINK ≠ 1 ∧ ({} : Dev).linkSends = false ∧ ({} : Dev).fld Reg.CDX_STS_LINK ≠ 4) ∧
    ((devLink 3).linkUp = true ∧ lanesChoice (Nat.land (devLink 3).lanesOk (recL.lanesOk % 2 ^ 16)) = some (4, 0) ∧
      lanesChoice (Nat.land (devLink 3).lanesOk (({ recL with lanesOk := 0 } : CtrlRec).lanesOk % 2 ^ 16)) = none) ∧
    ((devLink 4).fld Reg.CDX_STS_LINK = 4 ∧ (devLink 4).cdx.unacked = [] ∧
      lanesChoice (Nat.land (devLink 4).lanesOk (({ recL with lanesOk := 0 } : CtrlRec).lanesOk % 2 ^ 16)) ≠ some (recL.width, recL.first)) ∧
    ((devLink 1).expired tmNegotiate (2 ^ 14) = true ∧ (devLink 4).expired tmResize 512 = true ∧
      (devLink 3).fld Reg.CDX_STS_LINK = 3 ∧ (devLink 3).expired tmFlitLoss ((devLink 3).fld Reg.CDX_TIMERS_LOSS_TIMEOUT) = true) ∧
    ({} : Dev).expired tmNegotiate (2 ^ 14) = false ∧ ({} : Dev).linkChoice = none ∧
    ((devLink 3).linkChoice = some (4, 0) ∧ (devLink 3).flag Reg.CDX_CTL_WIDEN_EN = true ∧ (devLink 3).newEpoch = true ∧
      (devLink 3).fld Reg.CDX_STS_WIDTH < 4 ∧ 4 ≤ ((devLink 3).setFld Reg.CDX_STS_WIDTH 4).fld Reg.CDX_STS_WIDTH) ∧
    ((devLink 2).fld Reg.CDX_STS_LINK = 2 ∧ (devLink 2).sync.measured = true ∧ (devLink 2).stepPend = 0) :=
  ⟨by decide +kernel, by decide +kernel, by decide +kernel, by decide +kernel, by decide +kernel, by decide +kernel, by decide +kernel, by decide +kernel, by decide +kernel, by decide +kernel, by decide +kernel, by decide +kernel⟩

/-- The link is UP; one flit is unacknowledged, a NAK waits or not, and slots have come in. -/
def devFlit (nak : Bool) (sent : Nat) (slots : List (List Byte)) : Dev :=
  let d : Dev := (Dev.setFld {} Reg.CDX_STS_LINK 3).setFld Reg.FOV_STS_STATE 1
  { d with
    marks := [(tmFlitAck, 1), (tmFlitNak, 1)], edges := 1000
    cdx := { d.cdx with nakWait := nak, unacked := [⟨5, [], sent⟩], rxNext := 3, rxSlots := slots } }
def pktAck : List Byte := cdxPacket 2 0x12 0 (leBytes 8 9)
theorem wit_FlitsPacketsPairsAndHeartbeats :
    ({} : Dev).fld Reg.CDX_STS_LINK = 0 ∧
    (2 ≤ (devFlit false 1 []).fld Reg.CDX_STS_LINK ∧ (devFlit false 1 []).cdx.nakWait = false ∧ 514 % 512 ≠ (devFlit false 1 []).cdx.rxNext ∧
      515 % 512 = (devFlit false 1 []).cdx.rxNext) ∧
    (({} : Dev).fld Reg.CDX_STS_LINK < 2 ∧ ({} : Dev).cdx.unacked = [] ∧ ({} : Dev).cdx.nakWait = false) ∧
    ((devFlit true 1 []).cdx.unacked = [⟨5, [], 1⟩] ∧ 517 % 512 = (⟨5, [], 1⟩ : TxFlit).fseq ∧
      (devFlit true 1 []).expired tmFlitAck ((devFlit true 1 []).fld Reg.CDX_TIMERS_ACK_TIMEOUT) = true ∧
      (⟨5, [], 1⟩ : TxFlit).sent < (devFlit true 1 []).fld Reg.CDX_TIMERS_REPLAY_MAX ∧ (devFlit true 8 []).cdx.unacked = [⟨5, [], 8⟩] ∧
      (devFlit true 8 []).fld Reg.CDX_TIMERS_REPLAY_MAX ≤ (⟨5, [], 8⟩ : TxFlit).sent) ∧
    ((devFlit true 1 []).cdx.nakWait = true ∧ (devFlit true 1 []).expired tmFlitNak ((devFlit true 1 []).fld Reg.CDX_TIMERS_NAK_RESEND) = true) ∧
    skipIdle (devFlit true 1 []).cdx.rxSlots = [] ∧
    (skipIdle (devFlit true 1 [[64, 0]]).cdx.rxSlots = [[64, 0]] ∧ ([[64, 0]] : List (List Byte)).length < (leField (([[64, 0]] : List (List Byte)).headD []) 0 2 + 31) / 32) ∧
    (crcGood (([[16, 0] ++ List.replicate 30 0] : List (List Byte)).flatten.take 16) = false ∧
      skipIdle (devFlit true 1 [[16, 0] ++ List.replicate 30 0]).cdx.rxSlots = [[16, 0] ++ List.replicate 30 0]) ∧
    (skipIdle (devFlit true 1 (toSlots 130 pktAck)).cdx.rxSlots = [padTo 32 pktAck] ∧ leField (padTo 32 pktAck) 0 2 = 20 ∧
      crcGood (([padTo 32 pktAck] : List (List Byte)).flatten.take 20) = true ∧ leField pktAck 2 1 = 2 ∧
      msgOf (leField pktAck 3 1) ((pktAck.drop 8).take 8) = some (.refcountAck 9)) ∧
    (({} : Dev).ustate (.qp 63) = .off ∧ (Dev.updCtx {} 63 (fun c => { c with unit := { c.unit with state := .on } })).ustate (.qp 63) = .on ∧
      tget 0 ({} : Dev).hwPend (1024 + 63) = 0) ∧
    (let d : Dev := Dev.updCtx {} 63 (fun c => { c with unit := { c.unit with state := .starting } })
     let e : Dev := { d with marks := [(tmStart (.qp 63), 1)], edges := 2 ^ 15 }
     e.ustate (.qp 63) = .starting ∧ (e.work 63).peerReady = false ∧ e.expired (tmStart (.qp 63)) (2 ^ 14) = true) ∧
    ({} : Dev).linkUp = false ∧
    ((devFlit true 1 []).linkUp = true ∧ (devFlit true 1 []).beat % 64 = 0 ∧ (devFlit true 1 []).cdx.hbSent ≠ (devFlit true 1 []).beat + 1 ∧
      (devFlit true 1 []).fld Reg.FOV_STS_STATE ≠ 0 ∧ (devFlit true 1 []).fld Reg.FOV_STS_STATE ≠ 7 ∧ (devFlit true 1 []).geyOver = false) :=
  ⟨by decide +kernel, by decide +kernel, by decide +kernel, by decide +kernel, by decide +kernel, by decide +kernel, by decide +kernel, by decide +kernel, by decide +kernel, by decide +kernel, by decide +kernel, by decide +kernel, by decide +kernel⟩

def recW (mode gen : Nat) : WitRec := { mode := mode, gen := gen, owner := 2 ^ 64 - 1 }
/-- One head in a state of R486; slot 0 unless `sl`. -/
def devFov (st sl : Nat) : Dev :=
  let d : Dev := ((((Dev.setFld {} Reg.FOV_STS_STATE st).setFld Reg.KEY_STS_HEAD sl).setFld Reg.FIS_STS_PHASE 5).setFld Reg.FIS_STRAP_VALUE 32)
  { d with beat := 2 ^ 23 - 2 ^ 12, edges := 2 ^ 23, marks := [(tmHandover, 1), (tmClaim, 1), (tmRepeat, 1)], fov := { d.fov with witness := some (recW 1 4), unchanged := 4, alive := true, replayDone := true, before := 2 } }
/-- Answers of the three drives to a change of the record. -/
def devCas (w : WitWhy) (a b : Nat) : Dev :=
  let d := devFov 3 0
  { d with fov := { d.fov with why := some w, newRec := recW 2 5 }, drv := { d.drv with wit := [(0, a), (1, a), (2, b)] } }
theorem recW_read (m g : Nat) (h : leField (Laws.witHead (recW m g)) 0 4 = 0x5E7A_11D0 ∧ leField (Laws.witHead (recW m g)) 4 1 = 1)
    (hv : (⟨leField (Laws.witHead (recW m g)) 5 1, leField (Laws.witHead (recW m g)) 6 1, leField (Laws.witHead (recW m g)) 7 1,
      leField (Laws.witHead (recW m g)) 8 4, leField (Laws.witHead (recW m g)) 16 8, leField (Laws.witHead (recW m g)) 24 8,
      leField (Laws.witHead (recW m g)) 32 8, leField (Laws.witHead (recW m g)) 40 8, leField (Laws.witHead (recW m g)) 48 8,
      leField (Laws.witHead (recW m g)) 56 8, leField (Laws.witHead (recW m g)) 64 8, leField (Laws.witHead (recW m g)) 72 4 % 2 ^ 24,
      leField (Laws.witHead (recW m g)) 76 4 % 2 ^ 24⟩ : WitRec) = recW m g) :
    majority (recW m g).tag [some (recW m g).bytes, some (recW m g).bytes, none] = some ((recW m g).bytes, recW m g) :=
  Laws.majority_two (Laws.witOf_bytes (w := recW m g) (v := recW m g) h hv)
/-- Three copies whose majority is a SHARED record, and a SOLE one; and copies without majority. -/
theorem wit_majority : (devFov 3 1).fld Reg.DRV_ARRAY_TAG_TAG = 0 ∧
    majority (recW 1 4).tag [some (recW 1 4).bytes, some (recW 1 4).bytes, none] = some ((recW 1 4).bytes, recW 1 4) ∧
    majority (recW 2 5).tag [some (recW 2 5).bytes, some (recW 2 5).bytes, none] = some ((recW 2 5).bytes, recW 2 5) ∧
    (recW 1 4).tag = 0 ∧ (recW 2 5).tag = 0 ∧ majority 0 [some (recW 1 4).bytes, none, none] = none :=
  ⟨by decide +kernel, recW_read 1 4 (by decide +kernel) (by decide +kernel), recW_read 2 5 (by decide +kernel) (by decide +kernel), rfl, rfl, Laws.majority_one⟩
theorem wit_LivenessSuspicionAndArbitration :
    ((devFov 3 0).fovState = 3 ∧ (devFov 3 0).fov.before % 8 ≠ 3 ∧ (devFov 3 0).fov.why ≠ some .claim ∧
      ((devFov 3 0).fov.witness.map (·.gen)).getD 0 = (devFov 3 0).fov.unchanged ∧ (devFov 3 0).fov.holdBeat ≤ (devFov 3 0).beat % 2 ^ 64 ∧
      ((devFov 3 0).setFld Reg.CDX_STS_LINK 3).linkUp = true ∧ (devFov 2 0).fovState = 2) ∧
    ({} : Dev).pinsOn = false ∧
    ((devFov 2 0).pinsOn = true ∧ (devFov 2 0).beat % 2 ^ 12 = 0 ∧ (devFov 2 0).fov.pulseSent ≠ (devFov 2 0).beat + 1 ∧ (devFov 2 0).fovState ≠ 0 ∧
      (devFov 2 0).fovState ≠ 7 ∧ (devFov 2 0).geyOver = false ∧ (devFov 2 0).fencing = false ∧ (devFov 3 0).fencing = false ∧ (devFov 3 1).fencing = false ∧
      (devFov 0 0).upd.hand = 0 ∧ (devCas .claim 1 2).fencing = false) ∧
    ((devFov 2 0).fov.alive = true ∧ 2 ^ 13 < (devFov 2 0).since ((devFov 2 0).fld Reg.FOV_LAST_HB_BEAT) ∧
      2 ^ 13 < (devFov 2 0).since ((devFov 2 0).fld Reg.FOV_LAST_PULSE_BEAT) ∧ (devFov 2 0).fovState ∈ [1, 2, 5, 6] ∧ bitOf (devFov 2 0).fov.single 0 = false ∧
      ((devFov 2 0).setFld Reg.FOV_LAST_PULSE_BEAT (2 ^ 23 - 2 ^ 12)).fld Reg.FOV_LAST_PULSE_BEAT = (devFov 2 0).beat) ∧
    (({} : Dev).fov.alive = false ∧ (devFov 0 0).fovState = 0 ∧ (devFov 0 0).dbgActive = false ∧ (devFov 0 0).fov.replayDone = true ∧ (devFov 0 0).linkUp = false ∧
      ({ devFov 0 0 with beat := 2 ^ 25 }).fov.replayEpoch + ({ devFov 0 0 with beat := 2 ^ 25 }).fld Reg.FOV_CFG_PEER_WAIT ≤ ({ devFov 0 0 with beat := 2 ^ 25 }).epoch) ∧
    ((devFov 3 1).expired tmClaim (2 ^ 14) = true ∧ (devFov 3 1).expired tmRepeat (2 ^ 14) = true ∧ (devFov 3 1).fov.why = none ∧ (devFov 3 1).slotId = 1 ∧
      (devFov 3 1).fov.claimIn = false ∧ ({} : Dev).expired tmClaim (2 ^ 14) = false ∧ ({} : Dev).expired tmRepeat (2 ^ 14) = false) ∧
    ((recW 1 4).gen ≤ (devFov 3 1).fov.unchanged ∧ (recW 2 5).owner = allGroups (devFov 3 0).peerSlot ∧ (devFov 3 0).fov.unchanged < (recW 2 5).gen ∧
      (devFov 3 0).slotId = 0 ∧ (devFov 3 0).fld Reg.FOV_WIT_STS_ATTEMPTS = 0) ∧
    ((devFov 3 1).taken = false ∧ (devFov 3 1).dbgActive = false ∧
      ((devFov 3 1).fld Reg.FOV_WIT_STS_ATTEMPTS + 1) % 2 ^ 8 < (devFov 3 1).fld Reg.FOV_CFG_WIT_TRIES) ∧
    ((devFov 2 0).beat % Config.epochBeats ≥ 3 * 2 ^ 21 + (devFov 2 0).slotId * 2 ^ 20 ∧ tget 0 (devFov 2 0).seen 0x40002 ≠ (devFov 2 0).epoch + 1 ∧
      (devFov 2 0).fov.todo = [] ∧ (recW 1 4).gen ≤ ((devFov 2 0).fov.witness.map (·.gen)).getD 0 ∧ ({} : Dev).beat % Config.epochBeats < 3 * 2 ^ 21) ∧
    (((devFov 2 0).fov.witness.map (·.gen)).getD 0 < (recW 2 5).gen ∧ (devFov 2 0).givesAway (recW 2 5) = false ∧
      (devFov 2 1).givesAway { recW 2 5 with owner := 0 } = true ∧ (devFov 2 0).fovState ∉ [0, 3, 7]) ∧
    ((devFov 0 0).strap 5 = true ∧ ((devFov 0 0).setFld Reg.CDX_STS_LINK 3).linkUp = true ∧ (recW 1 4).mode = 1) ∧
    ((devCas .claim 1 2).fov.why = some .claim ∧ (devCas .claim 1 2).fov.witness = some (recW 1 4) ∧
      0 ∉ (List.range 3).map (fun i => tget 0 (devCas .claim 1 2).drv.wit i) ∧ 2 ≤ ((List.range 3).map (fun i => tget 0 (devCas .claim 1 2).drv.wit i)).count 1 ∧
      2 ≤ ((List.range 3).map (fun i => tget 0 (devCas .claim 2 1).drv.wit i)).count 2 ∧ 0 ∈ (List.range 3).map (fun i => tget 0 (devCas .claim 1 0).drv.wit i) ∧
      ((List.range 3).map (fun i => tget 0 (devCas .refresh 3 1).drv.wit i)).count 2 < 2 ∧ ((List.range 3).map (fun i => tget 0 (devCas .refresh 3 1).drv.wit i)).count 1 < 2 ∧
      (devCas .claim 3 1).fld Reg.FOV_WIT_STS_ATTEMPTS < (devCas .claim 3 1).fld Reg.FOV_CFG_WIT_TRIES) :=
  ⟨by decide +kernel, by decide +kernel, by decide +kernel, by decide +kernel, by decide +kernel, by decide +kernel, by decide +kernel, by decide +kernel, by decide +kernel, by decide +kernel, by decide +kernel, by decide +kernel, by decide +kernel, by decide +kernel, by decide +kernel, by decide +kernel, by decide +kernel⟩

/-- A takeover at a step, VAULT_NEEDED or VAULT_HOLD set or not. -/
def devTake (step need hold : Nat) : Dev :=
  let d := ((devFov 4 0).setFld Reg.FOV_STS_VAULT_NEEDED need).setFld Reg.FOV_STS_VAULT_HOLD hold
  { d with fov := { d.fov with step := step, moved := 2 ^ 63 } }
/-- A head in a state with the link UP and a resync running out of it or into it. -/
def devSync (st : Nat) (src tgt closing sent : Bool) : Dev :=
  let d := (((devFov st 0).setFlag Reg.FOV_STS_RESYNC_SRC src).setFlag Reg.FOV_STS_RESYNC_TGT tgt).setFld Reg.CDX_STS_LINK 3
  { d with fov := { d.fov with closing := closing, sent := sent, batch := 7 } }
theorem wit_TakeoverRejoinAndResync :
    ((devTake 1 1 0).fovState = 4 ∧ (devTake 1 1 0).fov.step = 1 ∧ (devTake 1 1 0).flag Reg.DRV_STS_PREEMPT_BUSY = false ∧
      ((devTake 1 1 0).setFld Reg.DRV_STS_PREEMPT_BUSY 1).flag Reg.DRV_STS_PREEMPT_BUSY = true ∧ bitOf (devTake 1 1 0).fov.moved 63 = true) ∧
    ((devTake 3 1 0).fov.step = 3 ∧ (devTake 3 1 0).flag Reg.FOV_STS_VAULT_HOLD = false ∧ (devTake 3 1 1).flag Reg.FOV_STS_VAULT_HOLD = true) ∧
    ((devTake 4 0 0).fov.step = 4 ∧ ({} : Dev).fovState ≠ 4 ∧ ({} : Dev).fov.step ≠ 3) ∧
    (let d := ({ devFov 5 0 with beat := 2 ^ 30 } : Dev).setFld Reg.FOV_STS_FENCE_OUT 1
     d.flag Reg.FOV_STS_FENCE_OUT = true ∧ d.fld Reg.FOV_CFG_FENCE_RELEASE ≠ 0 ∧ d.fov.step = 0 ∧ d.fov.doneEpoch + d.fld Reg.FOV_CFG_FENCE_RELEASE ≤ d.epoch ∧
      (d.fov.takeovers.filter (fun e => decide (d.epoch < e + 256))).length < 3) ∧
    ({} : Dev).flag Reg.FOV_STS_FENCE_OUT = false ∧
    (({} : Dev).fov.witness = none ∧ (devSync 5 false false false false).fov.witness = some (recW 1 4) ∧ (devSync 5 false false false false).mirPagesUsed = 0 ∧
      (devSync 5 false false false false).fovState = 5 ∧ (devSync 5 false false false false).fov.joining = false ∧ (recW 1 4).gen ≤ 4 ∧ 3 < (recW 1 4).gen ∧
      2 ≤ (devSync 2 false false false false).fld Reg.CDX_STS_LINK ∧ (devSync 2 false false false false).fovState ≠ 5 ∧ ¬2 ≤ ({} : Dev).fld Reg.CDX_STS_LINK) ∧
    ((devSync 1 false false false false).fovState = 1 ∧ (devSync 1 false false false false).flag Reg.FOV_STS_RESYNC_TGT = false) ∧
    ((devSync 1 false true false false).flag Reg.FOV_STS_RESYNC_TGT = true ∧ ((devSync 1 false true false false).fov.witness.map (·.gen)).getD 0 ≤ 4) ∧
    ((devSync 5 true false true false).flag Reg.FOV_STS_RESYNC_SRC = true ∧ (devSync 5 true false true false).fov.closing = true ∧
      6 = (devSync 5 true false true false).fov.batch - 1 ∧ (devSync 5 true false false true).fov.sent = true ∧ 7 = (devSync 5 true false false true).fov.batch) ∧
    ((devSync 2 false false false false).fovState = 2 ∧ (devSync 2 false false false false).ownMask = 0 ∧
      ((devSync 2 false false false false).setFld (Reg.NVT_ANA_OWN 63) 1).ownMask ≠ 0) :=
  ⟨by decide +kernel, by decide +kernel, by decide +kernel, by decide +kernel, by decide +kernel, by decide +kernel, by decide +kernel, by decide +kernel, by decide +kernel, by decide +kernel⟩

/-- A releasing head at a step of R492, with group 64 moving, or an arriving one. -/
def devHand (step role : Nat) (dom : Bool) : Dev :=
  let d := (devFov 6 0).setFld Reg.CDX_STS_LINK 3
  { d with edges := 2 ^ 24, fov := { d.fov with handStep := step, handRole := role, handMask := 2 ^ 63, handDomain := dom } }
/-- A returner in PAIRED with a home group away. -/
def devBack (n left : Nat) : Dev :=
  ((((devFov 2 0).setFld Reg.CDX_STS_LINK 3).setFld Reg.FOV_STS_HEALTHY n).setFld Reg.FOV_HOLDOFF_LEFT_EPOCHS left).setFld Reg.GLB_CAL_STS_MODE 0
theorem wit_HandOverAndFailback :
    ((devFov 2 0).fovState = 2 ∧ (devFov 2 0).ownMask = 0 ∧ ((devFov 2 0).setFld (Reg.NVT_ANA_OWN 63) 1).ownMask ≠ 0 ∧
      Nat.land (2 ^ 63) ((devFov 2 0).setFld (Reg.NVT_ANA_OWN 63) 1).ownMask ≠ 0) ∧
    (((devFov 2 0).fov.witness.map (·.gen)).getD 0 ≤ 4 ∧ 3 < ((devFov 2 0).fov.witness.map (·.gen)).getD 0 ∧ (devHand 1 1 false).fovState ≠ 2 ∧
      2 ≤ (devHand 1 1 false).fld Reg.CDX_STS_LINK) ∧
    ((devHand 1 1 false).fovState = 6 ∧ (devHand 1 1 false).fov.handRole = 1 ∧ bitOf (devHand 1 1 false).fov.handMask 63 = true ∧
      (devHand 1 1 false).ownDirty ≤ 256 * (devHand 1 1 false).fld Reg.FOV_CFG2_HANDOVER_MARK ∧
      256 * ((devHand 1 1 false).setFld Reg.FOV_CFG2_HANDOVER_MARK 0).fld Reg.FOV_CFG2_HANDOVER_MARK <
        ({ (devHand 1 1 false).setFld Reg.FOV_CFG2_HANDOVER_MARK 0 with cal := { (devHand 1 1 false).cal with runs := [⟨0, 1, .grain 0 0⟩] } } : Dev).ownDirty + 1) ∧
    ((devHand 2 1 false).fov.handStep = 2 ∧ (devHand 2 1 false).grpRunning 64 = false) ∧
    ((devHand 3 1 true).fov.handStep = 3 ∧ (devHand 3 1 true).handDrained = true ∧ (devHand 3 1 false).handDrained = true) ∧
    ((devHand 5 1 false).fov.handStep = 5 ∧ (devHand 5 1 false).fov.why = none ∧ (devHand 5 1 false).fov.todo = [] ∧ (devHand 5 1 false).fencing = false ∧ (devHand 4 1 true).fencing = false ∧
      (recW 1 4).gen ≤ ((devHand 5 1 false).fov.witness.map (·.gen)).getD 0 ∧ (devHand 5 1 false).fld Reg.DRV_ARRAY_TAG_TAG = 0 ∧
      (devHand 4 1 true).fov.cpTarget ≤ (devHand 4 1 true).handCp) ∧
    ((devHand 1 1 false).expired tmHandover ((devHand 1 1 false).fld Reg.FOV_HANDOVER_LIMIT_BEATS) = true ∧
      ({} : Dev).expired tmHandover (({} : Dev).fld Reg.FOV_HANDOVER_LIMIT_BEATS) = false) ∧
    ((devHand 0 2 false).fov.witness = some (recW 1 4) ∧ (devHand 0 2 false).fov.handRole = 2 ∧ ({} : Dev).fov.witness = none) ∧
    ((devHand 6 1 false).fov.handStep = 6 ∧ (devHand 6 1 false).fovState = 6) ∧
    (tget 0 (devBack 3 1).seen 0x40001 ≠ (devBack 3 1).epoch + 1 ∧ (devBack 3 1).fovState = 2 ∧ (devBack 3 1).homeAway ≠ 0 ∧ (devBack 3 1).healthy = true ∧
      (devBack 3 1).fov.epochOk = true ∧ 3 ≤ (devBack 3 1).fld Reg.FOV_STS_HEALTHY ∧ (devBack 2 1).fld Reg.FOV_STS_HEALTHY < 3 ∧
      3 < (devBack 4 1).fld Reg.FOV_STS_HEALTHY ∧ (devBack 4 1).fld Reg.FOV_HOLDOFF_LEFT_EPOCHS ≤ 1 ∧ 1 < (devBack 4 60).fld Reg.FOV_HOLDOFF_LEFT_EPOCHS ∧
      (devBack 4 1).fov.skipHoldoff = false ∧ (devBack 4 1).dbgActive = false ∧ (devFov 2 0).healthy = false) :=
  ⟨by decide +kernel, by decide +kernel, by decide +kernel, by decide +kernel, by decide +kernel, by decide +kernel, by decide +kernel, by decide +kernel, by decide +kernel, by decide +kernel⟩

/-- Memory is up; one channel of each memory retrains with beats to take, or none. -/
def devMem (left : Nat) : Dev :=
  let d : Dev := ((Dev.setFld {} Reg.MEM_STS_START 2).setFld Reg.FIS_STS_PHASE 5).setFld Reg.MEM_STS_DDR_GIB 128
  { d with mem := { d.mem with chans := [(0, { state := 2, left := left, fails := 2 }), (63, { state := 1, temp := 40 })] } }
/-- A grain in own page 3, in a state, vaulted or not. -/
def devPageErr (st : GState) (v : Bool) (absent : Nat) : Dev :=
  let d := (devMem 0).setFld Reg.GLB_CAL_STS_PEER_ABSENT absent
  { d with cal := { d.cal with dirs := [(5, { state := st, vaulted := v, page := 3, size := 0 })], runs := [⟨3, 1, .grain 0 5⟩], mirDirs := [(9, { state := .mirrored, page := 7, mirrorQp := 63 })] } }
theorem wit_MemoriesTrainFailAndFlush :
    (({} : Dev).fld Reg.MEM_STS_START ≠ 2 ∧ ({} : Dev).fld Reg.MEM_STS_START ≠ 3 ∧ (devMem 0).fld Reg.MEM_STS_START = 2 ∧ 63 ∈ (devMem 0).memChans ∧
      74 ∈ (devMem 0).memChans ∧ (devMem 0).ddrPopulated 3072 = true ∧ (devMem 0).ddrPopulated 1 = false ∧ 2 ≤ ((devMem 0).setFld Reg.MEM_PATROL_RATE 2).fld Reg.MEM_PATROL_RATE) ∧
    (((devMem 0).memCh 63).state = 1 ∧ (devMem 0).fld Reg.MEM_RETRAIN_TEMP_DELTA < (tempOf 0 - tempOf ((devMem 0).memCh 63).temp).natAbs ∧
      (devMem 0).fld Reg.MEM_STS_HBM_CLASS ≠ (devMem 0).loadClass 99) ∧
    ((devMem 32).mayCalibrate 0 = true ∧ (devMem 0).mayCalibrate 0 = false ∧ ((devMem 0).memCh 0).state = 2 ∧ ((devMem 0).memCh 0).left = 0) ∧
    ((devMem 0).channelOf (96 * 2 ^ 30) = none ∧ (devMem 0).channelOf (96 * 2 ^ 30 - 1) ≠ none ∧ (devMem 0).channelOf (2 ^ 40 + 2 ^ 37 - 1) ≠ none ∧
      (devMem 0).channelOf (2 ^ 40 + 2 ^ 37) = none) ∧
    ((devMem 0).regionOf (32 * 2 ^ 30) = .readBuffer ∧ (devMem 0).regionOf (48 * 2 ^ 30) = .manifest ∧ (devMem 0).regionOf (92 * 2 ^ 30) = .window ∧
      (devMem 0).regionOf (2 ^ 40 + 2 ^ 37 - 1) = .heap ∧ (devMem 0).regionOf (96 * 2 ^ 30 - 1) = .other ∧ (devMem 0).regionOf (56 * 2 ^ 30) = .metadata ∧
      (((devMem 0).setFld Reg.MDE_TPH_SIZE_LOG2_BUCKETS 20).setFld Reg.MDE_TPH_BASE_BASE (2 ^ 20)).regionOf (2 ^ 40) = .bucket) ∧
    ((devPageErr .placed false 1).regionOf (3 * 4096) = .grain 5 ∧ (devPageErr .placed false 1).regionRow (.grain 5) 0 = 0 ∧
      (devPageErr .mirrored true 1).regionRow (.grain 5) 0 = 1 ∧ (devPageErr .mirrored false 0).regionRow (.grain 5) 0 = 2 ∧
      (devPageErr .mirrored false 1).regionRow (.grain 5) 0 = 3) ∧
    ((devPageErr .mirrored false 1).regionOf (2 * 4096) = .ring ∧ (devPageErr .mirrored false 1).regionOf (16 * 2 ^ 30 + 7 * 4096) = .mirror 7 ∧
      (Dev.updCtx (devPageErr .mirrored false 1) 63 (fun c => { c with unit := { c.unit with state := .on } })).ustate (.qp 63) ≠ .off) ∧
    ((devMem 0).flag Reg.MEM_PATROL_EN = true ∧ (devMem 0).fencing = false ∧ (let d := { devMem 0 with fis := { (devMem 0).fis with step := 9 } }; d.fis.step = 9 ∧ d.fis.restored = false) ∧ (devMem 0).cal.pwrfail = false ∧ (devMem 0).pinsOn = true ∧ ({} : Dev).pinsOn = false) ∧
    (let d := (devMem 0).setFld Reg.MEM_GEY_STS_STATE 1
     { d with mem := { d.mem with stage := 5 } }.geyserDue = true ∧ d.geyserDue = false) :=
  ⟨by decide +kernel, by decide +kernel, by decide +kernel, by decide +kernel, by decide +kernel, by decide +kernel, by decide +kernel, by decide +kernel, by decide +kernel⟩

/-- Channel 7 with a request of a code, a LENGTH and arguments, QUEUED (1) or RUNNING (2), while the steward runs. -/
def devMbx (code len st : Nat) (args : List Byte) : Dev :=
  let d : Dev := ((((Dev.setFld {} Reg.MBX_GLB_STS_STEWARD stRunning).setFld (Reg.MBX_STS_STATE 7) st).setFld (Reg.MBX_DB_SEQ 7) 5).setFld (Reg.MBX_REQ_SEQ_SEQ 7) 4)
  let h := leBytes 2 code ++ leBytes 2 0 ++ leBytes 4 5 ++ leBytes 4 len ++ leBytes 4 1 ++ leBytes 4 (if args = [] then 0 else (crc32c args).toNat) ++ leBytes 8 0
  { d with mbx := { d.mbx with mem := writeBytes [] (reqBase 7) (withCrc h ++ args) } }
theorem wit_MailboxRequestsAndReads :
    (({} : Dev).steward ≠ stRunning ∧ (devMbx 0x0102 32 1 []).steward = stRunning ∧ (devMbx 0x0102 32 1 []).fld (Reg.MBX_STS_STATE 7) = 1) ∧
    ((devMbx 0x0102 33 1 []).envelopeBad 7 = some 3 ∧ (devMbx 0x0102 32 1 []).envelopeBad 7 = none ∧
      (devMbx 0x0102 32 1 []).req 7 4 4 ≠ (devMbx 0x0102 32 1 []).fld (Reg.MBX_REQ_SEQ_SEQ 7) ∧ mbxCodes.contains ((devMbx 0x0102 32 1 []).req 7 0 2) = true) ∧
    (mbxCodes.contains ((devMbx 0x0199 32 1 []).req 7 0 2) = false ∧ (devMbx 0x0199 32 1 []).envelopeBad 7 = none ∧
      ((devMbx 0x0102 32 1 []).setFld (Reg.MBX_REQ_SEQ_SEQ 7) 5).envelopeBad 7 = none) ∧
    (({} : Dev).newEpoch = false ∧ ({ newEpoch := true, mbx := { tickets := [⟨1, 0x0202, some (0, 0), 0⟩] } } : Dev).newEpoch = true) ∧
    ([0x0101, 0x0102, 0x0103, 0x0104, 0x0201, 0x0308, 0x0404, 0x0603, 0x0701, 0x0802, 0x0901, 0x0902, 0x0A06, 0x0B01, 0x0B03].all (fun code =>
      decide ((devMbx code 36 2 []).mbxChannel code = some 7) && decide ((devMbx code 36 2 []).req 7 8 4 = 36) && decide ((devMbx 0 36 2 []).mbxChannel code = none)) = true) ∧
    ((devMbx 0x0A06 32 2 []).req 7 8 4 = 32 ∧ (devMbx 0x0802 40 2 []).req 7 8 4 = 40) ∧
    ((devMbx 0x0901 36 2 [8, 0, 0, 0]).req 7 32 1 < 9 ∧ 9 ≤ (devMbx 0x0901 36 2 [9, 0, 0, 0]).req 7 32 1) ∧
    ((devMbx 0x0B03 36 2 [127, 3, 0, 0]).req 7 32 1 < 128 ∧ (devMbx 0x0B03 36 2 [127, 3, 0, 0]).req 7 33 1 < 4 ∧
      (devMbx 0x0B03 36 2 [127, 3, 0, 0]).isOn (.att 127) = false ∧ 128 ≤ (devMbx 0x0B03 36 2 [128, 4, 0, 0]).req 7 32 1 ∧ 4 ≤ (devMbx 0x0B03 36 2 [127, 4, 0, 0]).req 7 33 1) :=
  ⟨by decide +kernel, by decide +kernel, by decide +kernel, by decide +kernel, by decide +kernel, by decide +kernel, by decide +kernel, by decide +kernel⟩

/-- A configured head with a request on channel 7: volume 9 of subsystem 1 in group 0, which this head owns, snapshot 3 of it with generation 2, key
slot 6 filled, session 4, domain 0 held. -/
def devCfg (code len : Nat) (args : List Byte) : Dev :=
  let d := (devMbx code len 2 args).setFld (Reg.NVT_ANA_OWN 0) 1
  { d with
    nvt := { d.nvt with ns := [(9, { valid := true, subsys := 1, nsid := 5, size := 8 })], subsys := [(1, { valid := true })] }
    mde := { d.mde with trees := [(9, { state := .ready }), (32771, { state := .ready, source := 9, root := 1 })] }
    key := { d.key with slots := [(6, { state := .ready })] }
    rep := { d.rep with sess := [(4, { state := .suspended, session := 77, srcVol := 12 }), (5, { session := 78, target := true })], gens := [(32771, 2)] }
    fov := { d.fov with witness := some {} } }
def le (l : List (Nat × Nat)) : List Byte := l.flatMap (fun x => leBytes x.1 x.2)
theorem wit_MailboxConfigurationCommands :
    ([0x0202, 0x0203, 0x0204, 0x0205, 0x0301, 0x0302, 0x0303, 0x0304, 0x0305, 0x0306, 0x0307, 0x0309, 0x0401, 0x0402, 0x0403, 0x0501, 0x0502, 0x0503, 0x0504, 0x0505].all
      (fun code => decide ((devCfg code 36 []).mbxChannel code = some 7) && decide ((devMbx code 36 1 []).mbxChannel code = none)) = true ∧ (devCfg 0x0205 36 []).steward = stRunning) ∧
    ((devCfg 0x0202 48 (le [(4, 0x0F0_0004), (4, 60)])).req 7 8 4 = 48 ∧ settableAt ((devCfg 0x0202 48 (le [(4, 0x0F0_0004), (4, 60)])).req 7 32 4) ≠ [] ∧
      settableAt ((devCfg 0x0202 48 (le [(4, 2)])).req 7 32 4) = []) ∧
    ((devCfg 0x0203 64 (le [(4, 15), (4, 1), (8, 1)])).req 7 32 1 = 15 ∧ (devCfg 0x0203 64 (le [(4, 15), (4, 1), (8, 1)])).req 7 40 1 = 1 ∧
      (devCfg 0x0203 64 (le [(4, 15), (4, 1), (8, 1)])).ustate (.port 15) = .off) ∧
    ((devCfg 0x0301 260 [2]).holdsDom0 = true ∧ ({} : Dev).holdsDom0 = false ∧ ((devCfg 0x0301 260 [2]).subsystem ((devCfg 0x0301 260 [2]).req 7 32 1)).valid = false ∧
      ((devCfg 0x0301 260 [2]).mbx.tickets.filter (fun t => decide (t.done = 0))).length < 256 ∧ ((devCfg 0x0302 36 [1]).subsystem ((devCfg 0x0302 36 [1]).req 7 32 1)).valid = true) ∧
    (let d := { devCfg 0x0302 36 [1] with nvt := { (devCfg 0x0302 36 [1]).nvt with ns := [] } }
     d.nvt.ns.any (fun e => (e.2.valid || e.2.deleting) && decide (e.2.subsys = d.req 7 32 1)) = false ∧ d.nvt.ctrls.any (fun e => e.2.valid && decide (e.2.subsys = d.req 7 32 1)) = false) ∧
    ((devCfg 0x0303 264 [1, 1, 0xFF, 0x0F]).req 7 33 1 = 1 ∧ (devCfg 0x0303 264 [1, 1, 0xFF, 0x0F]).req 7 34 2 = 4095) ∧
    (let d := devCfg 0x0304 52 (le [(2, 32767), (1, 1), (1, 1), (4, 32768), (8, 2 ^ 35), (1, 0), (1, 0x77), (2, 6)])
     d.req 7 32 2 = 32767 ∧ (d.subsystem (d.req 7 34 1)).valid = true ∧ d.req 7 35 1 = 1 ∧ d.req 7 36 4 = 32768 ∧ d.req 7 40 8 = 2 ^ 35 ∧ d.req 7 48 1 = 0 ∧
      bitOf (d.req 7 49 1) 3 = false ∧ bitOf (d.req 7 49 1) 7 = false ∧ d.flag (Reg.NVT_ANA_OWN (d.req 7 48 1)) = true ∧
      d.volTaken (d.req 7 32 2) (d.req 7 34 1) (d.req 7 36 4) = false ∧ (d.kslot (d.req 7 50 2)).state ≠ .empty) ∧
    (let d := devCfg 0x0305 48 (le [(8, 9), (8, 8)])
     (d.vol (d.req 7 32 2)).valid = true ∧ d.ownsVol (d.req 7 32 2) = true ∧ (d.vol (d.req 7 32 2)).size ≤ d.req 7 40 8) ∧
    (let d := devCfg 0x0307 36 [9]
     d.cloneSource (d.req 7 32 2) = false ∧ d.rep.sess.any (fun e => (decide (e.2.state ≠ .free) || decide (e.2.session ≠ 0)) &&
       decide ((if e.2.target then e.2.dstVol else e.2.srcVol) = d.req 7 32 2)) = false) ∧
    (let d := devCfg 0x0309 36 [63, 1]
     d.req 7 32 1 = 63 ∧ d.req 7 33 1 = 1 ∧ d.nvt.ns.any (fun e => (e.2.valid || e.2.deleting) && decide (e.2.anaGrp = d.req 7 32 1)) = false) ∧
    (let d := devCfg 0x0402 36 [3]
     (d.tree (32768 + d.req 7 32 4)).state = .ready ∧ d.ownsVol (d.tree (32768 + d.req 7 32 4)).source = true ∧ d.snapHeld (32768 + d.req 7 32 4) = false) ∧
    (let d := devCfg 0x0403 44 (le [(4, 3), (2, 10), (1, 1), (1, 0), (4, 6)])
     (d.tree (32768 + d.req 7 32 4)).state = .ready ∧ (d.subsystem (d.req 7 38 1)).valid = true ∧ d.volTaken (d.req 7 36 2) (d.req 7 38 1) (d.req 7 40 4) = false) ∧
    (let d := devCfg 0x0501 80 (le [(1, 0), (1, 15), (2, 9), (2, 11), (2, 0), (8, 99)])
     d.req 7 40 8 = 99 ∧ d.rep.sess.any (fun e => decide (e.2.session = d.req 7 40 8)) = false ∧ d.freeSess = some 0 ∧ d.ownsVol (d.req 7 34 2) = true ∧ (d.vol (d.req 7 34 2)).valid = true) ∧
    (let d := devCfg 0x0502 56 (le [(8, 5), (8, 0), (8, 2)])
     (d.sess (d.req 7 32 1)).state = .free ∧ (d.sess (d.req 7 32 1)).session ≠ 0 ∧ d.req 7 40 8 < d.req 7 48 8) ∧
    ((devCfg 0x0504 36 [4]).sess ((devCfg 0x0504 36 [4]).req 7 32 1)).state = .suspended ∧
    (let d := devCfg 0x0204 56 [11, 1]
     let e := d.setUnit .mdc { d.unit .mdc with state := .on }
     d.mbx.lock ≠ 8 ∧ d.req 7 32 1 = 11 ∧ d.isOn .mdc = false ∧ e.isOn .mdc = true ∧ e.flag Reg.MDC_CMD_STS_BUSY = false ∧
       (e.setFld Reg.MDC_CMD_STS_BUSY 1).flag Reg.MDC_CMD_STS_BUSY = true) ∧
    (let d := devCfg 0x0401 56 (le [(2, 1), (2, 0), (4, 0), (8, 7), (4, 9), (4, 1048575)])
     let part := d.snapPart 7
     d.mbx.snapRuns.find? (fun r => decide (r.chan = 7)) = none ∧ part = [(9, 1048575)] ∧ (d.snapRefused part (some 48)).orElse (fun _ => d.snapRefused part none) = none ∧
       (d.snapRefused [(9, 3)] (some 48)).orElse (fun _ => d.snapRefused [(9, 3)] none) = some (replyNo 0x06 0) ∧
       (([⟨7, [], 0, 0, 0, true⟩] : List SnapRun).find? (fun r => decide (r.chan = 7))).map (·.dead) = some true) :=
  ⟨by decide +kernel, by decide +kernel, by decide +kernel, by decide +kernel, by decide +kernel, by decide +kernel, by decide +kernel, by decide +kernel, by decide +kernel, by decide +kernel, by decide +kernel, by decide +kernel, by decide +kernel, by decide +kernel, by decide +kernel, by decide +kernel, by decide +kernel⟩

theorem wit_MailboxKeysOwnershipUpdatesAndDiagnostics :
    ([0x0601, 0x0602, 0x0604, 0x0702, 0x0703, 0x0704, 0x0801, 0x0803, 0x0903, 0x0A01, 0x0A02, 0x0A03, 0x0A04, 0x0A05, 0x0B02, 0x0B04, 0x0B05].all
      (fun code => decide ((devCfg code 36 []).mbxChannel code = some 7) && decide ((devMbx code 36 1 []).mbxChannel code = none)) = true ∧
      [32, 36, 40, 44, 48, 80].all (fun n => decide ((devCfg 0x0601 n []).req 7 8 4 = n)) = true) ∧
    (let d := (devCfg 0x0702 44 (le [(1, 127), (1, 0), (1, 3), (1, 0), (4, 9), (4, 77)])).setUnit .mdc { (devCfg 0x0702 44 []).unit .mdc with state := .on }
     let e := [0, 3, 127].foldl (fun (x : Dev) a => x.setUnit (.att a) { x.unit (.att a) with state := .on }) d
     d.holdsDom0 = true ∧ d.req 7 32 1 = 127 ∧ d.isOn (.att 127) = false ∧ [0, 3, 127].all (fun a => e.isOn (.att a)) = true ∧
       (d.mbx.tickets.filter (fun t => decide (t.done = 0))).length < 256) ∧
    (let d := (devCfg 0x0703 40 [1]).setFld Reg.FOV_STS_STATE 2
     d.fovState = 2 ∧ d.req 7 32 8 = 1 ∧ (List.range 64).any (fun g => bitOf (d.req 7 32 8) g && !d.flag (Reg.NVT_ANA_OWN g)) = false ∧
       (List.range 64).any (fun g => bitOf 2 g && !d.flag (Reg.NVT_ANA_OWN g)) = true) ∧
    ((devCfg 0x0704 36 [4]).req 7 32 1 = 4 ∧ (devCfg 0x0704 36 [4]).ownMask ≠ 0 ∧ (devCfg 0x0704 36 [1]).req 7 32 1 = 1) ∧
    ((devCfg 0x0801 40 (le [(2, 2047), (2, 1), (1, 15), (1, 0), (2, 2047)])).req 7 32 2 = 2047 ∧
      (devCfg 0x0801 40 (le [(2, 2047), (2, 1), (1, 15), (1, 0), (2, 2047)])).req 7 34 2 = 1 ∧ (devCfg 0x0803 32 []).flag Reg.FUM_STS_NOR_FAILED = false) ∧
    ((devCfg 0x0903 36 [1]).req 7 32 1 < 2 ∧ (devCfg 0x0A01 48 (le [(8, 0), (8, 2 ^ 27)])).req 7 40 8 = 2 ^ 27 ∧ (devCfg 0x0A01 48 []).fld Reg.UPD_STS_STAGE ≠ 3) ∧
    (let d := { devCfg 0x0A02 52 (le [(8, 2), (4, 3)]) with upd := { (devCfg 0x0A02 52 []).upd with buf := some (5, [1, 2]) } }
     d.upd.buf = some (5, [1, 2]) ∧ d.req 7 32 8 = 2 ∧ d.req 7 40 4 = 3 ∧ (48 + d.req 7 40 4 + 3) / 4 * 4 = 52) ∧
    (let d := ((devCfg 0x0A04 48 (le [(8, 0), (8, 2)])).setFld Reg.UPD_STS_STAGE 3).setFld Reg.FOV_STS_STATE 2
     d.epoch + 2 ≤ d.req 7 40 8 ∧ d.fld Reg.UPD_STS_STAGE = 3 ∧ d.fovState = 2 ∧ d.fld Reg.UPD_STS_ACT = 0 ∧ d.upd.armSent = false) ∧
    ((devCfg 0x0B04 32 []).ownMask ≠ 0 ∧ ((devCfg 0x0B04 32 []).setFld (Reg.NVT_ANA_OWN 0) 0).ownMask = 0) ∧
    ((devCfg 0x0601 80 (le [(2, 4095), (2, 32767)])).req 7 32 2 = 4095 ∧ (devCfg 0x0601 80 (le [(2, 4095), (2, 32767)])).req 7 34 2 = 32767 ∧
      (devCfg 0x0601 80 []).flag Reg.KEY_STS_BUSY = false ∧ ((devCfg 0x0601 80 []).setFld Reg.KEY_STS_BUSY 1).flag Reg.KEY_STS_BUSY = true ∧
      (devCfg 0x0601 80 []).flag Reg.KEY_STS_LOCKED = false ∧ ((devCfg 0x0601 80 []).setFld Reg.KEY_STS_LOCKED 1).flag Reg.KEY_STS_LOCKED = true ∧
      (devCfg 0x0601 80 []).mbx.kek = none ∧ (devCfg 0x0601 80 []).flag Reg.SEC_STS_DUK_BLOCKED = false) ∧
    ((devCfg 0x0602 36 [0xFF, 0xFF]).req 7 32 2 = 0xFFFF ∧ (devCfg 0x0602 36 [0xFF, 0x0F]).req 7 32 2 < 4096) ∧
    ((devCfg 0x0604 72 [0]).req 7 32 1 = 0 ∧ (devCfg 0x0604 80 [1]).req 7 32 1 = 1 ∧ (devCfg 0x0604 72 [0]).holdsDom0 = true ∧ ({} : Dev).holdsDom0 = false) ∧
    ((devCfg 0x0B05 40 []).req 7 8 4 = ((40 + (devCfg 0x0B05 40 []).req 7 32 2) + 3) / 4 * 4) ∧
    (let d := Dev.setFld {} Reg.MBX_GLB_STS_STEWARD stRestarting
     d.steward = stRestarting ∧ d.mbx.restarts.length < 5 ∧ (d.mbx.restart.getD (1, 0)).1 ≠ 2 ∧ ({} : Dev).steward ≠ stRestarting ∧ 5 ≤ ([1, 2, 3, 4, 5] : List Nat).length) :=
  ⟨by decide +kernel, by decide +kernel, by decide +kernel, by decide +kernel, by decide +kernel, by decide +kernel, by decide +kernel, by decide +kernel, by decide +kernel, by decide +kernel, by decide +kernel, by decide +kernel, by decide +kernel, by decide +kernel⟩

/-- The recorder with two records in the ring, frozen or not, the partition failed or not, SEQ loaded, a flush begun. -/
def devFum (frozen failed : Nat) : Dev :=
  let d := ((((Dev.setFld {} Reg.FUM_STS_FROZEN frozen).setFld Reg.FUM_STS_NOR_FAILED failed).setFld Reg.FUM_STS_SEQ_LOADED 1).setFld Reg.FUM_STS_FLUSHING 1).setFld Reg.FUM_SEQ_NEXT_SEQ 9002
  let r : Raise := ⟨0, 0, 0, 0, 0, 0⟩
  { d with fum := { d.fum with ring := [(9000, fumBytes 9000 3 r), (9001, fumBytes 9001 3 r)], unflushed := 1, queue := [(r, 3)], lastFlush := true, nor := [(8200, fumBytes 8999 3 r)] } }
theorem wit_EventsRoutesAndTheRecorder :
    (eventCode 2047 = 0 ∧ eventCode 1984 ≠ 0 ∧ eventCode 0 ≠ 0 ∧ ({} : Dev).fld (Reg.EVC_ROUTE_VECTOR 1990) < 2048 ∧ ({} : Dev).flag (Reg.EVC_PEND 0) = false ∧
      ({} : Dev).flag (Reg.EVC_ROUTE_FUM_EN 0) = true ∧ fumSource 0 = false ∧ fumSource 1984 = true ∧ ({} : Dev).flag Reg.FUM_STS_SEQ_LOADED = false ∧
      ({} : Dev).fum.preload.length < 64) ∧
    (((Dev.setFld {} (Reg.EVC_ROUTE_MSIX_EN 0) 1).setFld (msixMask 0) 0).flag (msixMask 0) = false ∧ ({} : Dev).flag (msixMask 0) = true ∧
      (Dev.setFld {} (Reg.EVC_ROUTE_MSIX_EN 0) 1).flag (Reg.EVC_ROUTE_MSIX_EN 0) = true ∧ (Dev.setFld {} (Reg.EVC_ROUTE_STEW_EN 0) 1).flag (Reg.EVC_ROUTE_STEW_EN 0) = true) ∧
    (({} : Dev).fum.queue = [] ∧ ({} : Dev).fum.drop = 0 ∧ (devFum 0 0).fum.queue.length = 1 ∧ (devFum 0 0).flag Reg.FUM_STS_FROZEN = false ∧
      (devFum 1 0).flag Reg.FUM_STS_FROZEN = true ∧ (devFum 1 0).fum.lg.length < 8) ∧
    ((devFum 0 0).flag Reg.FUM_STS_FLUSHING = true ∧ (devFum 0 0).flag Reg.FUM_STS_NOR_FAILED = false ∧ (devFum 0 0).fum.lost = none ∧ (devFum 0 0).fum.fault = none ∧
      ((devFum 0 0).fum.ring.drop ((devFum 0 0).fum.ring.length - (devFum 0 0).fum.unflushed)).length = 1 ∧ ({} : Dev).flag Reg.FUM_STS_FLUSHING = false) ∧
    ((devFum 0 0).norNewest = some (8200, 8999) ∧ ({} : Dev).norNewest = none ∧ (devFum 0 0).flag Reg.FUM_STS_SEQ_LOADED = true ∧
      (devFum 0 1).flag Reg.FUM_STS_NOR_FAILED = true) ∧
    (({ (devFum 0 0).fum with lost := some (1, 2), fault := some 9000, bad := [808], drop := 5 } : FumSt).lost = some (1, 2) ∧ 9000 % 8192 ∈ ([808] : List Nat) ∧ (devFum 0 0).fum.queue.length < 1024) :=
  ⟨by decide +kernel, by decide +kernel, by decide +kernel, by decide +kernel, by decide +kernel, by decide +kernel⟩

def devUpd (act stage hand : Nat) (sent : Bool) : Dev :=
  let d := (((Dev.setFld {} Reg.UPD_STS_ACT act).setFld Reg.UPD_STS_STAGE stage).setFld Reg.CDX_STS_LINK 3).setFld Reg.MBX_GLB_STS_STEWARD stRunning
  { d with newEpoch := true, beat := 3 * Config.epochBeats, upd := { d.upd with hand := hand, armSent := sent, own := true, peer := true, from_ := 1 } }
theorem wit_UpdatesStageArmActivateRevertAndCommit :
    (let d := ((devUpd 0 0 0 false).setFld Reg.FIS_STRAP_VALUE (2 ^ 10)).setFld Reg.UPD_CFG_CARD_EN 1
     d.strap 10 = true ∧ d.steward = stRunning ∧ d.flag Reg.UPD_STS_CARD ≠ true ∧ d.flag Reg.UPD_CFG_CARD_EN = true ∧ d.fld Reg.UPD_STS_STAGE ≠ 3 ∧
       d.pkgCheck [] false ≠ 0 ∧ ({} : Dev).strap 10 = false) ∧
    ((devUpd 0 3 0 false).fld Reg.UPD_STS_STAGE = 3 ∧ (devUpd 0 3 0 false).fld Reg.UPD_STS_ACT = 0 ∧ (devUpd 1 3 0 false).fld Reg.UPD_STS_ACT = 1 ∧
      2 ≤ (devUpd 0 3 0 false).fld Reg.CDX_STS_LINK ∧ (devUpd 0 3 0 false).ownDigest = List.replicate 48 0) ∧
    ((devUpd 0 3 0 true).upd.armSent = true ∧ (devUpd 0 3 0 true).slotId = 0 ∧ ((devUpd 0 3 0 true).setFld Reg.KEY_STS_HEAD 1).slotId ≠ 0) ∧
    (let d := devUpd 1 3 0 false
     d.fld Reg.UPD_ARM_EPOCH_EPOCH ≤ d.epoch ∧ d.newEpoch = true ∧ d.strap 5 = false ∧ d.upd.own = true ∧ d.upd.from_ < d.epoch) ∧
    (let d := { (devUpd 1 3 0 false).setFld Reg.FIS_STRAP_VALUE 32 with beat := 16 * Config.epochBeats }
     d.strap 5 = true ∧ d.fovState ≠ 2 ∧ d.fld Reg.UPD_ARM_EPOCH_EPOCH + 16 ≤ d.epoch) ∧
    ((devUpd 2 3 0 false).fld Reg.UPD_STS_ACT ∈ [2, 3, 4] ∧ pkgHandoff ((devUpd 2 3 0 false).img 0).pkg = false ∧
      pkgHandoff (leBytes 4 0x7A11F6A1 ++ [1, 1] ++ List.replicate 138 0 ++ [3]) = true) ∧
    ((devUpd 4 3 2 false).upd.hand = 2 ∧ 2 ≤ (devUpd 4 3 2 false).fld Reg.UPD_STS_ACT ∧ (devUpd 6 3 2 false).fld Reg.UPD_STS_ACT = 6) ∧
    (let d := (devUpd 5 3 0 false).setFld Reg.UPD_STS_SOAK 8
     let e := d.updCopy 1 (fun c => { c with state := .pending })
     d.fld Reg.UPD_STS_ACT = 5 ∧ 8 ≤ d.fld Reg.UPD_STS_SOAK ∧ d.newEpoch = true ∧ (e.flashCopy 1).state = .pending ∧ (e.flashCopy 0).state ≠ .pending) :=
  ⟨by decide +kernel, by decide +kernel, by decide +kernel, by decide +kernel, by decide +kernel, by decide +kernel, by decide +kernel, by decide +kernel⟩

def devSec (act dbg step : Nat) : Dev :=
  let d := ((Dev.setFld {} Reg.SEC_STS_ACTIVE act).setFld Reg.SEC_STS_DBG_STATE dbg).setFld Reg.KEY_STS_LOCKED 1
  { d with sec := { d.sec with step := step, chal := some (zerosN 16) }, edges := 5 * 2 ^ 23, marks := [(tmChallenge, 1), (tmScrub, 1), (tmAlarm, 1)] }
theorem wit_AlarmsDebugTestLogicAndTemperature :
    (([(3, 0, 0), (0, 1, 640)] : List (Nat × Nat × Nat)).filter (fun c => decide (c.1 < 4) && decide ((devSec 1 0 0).fld Reg.SEC_STS_ACTIVE / 2 ^ c.1 % 2 = 0)) = [(3, 0, 0)] ∧
      (devSec 1 0 0).fld Reg.SEC_STS_ACTIVE / 2 ^ 0 % 2 = 1 ∧ (devSec 8 0 0).fld Reg.SEC_STS_ACTIVE / 2 ^ 3 % 2 = 1) ∧
    ((devSec 0 0 0).fld Reg.SEC_STS_ACTIVE = 0 ∧ 2 ^ 20 ≤ (devSec 0 0 0).edges + 1 - 1 ∧ (devSec 0 0 0).fld Reg.SEC_STS_ALARM_LATCH = 0 ∧
      (devSec 0 0 0).fld Reg.SEC_STS_DBG_STATE = 0 ∧ (devSec 0 0 0).flag Reg.KEY_STS_LOCKED = true ∧ (devSec 1 0 0).fld Reg.SEC_STS_ACTIVE ≠ 0) ∧
    ((devSec 0 1 1).fld Reg.SEC_STS_DBG_STATE = 1 ∧ (devSec 0 1 1).sec.flush = false ∧ (devSec 0 1 2).sec.step = 2 ∧ (devSec 0 1 4).sec.step = 4 ∧
      (devSec 0 1 1).cal.pwrfail = false ∧ ({ (devSec 0 1 1).cal with pwrfail := true } : CalSt).pwrfail = true) ∧
    (let d := devSec 0 1 3
     d.sec.step = 3 ∧ tget 0 d.marks tmScrub ≠ 0 ∧ 491520 ≤ d.edges + 1 - tget 0 d.marks tmScrub ∧
       d.sec.chal.isSome = true ∧ tget 0 d.marks tmChallenge ≠ 0 ∧ 4 * Config.epochBeats ≤ d.edges + 1 - tget 0 d.marks tmChallenge) ∧
    ((devSec 0 2 0).fld Reg.SEC_STS_DBG_STATE = 2 ∧ ((devSec 0 2 0).setFld Reg.SEC_STS_SCOPE 2).fld Reg.SEC_STS_SCOPE / 2 % 2 = 1 ∧
      ((devSec 0 2 0).setFld Reg.SEC_JTAG_IR 0x20).fld Reg.SEC_JTAG_IR = 0x20 ∧ ({} : Dev).fld Reg.SEC_JTAG_IR = 1 ∧
      ((devSec 0 2 0).setFld Reg.SEC_JTAG_IR 6).fld Reg.SEC_JTAG_IR = 6) ∧
    (([90, 106, 106] : List Int)[1]? = some 106 ∧ (∀ x ∈ ([90, 106, 106] : List Int), x ≤ 106) ∧
      (∀ j x, j < 1 → ([90, 106, 106] : List Int)[j]? = some x → x < 106)) ∧
    ((Dev.setFld {} Reg.FIS_STS_PHASE 1).fld Reg.FIS_STS_PHASE ≠ 0 ∧ ({} : Dev).fld Reg.FIS_STS_PHASE = 0) := by
  and_intros
  all_goals first
    | decide +kernel
    | (intro j x hj hx; obtain rfl : j = 0 := by omega
       simp at hx; omega)

theorem wit_MemoriesStayCanonicalInEveryStep :
    (let s : State := { dev := { State.reset.dev with cal := { State.reset.dev.cal with own := writeBytes [] 4095 [1, 0, 2] } }, pending := [.epochEdge] }
     Memory.wf s.dev.cal.own = true ∧ Memory.wf s.dev.cal.mirror = true ∧ Memory.wf s.dev.mbx.mem = true ∧ Memory.wf s.dev.ram = true ∧
       s.dev.cal.own = [(4095, 1), (4097, 2)]) := by decide

theorem wit_NoStepQueuesACommandFromOutside :
    fromOutside (.registerWrite .bar2 0 4 ⟨0, 0⟩) = true ∧ fromOutside .powerOnReset = true ∧ fromOutside .epochEdge = false ∧
      (match Machine.step ({ pending := [.epochEdge, .alarmClr] } : State) with | .next s' => s'.pending | _ => []) = [.alarmClr] := by decide

end Sys2Proof.Machine.Tests
end

section
/-! The statements of the family `02_beat_and_epoch`: reset, the alignment of the heads, admission, and a slice's scheduler. -/
namespace Sys2Proof.Machine.BeatAndEpoch
open Sys2Proof

/-! ### Commands that change the device only -/

theorem lift_eq_next {f : Dev → Dev} {s : State} {d : Dev} (h : f s.dev = d) : lift f s = .next { s with dev := d } := by
  rw [lift, h]

theorem eq_of_lift_eq_next {f : Dev → Dev} {s : State} {d : Dev} (h : lift f s = .next { s with dev := d }) : f s.dev = d :=
  congrArg State.dev (Host.Outcome.next.inj h)

/-! ### Reset (R600, R601) -/

theorem fld_reset (f : Fld) : State.reset.dev.fld f = f.reset := rfl

/-- A queue pair's record stands in its context, whose value at reset depends on its class; any other unit's is read from registers. -/
theorem unit_reset (u : UnitId) : State.reset.dev.unit u = {} := by
  cases u with
  | qp q =>
    show (ctxInit q).unit = {}
    unfold ctxInit
    split <;> rfl
  | slice s => rfl
  | port p => rfl
  | mdc => rfl
  | att a => rfl
  | lane l => rfl

theorem tag_reset_free (t : Nat) : (State.reset.dev.tag t).state = .free := rfl

theorem registerRead_reset_glbId : State.reset.dev.registerRead .bar0 0x000 4 = 0x00B06400 := by decide +kernel

/-- Settles O4: at reset every table is empty, so each field reads its reset value and each entry its default. -/
theorem resetLeavesTheStatedValues : Obligations.ResetLeavesTheStatedValues := by
  unfold Obligations.ResetLeavesTheStatedValues
  exact ⟨rfl, rfl, rfl, rfl, registerRead_reset_glbId, fld_reset _, fun u _ => unit_reset u, fun s _ => ⟨fld_reset _, fld_reset _⟩,
    tag_reset_free, reset_sound⟩

/-! ### Time and the alignment of the heads (R43 to R50, R461) -/

/-- The work on waiting grains that follows the event touches the Caldera's directories only. -/
theorem epochEdge_frame (d : Dev) :
    d.epochEdge.raised = (d.raise 0 0 0 0).raised ∧ d.epochEdge.fields = d.fields ∧ d.epochEdge.xpt = d.xpt :=
  Dev.each_induct (fun e => e.raised = (d.raise 0 0 0 0).raised ∧ e.fields = d.fields ∧ e.xpt = d.xpt) _ _ _
    ⟨rfl, rfl, rfl⟩ (fun _ _ _ h => h)

theorem syncReqSend_of_not_armed {d : Dev} (hrole : d.fld Reg.GLB_SYNC_STS_ROLE = roleFollower) (hidle : d.armed tmSyncReq = false)
    (hlink : d.fld Reg.CDX_STS_LINK = 2 ∨ d.fld Reg.CDX_STS_LINK = 3 ∨ d.fld Reg.CDX_STS_LINK = 4) :
    d.syncReqSend = ({ d with free := d.free + 1, sync := { d.sync with seq := d.sync.seq + 1, reqBeat := d.beat, reqCycle := d.cycleNow.1, awaiting := true } }.emit
      (.link (.syncReq (d.sync.seq + 1)))).arm tmSyncReq :=
  if_pos ⟨hrole, Or.inl hidle, hlink⟩

theorem syncReq_of_reference {d : Dev} (id : Word) (hold : Nat) (hrole : d.fld Reg.GLB_SYNC_STS_ROLE = roleReference) :
    d.syncReq id hold = { d with free := d.free + 1, sync := { d.sync with measured := true } }.emit
      (.link (.syncResp id d.beat d.cycleNow.1 hold)) :=
  if_pos hrole

theorem syncLockLost_of_expired {d : Dev} (hrole : d.fld Reg.GLB_SYNC_STS_ROLE = roleFollower)
    (hlock : d.flag Reg.GLB_SYNC_STS_LOCKED = true) (hexp : d.expired tmSync (2 ^ 13) = true) :
    d.syncLockLost = (({ d with sync := { d.sync with slew := 0 } }.setFld Reg.GLB_SYNC_STS_LOCKED 0).disarm tmSync).raise 2 0 0 0 :=
  if_pos ⟨hrole, hlock, hexp⟩

/-- `e` awaits no reply and is LOCKED, with the transport and the Caldera of `d`. -/
def LockedFrom (d e : Dev) : Prop :=
  e.sync.awaiting = false ∧ e.flag Reg.GLB_SYNC_STS_LOCKED = true ∧ e.xpt = d.xpt ∧ e.cal = d.cal

theorem LockedFrom.setFld {d e : Dev} (h : LockedFrom d e) (f : Fld) (v : Nat) (hne : f.key ≠ Reg.GLB_SYNC_STS_LOCKED.key) :
    LockedFrom d (e.setFld f v) := by
  obtain ⟨hawait, hlock, hxpt, hcal⟩ := h
  exact ⟨hawait, (Dev.flag_setFld_ne e f _ v hne).trans hlock, hxpt, hcal⟩

/-- The step over lagged beats and the out-of-bound mark write other fields of the alignment registers. -/
theorem lockedFrom_syncResp {d : Dev} (id : Word) (refBeat refCycle hold : Nat) (hrole : d.fld Reg.GLB_SYNC_STS_ROLE = roleFollower)
    (hawait : d.sync.awaiting = true) (hid : id = d.sync.seq) : LockedFrom d (d.syncResp id refBeat refCycle hold) := by
  unfold Dev.syncResp
  rw [if_pos ⟨hrole, hawait, hid⟩]
  apply Dev.cond_induct
  · apply Dev.cond_induct
    · exact ⟨rfl, Dev.flag_setFlag_self _ Reg.GLB_SYNC_STS_LOCKED true (by decide), rfl, rfl⟩
    · intro e he
      exact LockedFrom.setFld (LockedFrom.setFld he Reg.GLB_SYNC_STS_STEPS _ (by decide)) Reg.GLB_SYNC_STEP_BEATS _ (by decide)
  · intro e he
    exact LockedFrom.setFld he Reg.GLB_SYNC_STS_OUT_OF_BOUND 1 (by decide)

/-- Settles O9, command by command. -/
theorem timeAndAlignmentCommands : Obligations.TimeAndAlignmentCommands := by
  unfold Obligations.TimeAndAlignmentCommands
  intro s
  refine ⟨⟨_, rfl, epochEdge_frame s.dev⟩, ?_, ?_, ?_, ?_⟩
  · intro hrole hidle hlink
    exact lift_eq_next (syncReqSend_of_not_armed hrole hidle hlink)
  · intro id hold hrole
    exact lift_eq_next (syncReq_of_reference id hold hrole)
  · intro id refBeat refCycle hold hrole hawait hid
    exact ⟨_, rfl, lockedFrom_syncResp id refBeat refCycle hold hrole hawait hid⟩
  · intro hrole hlock hexp
    exact lift_eq_next (syncLockLost_of_expired hrole hlock hexp)

/-! ### Admission (R35 to R38, R109) -/

theorem writeClass_iff (op : Nat) : writeClass op = true ↔ op = opWrite ∨ op = opZeroes ∨ op = opDsm ∨ op = opCopy := by
  simp [writeClass]

/-- The registers of a slice, whatever its number, lie above every register of the blocks before slice 0. -/
theorem key_ne_of_below_slices {f g : Fld} {s : Nat} (hf : Reg.sliceBase s ≤ f.off) (hg : g.key < 8 * Reg.sliceBase 0) : f.key ≠ g.key := by
  simp only [Reg.sliceBase, Fld.key] at *
  omega

theorem fld_refill_of_below_slices {d : Dev} {s : Nat} {g : Fld} (hg : g.key < 8 * Reg.sliceBase 0) : (d.refill s).fld g = d.fld g := by
  have hin : (Reg.SLI_ADM_IN_IN s).key ≠ g.key := key_ne_of_below_slices (Nat.le_add_right _ _) hg
  have hout : (Reg.SLI_ADM_OUT_OUT s).key ≠ g.key := key_ne_of_below_slices (Nat.le_add_right _ _) hg
  exact (Dev.fld_setFld_ne _ _ _ _ hout).trans (Dev.fld_setFld_ne _ _ _ _ hin)

theorem aboveHwm_refill (d : Dev) (s : Nat) : (d.refill s).aboveHwm = d.aboveHwm :=
  congrArg (fun n => decide (n < d.ownDirty)) (fld_refill_of_below_slices (by decide))

theorem admitNext_of_aboveHwm {d : Dev} {c : HostCmd} (s : Nat) (hclass : writeClass c.opcode = true) (habove : d.aboveHwm = true) :
    d.admitNext s c = none := by
  simp [Dev.admitNext, hclass, habove]

theorem admitLoop_of_admitNext_none {d : Dev} {s : Nat} {c : HostCmd} (rest : List HostCmd) (h : d.admitNext s c = none) :
    d.admitLoop s (c :: rest) = (d, c :: rest) := by
  simp [Dev.admitLoop, h]

/-- The slices, the NVMe target, the Caldera and the outputs of `e` are those of `d`. -/
def SameWork (d e : Dev) : Prop := e.slices = d.slices ∧ e.nvt = d.nvt ∧ e.cal = d.cal ∧ e.out = d.out

theorem SameWork.raiseOnce {d e : Dev} (h : SameWork d e) (key src p0 p1 p2 : Nat) : SameWork d (e.raiseOnce key src p0 p1 p2) := by
  simpa [SameWork] using h

/-- R37: once its loop is over, an edge of admission puts the rest back and goes on with status fields and events. -/
theorem sameWork_admitWaiting {d e : Dev} {s : Nat} {rest : List HostCmd} (hon : d.isOn (.slice s) = true)
    (hloop : (d.refill s).admitLoop s (d.slice s).waiting = (e, rest)) :
    SameWork (e.updSlice s (fun x => { x with waiting := rest })) (d.admitWaiting s) := by
  unfold Dev.admitWaiting
  rw [if_pos hon, hloop]
  dsimp only
  generalize e.updSlice s (fun x => { x with waiting := rest }) = e'
  have hshown (dirty : Bool) : SameWork e' (((e'.setFlag (Reg.SLI_ADM_STS_HELD s) (!rest.isEmpty)).setFld (Reg.SLI_ADM_STS_WAITING s)
      (min rest.length 65535)).setFlag (Reg.SLI_ADM_STS_DIRTY_HELD s) dirty) := by simp [SameWork]
  cases rest with
  | nil => exact Dev.cond_induct _ _ _ _ (hshown _) (fun e he => he.raiseOnce 5 5 _ 0 0)
  | cons c rest =>
    refine Dev.cond_induct _ _ _ _ (Dev.cond_induct _ _ _ _ (hshown _) ?_) ?_
    · exact fun e he => he.raiseOnce 5 5 _ 0 0
    · exact fun e he => he.raiseOnce (5000 + s) 320 s 0 0

/-- Settles O30: the refill does not move the mark, so the first command is held and the loop stops before it. -/
theorem writeClassCommandsWaitAboveTheHighWaterMark : Obligations.WriteClassCommandsWaitAboveTheHighWaterMark := by
  unfold Obligations.WriteClassCommandsWaitAboveTheHighWaterMark
  refine ⟨writeClass_iff, ?_⟩
  intro sl c rest s hon hwait hclass hover
  have habove : (s.dev.refill sl).aboveHwm = true := (aboveHwm_refill s.dev sl).trans (decide_eq_true hover)
  have hloop : (s.dev.refill sl).admitLoop sl (s.dev.slice sl).waiting = (s.dev.refill sl, c :: rest) := by
    rw [hwait, admitLoop_of_admitNext_none rest (admitNext_of_aboveHwm sl hclass habove)]
  obtain ⟨hslices, hnvt, hcal, hout⟩ := sameWork_admitWaiting hon hloop
  refine ⟨_, rfl, ?_, hnvt, hcal, hout⟩
  calc ((s.dev.admitWaiting sl).slice sl).waiting
      = (((s.dev.refill sl).updSlice sl (fun x => { x with waiting := c :: rest })).slice sl).waiting := by rw [Dev.slice, hslices, Dev.slice]
    _ = c :: rest := by rw [Dev.slice_updSlice_self]

/-! ### The scheduler (R32, R33) -/

theorem exec_engineSchedule (sl : Nat) (s : State) : exec (.engineSchedule sl) s = lift (fun d => d.engineSchedule sl) s := rfl

/-- A new job for a cipher engine, of a priority class past the eight (0 to 7) that `schedule` goes through. -/
def jobOfClassEight : Job := { eng := .gcm 0, cls := 8, left := 9000, level := 0, begun := false, held := 0 }

theorem jobOfClassEight_ne_run : jobOfClassEight ≠ jobOfClassEight.run := by decide

/-- Slice 0 is ON with that job alone. -/
def devJobOfClassEight : Dev := (Dev.setFld {} (Reg.SLI_STS_STATE 0) 2).updSlice 0 (fun x => { x with jobs := [jobOfClassEight] })

theorem devJobOfClassEight_may_run_its_job :
    devJobOfClassEight.isOn (.slice 0) = true ∧ (devJobOfClassEight.takeWork 0).mayRun 0 jobOfClassEight = true ∧
      ((devJobOfClassEight.takeWork 0).slice 0).jobs = [jobOfClassEight] ∧ jobOfClassEight.run.left ≠ 0 := by decide +kernel

theorem jobs_engineSchedule_devJobOfClassEight : ((devJobOfClassEight.engineSchedule 0).slice 0).jobs = [jobOfClassEight] := by
  decide +kernel

/-- Refutes O19: its last clause says of a job of any class that it runs when it may and is alone, but `schedule` begins new jobs of
the classes 0 to 7 only, and a job of class 8 stays as it is. The clause quantifies over every state and every job, so it needs no command
that posts one. -/
theorem not_commandsAreAdmittedInOrder : ¬ Obligations.CommandsAreAdmittedInOrder := by
  unfold Obligations.CommandsAreAdmittedInOrder
  intro h
  obtain ⟨-, -, -, -, -, hlone⟩ := h 0 { dev := devJobOfClassEight }
  obtain ⟨hon, hmay, hjobs, hleft⟩ := devJobOfClassEight_may_run_its_job
  obtain ⟨d, hexec, hran⟩ := hlone jobOfClassEight hon hmay hjobs hleft
  rw [exec_engineSchedule] at hexec
  rw [← eq_of_lift_eq_next hexec, jobs_engineSchedule_devJobOfClassEight] at hran
  exact jobOfClassEight_ne_run (List.cons.inj hran).1

end Sys2Proof.Machine.BeatAndEpoch
end

section
/-! The statements of the family `04_nvme_target`: the commands that a tag runs, and the reservations of a volume. -/
namespace Sys2Proof.Machine.NvmeTarget
open Sys2Proof

/-- A command that changes the device only answers with the device that its meaning makes of it. -/
theorem next_congr (s : State) {d e : Dev} (h : d = e) : (Host.Outcome.next { s with dev := d } : Ans) = .next { s with dev := e } := by
  rw [h]

/-! ### The commands that a tag runs -/

/-- A command runs for one opcode alone, is not forwarded, and its path has not begun. -/
theorem runs_eq_some_iff {d : Dev} {t op : Nat} {c : HostCmd} : d.runs t op = some c ↔
    (d.tag t).cmd = some c ∧ (d.tag t).state = .running ∧ (d.tag t).fwdOut = false ∧ (d.tag t).begun = false ∧ c.opcode = op := by
  unfold Dev.runs
  dsimp only
  split
  next c' hcmd =>
    rw [hcmd, Option.some.injEq, Option.ite_none_right_eq_some, Option.some.injEq]
    constructor
    · rintro ⟨⟨hrun, hout, hbegun, hop⟩, rfl⟩
      exact ⟨rfl, hrun, hout, hbegun, hop⟩
    · rintro ⟨rfl, hrun, hout, hbegun, hop⟩
      exact ⟨⟨hrun, hout, hbegun, hop⟩, rfl⟩
  next hcmd => simp [hcmd]

theorem runs_eq_none_of_begun {d : Dev} {t : Nat} (op : Nat) (hbegun : (d.tag t).begun = true) : d.runs t op = none := by
  refine Option.eq_none_iff_forall_ne_some.2 (fun c hrun => ?_)
  obtain ⟨-, -, -, hnot, -⟩ := runs_eq_some_iff.1 hrun
  exact Bool.false_ne_true (hnot.symm.trans hbegun)

/-! ### Reservations (R132 to R136) -/

theorem resvCommand_of_ok {d : Dev} {t op : Nat} {why : ResvWhy} {f : Resv → Nat → Except Status Resv} {c : HostCmd} {new : Resv}
    (hrun : d.runs t op = some c) (hf : f (d.vol (d.tag t).vol).resvLast c.hostIdx = .ok new) :
    d.resvCommand t op why f = d.resvChange t { new := new, tag := some t, host := c.hostIdx, why := why } := by
  simp only [Dev.resvCommand, hrun, hf]

theorem resvCommand_of_error {d : Dev} {t op : Nat} {why : ResvWhy} {f : Resv → Nat → Except Status Resv} {c : HostCmd} {st : Status}
    (hrun : d.runs t op = some c) (hf : f (d.vol (d.tag t).vol).resvLast c.hostIdx = .error st) :
    d.resvCommand t op why f = d.complete t st none := by
  simp only [Dev.resvCommand, hrun, hf]

theorem resvRegister_of_new_host {r : Resv} {h : Nat} (cur new : DWord) (p : Option Bool) (hnew : keyOfHost r h = none)
    (hroom : r.regs.length < 64) :
    resvRegister r h .register cur new p = .ok { r with regs := r.regs ++ [⟨h, new⟩], ptpl := p.getD r.ptpl, gen := r.gen + 1 } := by
  simp only [resvRegister, hnew, if_neg (Nat.not_le.2 hroom)]

theorem resvAcquire_of_free {r : Resv} {h ty : Nat} {cur : DWord} (pre : DWord) (hkey : keyOfHost r h = some cur) (hlo : 1 ≤ ty)
    (hhi : ty ≤ 6) (hfree : r.rtype = 0) : resvAcquire r h .acquire ty cur pre = .ok { r with rtype := ty, holder := h } := by
  have htype : ¬(ty = 0 ∨ 6 < ty) := by omega
  simp only [resvAcquire, if_neg (not_not_intro hkey), if_neg htype, if_pos hfree]

theorem resvAcquire_of_other_key {r : Resv} {h : Nat} {cur : DWord} (a : AcqAction) (ty : Nat) (pre : DWord)
    (hkey : keyOfHost r h ≠ some cur) : resvAcquire r h a ty cur pre = .error stConflict :=
  if_pos hkey

theorem resvRelease_of_holder {r : Resv} {h : Nat} {cur : DWord} (hkey : keyOfHost r h = some cur) (hholder : r.holder = h) :
    resvRelease r h .release cur = .ok { r with rtype := 0, holder := 0 } := by
  simp only [resvRelease, if_neg (not_not_intro hkey), if_pos (Or.inr hholder), Resv.released]

/-- R127, R135: the report of a forwarded command goes to the head that received it, as the data of its RTAG. -/
theorem resvReport_of_fwdIn {d : Dev} {t : Nat} {c : HostCmd} (hrun : d.runs t opResvReport = some c) (hfwd : c.fwdIn = true) :
    ∃ w : WorkItem, w.prod = .fwd t ∧ d.resvReport t = (d.post c.qp w).complete t stSuccess none := by
  simp only [Dev.resvReport, hrun, hfwd, if_pos]
  exact ⟨_, rfl, rfl⟩

theorem resvMirrored_of_no_wait {d : Dev} {p : ResvPend} {t : Nat} (htag : p.tag = some t) (hmirror : (d.tag t).mirror = none)
    (hvault : (d.tag t).vaultLeft = 0) : d.resvMirrored p = true := by
  simp [Dev.resvMirrored, htag, hmirror, hvault]

/-- R135: the one change that waits takes effect, and no other is left to wait. -/
theorem resvEffect_of_single {d : Dev} {v t : Nat} {p : ResvPend} (hnext : (d.vol v).resvNext = [p]) (htag : p.tag = some t)
    (hreply : p.reply = none) (hdone : d.resvMirrored p = true) {d1 : Dev}
    (hd1 : d1 = (d.updVol v (fun x => { x with resv := p.new, resvNext := [] })).resvNotices v (d.vol v).resv p.new p.why p.host) :
    d.resvEffect v = (d1.updTag t (fun x => { x with resv := false })).complete t ((d1.tag t).status.getD stSuccess) none := by
  have hvol : d.updVol v (fun x => { x with resv := p.new, resvNext := x.resvNext.drop 1 }) =
      d.updVol v (fun x => { x with resv := p.new, resvNext := [] }) := by
    have hdrop : (tget {} d.nvt.ns v).resvNext.drop 1 = [] := congrArg (List.drop 1) hnext
    simp only [Dev.updVol, tupd, hdrop]
  simp only [Dev.resvEffect, hnext, Dev.resvRun, hdone, if_pos, Dev.resvTakes, hvol, htag, hreply, hd1]

/-- Settles O23, command by command: each answers as the rules of reservations judge the last change that waits. -/
theorem reservationsChangeAfterTheirRecord : Obligations.ReservationsChangeAfterTheirRecord := by
  unfold Obligations.ReservationsChangeAfterTheirRecord
  intro t c s r
  refine ⟨?_, ?_, ?_, ?_, ?_, ?_⟩
  · intro cur new p hrun hnew hroom
    exact next_congr s (resvCommand_of_ok hrun (resvRegister_of_new_host cur new p hnew hroom))
  · intro ty cur pre hrun hlo hhi hkey hfree
    exact next_congr s (resvCommand_of_ok hrun (resvAcquire_of_free pre hkey hlo hhi hfree))
  · intro ty a cur pre hrun hkey
    exact next_congr s (resvCommand_of_error hrun (resvAcquire_of_other_key a ty pre hkey))
  · intro cur hrun hkey hholder
    exact next_congr s (resvCommand_of_ok hrun (resvRelease_of_holder hkey hholder))
  · intro hrun hfwd
    obtain ⟨w, hprod, hreport⟩ := resvReport_of_fwdIn hrun hfwd
    exact ⟨w, hprod, next_congr s hreport⟩
  · intro v p hnext htag hreply hmirror hvault d1
    exact next_congr s (resvEffect_of_single hnext htag hreply (resvMirrored_of_no_wait htag hmirror hvault) rfl)

end Sys2Proof.Machine.NvmeTarget
end
section
/-! How a read of blocks that were never written begins, and how the commands READ, VERIFY and COMPARE end. -/
namespace Sys2Proof.Machine.NvmeTarget
open Sys2Proof

/-! ### What posting a work item leaves as it was -/

/-- The target's tables and the Caldera of `e` are those of `d`. -/
def SameTarget (d e : Dev) : Prop := e.nvt = d.nvt ∧ e.cal = d.cal

theorem SameTarget.refl (d : Dev) : SameTarget d d := ⟨rfl, rfl⟩

theorem SameTarget.trans {d e f : Dev} (hde : SameTarget d e) (hef : SameTarget e f) : SameTarget d f :=
  ⟨hef.1.trans hde.1, hef.2.trans hde.2⟩

theorem sameTarget_setFld (d : Dev) (f : Fld) (v : Nat) : SameTarget d (d.setFld f v) := ⟨rfl, rfl⟩

theorem sameTarget_pmcSample (d : Dev) (b n : Nat) : SameTarget d (d.pmcSample b n) := by
  unfold Dev.pmcSample
  split
  · exact sameTarget_setFld d _ _
  · exact ⟨rfl, rfl⟩

theorem sameTarget_pmcOver (d : Dev) (b n rest : Nat) : SameTarget d (d.pmcOver b n rest) := by
  unfold Dev.pmcOver
  split
  · exact (sameTarget_setFld d _ _).trans (sameTarget_setFld _ _ _)
  · exact Dev.cond_induct (SameTarget d) _ _ _ ⟨rfl, rfl⟩ (fun e he => he.trans (sameTarget_pmcSample e b n))

theorem sameTarget_pmcAddOne (d : Dev) (b n v : Nat) : SameTarget d (d.pmcAddOne b n v) := by
  unfold Dev.pmcAddOne
  extract_lets t
  split
  · exact sameTarget_setFld d _ _
  · exact sameTarget_pmcOver d b n _

theorem sameTarget_pmcAdd (d : Dev) (b n v : Nat) : SameTarget d (d.pmcAdd b n v) := by
  unfold Dev.pmcAdd
  extract_lets t d1
  have hlow : SameTarget d d1 := sameTarget_setFld d _ _
  split
  · exact sameTarget_pmcAddOne d b n v
  split
  · exact sameTarget_setFld d _ _
  split
  · exact hlow.trans (sameTarget_setFld d1 _ _)
  · exact Dev.cond_induct (SameTarget d) _ _ _ hlow (fun e he => he.trans (sameTarget_pmcAddOne e b (n + 1) 1))

theorem sameTarget_count (d : Dev) (b ev v : Nat) : SameTarget d (d.count b ev v) :=
  Dev.each_induct (SameTarget d) _ _ d (SameTarget.refl d) (fun n _ e he => he.trans (sameTarget_pmcAdd e b n v))

theorem sameTarget_transmit (d : Dev) (q p : Nat) (o : Out) : SameTarget d (d.transmit q p o) := by
  unfold Dev.transmit
  extract_lets port prio r
  split
  · exact ⟨Dev.emit_nvt d o, Dev.emit_cal d o⟩
  split
  · exact SameTarget.refl d
  split
  · exact ⟨rfl, rfl⟩
  · exact ⟨rfl, rfl⟩

theorem sameTarget_notePace (d : Dev) (q p len : Nat) : SameTarget d (d.notePace q p len) := by
  unfold Dev.notePace
  extract_lets c
  split
  · exact SameTarget.refl d
  · exact ⟨rfl, rfl⟩

/-- The tags of `e` are those of `d` but for the two fields that a work item changes as it leaves its queue (R120, R127), and the pages
and directories of the Caldera are those of `d`. -/
def PostFrame (d e : Dev) : Prop :=
  (∀ t, ∃ out leave, e.tag t = { d.tag t with out := out, leaveAt := leave }) ∧ e.cal.own = d.cal.own ∧ e.cal.dirs = d.cal.dirs

theorem SameTarget.postFrame {d e : Dev} (h : SameTarget d e) : PostFrame d e := by
  obtain ⟨hnvt, hcal⟩ := h
  refine ⟨fun t => ⟨(d.tag t).out, (d.tag t).leaveAt, ?_⟩, congrArg CalSt.own hcal, congrArg CalSt.dirs hcal⟩
  rw [Dev.tag, hnvt]
  rfl

theorem PostFrame.trans {d e f : Dev} (hde : PostFrame d e) (hef : PostFrame e f) : PostFrame d f := by
  obtain ⟨htag, hown, hdirs⟩ := hde
  obtain ⟨htag', hown', hdirs'⟩ := hef
  refine ⟨fun t => ?_, hown'.trans hown, hdirs'.trans hdirs⟩
  obtain ⟨_, _, ht⟩ := htag t
  obtain ⟨out, leave, ht'⟩ := htag' t
  exact ⟨out, leave, by rw [ht', ht]⟩

theorem postFrame_updTag {d : Dev} {t : Nat} {f : Tag → Tag}
    (hf : ∃ out leave, f (d.tag t) = { d.tag t with out := out, leaveAt := leave }) : PostFrame d (d.updTag t f) := by
  refine ⟨fun k => ?_, rfl, rfl⟩
  by_cases hk : t = k
  · subst hk
    rwa [Dev.tag_updTag_self]
  · rw [Dev.tag_updTag_ne d t k f hk]
    exact ⟨_, _, rfl⟩

theorem postFrame_itemLeft (d : Dev) (w : WorkItem) : PostFrame d (d.itemLeft w) := by
  unfold Dev.itemLeft
  split
  · exact (postFrame_updTag ⟨_, _, rfl⟩).trans (sameTarget_count _ _ _ _).postFrame
  · split
    · exact postFrame_updTag ⟨_, _, rfl⟩
    · exact (SameTarget.refl d).postFrame
  · exact postFrame_updTag ⟨_, _, rfl⟩
  · exact (SameTarget.refl d).postFrame

theorem postFrame_sendItem (d : Dev) (q : Nat) (w : WorkItem) : PostFrame d (d.sendItem q w) := by
  unfold Dev.sendItem
  extract_lets c p n first last c1 c2 c3 c4 m d1 d2
  have hout : SameTarget d ((d1.emitReq q m).notePace q p w.bytes.length) :=
    (SameTarget.trans ⟨rfl, rfl⟩ (sameTarget_transmit d1 q _ _)).trans (sameTarget_notePace _ q p _)
  have hsent : PostFrame d d2 :=
    Dev.cond_induct (PostFrame d) _ _ _ (hout.postFrame.trans (postFrame_itemLeft _ w))
      (fun e he => he.trans (sameTarget_count e _ _ _).postFrame)
  split
  · exact hsent
  · exact hsent

theorem postFrame_pump (d : Dev) (q fuel : Nat) : PostFrame d (d.pump q fuel) := by
  induction fuel generalizing d with
  | zero => exact (SameTarget.refl d).postFrame
  | succ fuel ih =>
    unfold Dev.pump
    split
    next => exact (SameTarget.refl d).postFrame
    next w rest _ =>
      split
      · have hqueue : SameTarget d (d.updWork q (fun x => { x with sendQ := rest })) := ⟨rfl, rfl⟩
        have hsent := hqueue.postFrame.trans (postFrame_sendItem _ q w)
        exact hsent.trans (ih _)
      split
      · exact (show SameTarget d (d.arm (tmAck q 0)) from ⟨rfl, rfl⟩).postFrame
      · exact (SameTarget.refl d).postFrame

/-- R85, R120: what posting a work item changes beside the transport. -/
theorem postFrame_post (d : Dev) (q : Nat) (w : WorkItem) : PostFrame d (d.post q w) := by
  unfold Dev.post
  extract_lets _ d0
  have h0 : PostFrame d d0 := by
    unfold d0
    split
    · exact ⟨fun t => ⟨_, _, rfl⟩, rfl, rfl⟩
    · exact (SameTarget.refl d).postFrame
  split
  · have hqueue : SameTarget d0 (d0.updWork q (fun x => { x with sendQ := x.sendQ ++ [w] })) := ⟨rfl, rfl⟩
    exact (h0.trans hqueue.postFrame).trans (postFrame_pump _ q _)
  · exact h0.trans (SameTarget.postFrame ⟨rfl, rfl⟩)

/-! ### How a command ends (R150, R158, R370) -/

/-- `e` has posted the completion of tag t's command with status `st`, and has the Caldera's pages and directories of `d`. -/
structure Completed (d e : Dev) (t : Nat) (st : Status) : Prop where
  posted : (e.tag t).posted = true
  state : (e.tag t).state = .completing
  status : (e.tag t).status = some st
  own : e.cal.own = d.cal.own
  dirs : e.cal.dirs = d.cal.dirs

theorem Completed.trans_postFrame {d e f : Dev} {t : Nat} {st : Status} (h : Completed d e t st) (hframe : PostFrame e f) :
    Completed d f t st := by
  obtain ⟨htag, hown, hdirs⟩ := hframe
  obtain ⟨out, leave, ht⟩ := htag t
  exact ⟨by rw [ht]; exact h.posted, by rw [ht]; exact h.state, by rw [ht]; exact h.status, hown.trans h.own, hdirs.trans h.dirs⟩

theorem completed_complete (d : Dev) (t : Nat) (st : Status) (wait : Option (Nat × Word)) : Completed d (d.complete t st wait) t st := by
  unfold Dev.complete
  extract_lets x d1
  have hended : d1.tag t = { d.tag t with state := .completing, status := some st, posted := true } := Dev.tag_updTag_self d t _
  have h1 : Completed d d1 t st := ⟨by rw [hended], by rw [hended], by rw [hended], rfl, rfl⟩
  split
  · exact h1
  split
  · have hleave : PostFrame d1 (d1.updTag t (fun x => { x with leaveAt := true })) := postFrame_updTag ⟨_, _, rfl⟩
    exact (h1.trans_postFrame hleave).trans_postFrame (SameTarget.postFrame ⟨rfl, rfl⟩)
  split
  · exact h1.trans_postFrame (postFrame_post d1 _ _)
  · exact h1.trans_postFrame (postFrame_post d1 _ _)

/-- R370: the Error Information log is a controller's. -/
theorem cal_logFailed (d : Dev) (t : Nat) (l : List (Nat × RdGrain)) : (d.logFailed t l).cal = d.cal := by
  unfold Dev.logFailed
  split
  · split
    · rfl
    · rfl
  · rfl

theorem sameTarget_forgetReads (d : Dev) (t : Nat) : SameTarget d (d.forgetReads t) :=
  Dev.each_induct (SameTarget d) _ _ d (SameTarget.refl d) (fun _ _ _ he => he.trans ⟨rfl, rfl⟩)

theorem completed_readClose (d : Dev) (t : Nat) (l : List (Nat × RdGrain)) (st : Status) : Completed d (d.readClose t l st) t st := by
  have hlog : (d.logFailed t l).cal = d.cal := cal_logFailed d t l
  have h := (completed_complete (d.logFailed t l) t st none).trans_postFrame (sameTarget_forgetReads _ t).postFrame
  exact ⟨h.posted, h.state, h.status, h.own.trans (congrArg CalSt.own hlog), h.dirs.trans (congrArg CalSt.dirs hlog)⟩

/-! ### The end of a command whose read is over (R368 to R372, R684) -/

/-- The command `c` of tag t runs, its path has begun, nothing of its completion is posted, and every grain of its read is sent. -/
structure ReadOver (d : Dev) (t : Nat) (c : HostCmd) : Prop where
  cmd : (d.tag t).cmd = some c
  running : (d.tag t).state = .running
  begun : (d.tag t).begun = true
  unposted : (d.tag t).posted = false
  sent : ∀ e ∈ d.readsOf t, e.2.step = .sent

theorem worstRead_of_sent {l : List (Nat × RdGrain)} (hsent : ∀ e ∈ l, e.2.step = .sent) : worstRead l = none := by
  have hworst : worstAt l = none := by
    unfold worstAt
    induction l with
    | nil => rfl
    | cons e l ih =>
      have he : e.2.step = .sent := hsent e List.mem_cons_self
      simpa [he] using ih (fun x hx => hsent x (List.mem_cons_of_mem e hx))
  simp [worstRead, hworst]

theorem readEnd_of_not_begun {d : Dev} {t : Nat} (hbegun : (d.tag t).begun = false) : d.readEnd t = d := by
  unfold Dev.readEnd
  extract_lets x l
  split
  · rfl
  · exact if_pos (Or.inr (Or.inl hbegun))

/-- R368, R111, R684: which of the three ends a read that is over takes. -/
theorem ReadOver.readEnd_eq {d : Dev} {t : Nat} {c : HostCmd} (h : ReadOver d t c) : d.readEnd t =
    if c.opcode = opCompare then d.compareEnd t c (d.readsOf t) none
    else if c.opcode = opRead then d.readPosts t c (d.readsOf t) none
    else d.readClose t (d.readsOf t) stSuccess := by
  have hactive : (d.readsOf t).any (fun e => e.2.active) = false := by
    rw [List.any_eq_false]
    intro e he
    simp [RdGrain.active, h.sent e he]
  simp only [Dev.readEnd, h.cmd, h.running, h.begun, h.unposted, hactive, worstRead_of_sent h.sent, Option.getD_none]
  simp

/-- R368: the beat after the last grain of a Read is sent is marked. -/
theorem readPosts_of_not_ended {d : Dev} {t : Nat} {c : HostCmd} {l : List (Nat × RdGrain)} (st : Option Status)
    (hsent : ∀ e ∈ l, e.2.step = .sent) (hsome : l ≠ []) (hended : (d.tag t).ended = 0) :
    d.readPosts t c l st = d.updTag t (fun x => { x with ended := d.edges + 1 }) := by
  obtain ⟨e, he⟩ := List.exists_mem_of_ne_nil l hsome
  have hany : l.any (fun e => decide (e.2.step = .sent)) = true := List.any_eq_true.2 ⟨e, he, decide_eq_true (hsent e he)⟩
  simp [Dev.readPosts, hany, hended]

theorem readPosts_of_ended {d : Dev} {t : Nat} {c : HostCmd} {l : List (Nat × RdGrain)} (st : Option Status)
    (hended : (d.tag t).ended ≠ 0) (hlater : (d.tag t).ended ≠ d.edges + 1) (hout : d.dataQueued t c = false) :
    d.readPosts t c l st = d.readClose t l (st.getD stSuccess) := by
  simp [Dev.readPosts, hended, hlater, hout]

theorem compareEnd_of_not_ended {d : Dev} {t : Nat} {c : HostCmd} (l : List (Nat × RdGrain)) (st : Option Status)
    (hdata : (d.tag t).left ≤ (d.tag t).fetched) (hended : (d.tag t).ended = 0) :
    d.compareEnd t c l st = d.updTag t (fun x => { x with ended := d.edges + 1 }) := by
  simp [Dev.compareEnd, Nat.not_lt.2 hdata, hended]

/-- The bytes of a command's range. -/
theorem cmdRange_length (c : HostCmd) (v : Namespace) : (cmdRange c v).2 - (cmdRange c v).1 = c.nlb * v.blk := by
  simp only [cmdRange, Nat.add_mul, Nat.add_sub_cancel_left]

/-- R684: the comparison of a Compare. -/
theorem compareEnd_of_not_judged {d : Dev} {t : Nat} {c : HostCmd} (l : List (Nat × RdGrain))
    (hdata : (d.tag t).left ≤ (d.tag t).fetched) (hended : (d.tag t).ended ≠ 0) (hlater : (d.tag t).ended ≠ d.edges + 1)
    (hjudged : (d.tag t).judged = 0) :
    d.compareEnd t c l none = d.updTag t (fun x => { x with
      judged := d.edges + 1
      status := some (if readBack l (cmdRange c (d.vol (d.tag t).vol)).1 (c.nlb * (d.vol (d.tag t).vol).blk) =
        (c.data ++ (d.tag t).data).take (c.nlb * (d.vol (d.tag t).vol).blk) then stSuccess else stCompare) }) := by
  simp [Dev.compareEnd, Nat.not_lt.2 hdata, hended, hlater, hjudged, cmdRange_length]

theorem compareEnd_of_judged {d : Dev} {t : Nat} {c : HostCmd} (l : List (Nat × RdGrain)) (st : Option Status)
    (hdata : (d.tag t).left ≤ (d.tag t).fetched) (hended : (d.tag t).ended ≠ 0) (hlater : (d.tag t).ended ≠ d.edges + 1)
    (hjudged : (d.tag t).judged ≠ 0) (hafter : (d.tag t).judged ≠ d.edges + 1) :
    d.compareEnd t c l st = d.readClose t l ((d.tag t).status.getD stSuccess) := by
  simp [Dev.compareEnd, Nat.not_lt.2 hdata, hended, hlater, hjudged, hafter]

/-- R368, R684: a Read, or a Compare whose data is here, marks the beat in which its read is over. -/
theorem ReadOver.readEnd_marks {d : Dev} {t : Nat} {c : HostCmd} (h : ReadOver d t c) (hsome : d.readsOf t ≠ []) (hended : (d.tag t).ended = 0)
    (hop : c.opcode = opRead ∨ c.opcode = opCompare ∧ (d.tag t).left ≤ (d.tag t).fetched) :
    d.readEnd t = d.updTag t (fun x => { x with ended := d.edges + 1 }) := by
  rw [h.readEnd_eq]
  rcases hop with hread | ⟨hcompare, hdata⟩
  · have hne : c.opcode ≠ opCompare := by rw [hread]; decide
    rw [if_neg hne, if_pos hread, readPosts_of_not_ended none h.sent hsome hended]
  · rw [if_pos hcompare, compareEnd_of_not_ended _ none hdata hended]

/-- R111: nothing is transferred for a Verify: it ends as its read is over. -/
theorem ReadOver.readEnd_completes_verify {d : Dev} {t : Nat} {c : HostCmd} (h : ReadOver d t c) (hop : c.opcode = opVerify) :
    Completed d (d.readEnd t) t stSuccess := by
  have hcompare : c.opcode ≠ opCompare := by rw [hop]; decide
  have hread : c.opcode ≠ opRead := by rw [hop]; decide
  rw [h.readEnd_eq, if_neg hcompare, if_neg hread]
  exact completed_readClose d t _ stSuccess

/-- R368: a Read ends in a later beat, when its data has left. -/
theorem ReadOver.readEnd_completes_read {d : Dev} {t : Nat} {c : HostCmd} (h : ReadOver d t c) (hop : c.opcode = opRead)
    (hended : (d.tag t).ended ≠ 0) (hlater : (d.tag t).ended ≠ d.edges + 1) (hout : d.dataQueued t c = false) :
    Completed d (d.readEnd t) t stSuccess := by
  have hcompare : c.opcode ≠ opCompare := by rw [hop]; decide
  rw [h.readEnd_eq, if_neg hcompare, if_pos hop, readPosts_of_ended none hended hlater hout]
  exact completed_readClose d t _ stSuccess

/-- R684: a Compare that is judged ends in a later beat. -/
theorem ReadOver.readEnd_completes_compare {d : Dev} {t : Nat} {c : HostCmd} {st : Status} (h : ReadOver d t c) (hop : c.opcode = opCompare)
    (hdata : (d.tag t).left ≤ (d.tag t).fetched) (hended : (d.tag t).ended ≠ 0) (hlater : (d.tag t).ended ≠ d.edges + 1)
    (hjudged : (d.tag t).judged ≠ 0) (hafter : (d.tag t).judged ≠ d.edges + 1) (hst : (d.tag t).status = some st) :
    Completed d (d.readEnd t) t st := by
  rw [h.readEnd_eq, if_pos hop, compareEnd_of_judged _ none hdata hended hlater hjudged hafter, hst]
  exact completed_readClose d t _ st

/-! ### READ, VERIFY and COMPARE before and after their path begins -/

theorem read_of_runs {d : Dev} {t : Nat} {c : HostCmd} (hrun : d.runs t opRead = some c) : d.read t = d.readBegin t c := by
  simp only [Dev.read, hrun]

theorem read_of_begun {d : Dev} {t : Nat} {c : HostCmd} (hbegun : (d.tag t).begun = true) (hcmd : (d.tag t).cmd = some c)
    (hop : c.opcode = opRead) (hfwd : (d.tag t).fwdOut = false) : d.read t = d.readEnd t := by
  simp only [Dev.read, runs_eq_none_of_begun opRead hbegun, hcmd, hop, hfwd, and_self, if_pos]

theorem verifyCmd_of_runs {d : Dev} {t : Nat} {c : HostCmd} (hrun : d.runs t opVerify = some c) : d.verifyCmd t = d.readBegin t c := by
  simp only [Dev.verifyCmd, hrun]

/-- R684: a Compare without an SGL has nothing to fetch. -/
theorem compare_of_runs {d : Dev} {t : Nat} {c : HostCmd} (hrun : d.runs t opCompare = some c) (hsgl : c.sgl = .none)
    (hfwd : c.fwdIn = false) : d.compare t = d.readBegin t c := by
  simp [Dev.compare, hrun, hsgl, hfwd, sglBlocks]

theorem compare_of_begun {d : Dev} {t : Nat} {c : HostCmd} (hbegun : (d.tag t).begun = true) (hcmd : (d.tag t).cmd = some c)
    (hop : c.opcode = opCompare) (hfwd : (d.tag t).fwdOut = false) : d.compare t = d.readEnd t := by
  simp only [Dev.compare, runs_eq_none_of_begun opCompare hbegun, hcmd, hop, hfwd, and_self, if_pos]

/-! ### The read of a run of zeros (R362, R369) -/

/-- The runs over which a command's read goes. -/
def readRuns (d : Dev) (t : Nat) (c : HostCmd) : List Extent :=
  d.extents (d.tag t).vol ((cmdInput c (d.vol (d.tag t).vol)).1 / 4096)
    (((cmdInput c (d.vol (d.tag t).vol)).2 - (cmdInput c (d.vol (d.tag t).vol)).1) / 4096)

/-- R334: a read that needs a metadata page which is not resident waits for it. -/
theorem readBegin_of_needsPage {d : Dev} {t : Nat} {c : HostCmd} (hpage : (readRuns d t c).any (fun x => x.src.needsPage) = true) :
    d.readBegin t c = d :=
  if_pos hpage

theorem readBegin_of_single {d : Dev} {t : Nat} {c : HostCmd} {x : Extent} (hruns : readRuns d t c = [x])
    (hpage : x.src.needsPage = false) : d.readBegin t c =
      ((d.readExtent t (d.tag t).vol (cmdRange c (d.vol (d.tag t).vol)).1 (cmdRange c (d.vol (d.tag t).vol)).2 x).updTag t
        (fun x => { x with begun := true })).readEnd t := by
  unfold Dev.readBegin
  extract_lets v r w xs d1
  have hxs : xs = [x] := hruns
  have hread : d1 = d.readExtent t v r.1 r.2 x := by
    unfold d1
    rw [hxs]
    rfl
  have hresident : ¬ xs.any (fun x => x.src.needsPage) = true := by simp [hxs, hpage]
  rw [if_neg hresident, hread]

theorem toHost_of_no_sgl {d : Dev} {t : Nat} {c : HostCmd} (off : Nat) (bs : List Byte) (hcmd : (d.tag t).cmd = some c)
    (hsgl : c.sgl = .none) : d.toHost t off bs = d := by
  simp only [Dev.toHost, hcmd, hsgl, sglBlocks, blockAt]

theorem deliverRead_of_no_sgl {d : Dev} {t : Nat} {c : HostCmd} (off : Nat) (bs : List Byte) (hcmd : (d.tag t).cmd = some c)
    (hsgl : c.sgl = .none) (hfwd : c.fwdIn = false) : d.deliverRead t off bs = d := by
  simp only [Dev.deliverRead, hcmd, hfwd]
  exact toHost_of_no_sgl off bs hcmd hsgl

/-- A step of a read that leaves the target, the Caldera and the time as they are, and makes the reads in the path `reads`. -/
structure ReadStep (d e : Dev) (reads : List (Nat × RdGrain)) : Prop where
  target : SameTarget d e
  edges : e.edges = d.edges
  reads : e.rd.reads = reads

/-- R369: the found bytes of a grain, of a command that has no place for them and whose path begins in this step. -/
theorem rdSend_of_no_sgl {d : Dev} {r : Nat} {c : HostCmd} (grain : List Byte) (hcmd : (d.tag (d.rdOf r).tag).cmd = some c)
    (hsgl : c.sgl = .none) (hfwd : c.fwdIn = false) (hbegun : (d.tag (d.rdOf r).tag).begun = false) :
    ∃ data, ReadStep d (d.rdSend r grain) (tput {} d.rd.reads r { d.rdOf r with step := .sent, bytes := [], data := data }) := by
  unfold Dev.rdSend
  extract_lets x t bs
  split
  next h => exact absurd (h.symm.trans hcmd) (by simp)
  next c' h =>
    obtain rfl : c' = c := Option.some.inj (h.symm.trans hcmd)
    extract_lets d1 d2
    have h2 : ∃ data, ReadStep d d2 (tput {} d.rd.reads r { d.rdOf r with step := .sent, bytes := [], data := data }) := by
      unfold d2
      split
      · have hkept : ((d1.bump (Reg.SLI_RD_BYTES_BYTES x.slice) bs.length).tag x.tag).cmd = some c' := hcmd
        rw [deliverRead_of_no_sgl _ _ hkept hsgl hfwd]
        exact ⟨_, ⟨rfl, rfl⟩, rfl, rfl⟩
      · exact ⟨_, ⟨rfl, rfl⟩, rfl, rfl⟩
    obtain ⟨data, htarget, hedges, hreads⟩ := h2
    have hidle : ((d2.refreshRd x.slice).tag x.tag).begun = false := by
      have hnvt : (d2.refreshRd x.slice).nvt = d.nvt := htarget.1
      rw [Dev.tag, hnvt]
      exact hbegun
    rw [readEnd_of_not_begun hidle]
    exact ⟨data, htarget, hedges, hreads⟩

theorem tput_nil {α : Type} [DecidableEq α] {dv v : α} (k : Nat) (h : v ≠ dv) : tput dv [] k v = [(k, v)] := by
  simp [tput, h, tdel, tins]

theorem tput_singleton {α : Type} [DecidableEq α] {dv v : α} (k : Nat) (w : α) (h : v ≠ dv) : tput dv [(k, w)] k v = [(k, v)] := by
  simp [tput, h, tdel, tins]

/-- R362, R369: zeros are found at once: with no other read in the path their one grain is the only one there, and is sent. -/
theorem readExtent_of_zeros {d : Dev} {t a b first n : Nat} {c : HostCmd} (v : Nat) (hcmd : (d.tag t).cmd = some c)
    (hsgl : c.sgl = .none) (hfwd : c.fwdIn = false) (hbegun : (d.tag t).begun = false) (hnone : d.rd.reads = [])
    (hend : 0 < min b ((first + n) * 4096)) :
    ∃ (r : Nat) (x : RdGrain), ReadStep d (d.readExtent t v a b ⟨.zeros, first, n⟩) [(r, x)] ∧ x.tag = t ∧ x.step = .sent := by
  have hgrain (x : RdGrain) (hx : x.hi = min b ((first + n) * 4096)) : x ≠ {} := by
    rintro rfl
    exact absurd hx (Nat.ne_of_lt hend)
  unfold Dev.readExtent
  extract_lets lo hi s base
  simp only [Dev.addRd, hnone]
  generalize hd1 : Dev.bump _ _ _ = d1
  have hreads : d1.rd.reads = [(d.rd.next, { base with goff := first * 4096, gsize := n * 4096 })] := by
    subst hd1
    exact tput_nil _ (hgrain _ rfl)
  have hof : d1.rdOf d.rd.next = { base with goff := first * 4096, gsize := n * 4096 } := by
    rw [Dev.rdOf, hreads, tget, if_pos rfl]
  have htarget : SameTarget d d1 := by subst hd1; exact ⟨rfl, rfl⟩
  have htag : d1.tag (d1.rdOf d.rd.next).tag = d.tag t := by rw [hof, Dev.tag, htarget.1]; rfl
  obtain ⟨data, hsame, hedges, hsent⟩ := rdSend_of_no_sgl (d := d1) (r := d.rd.next) (List.replicate (n * 4096) 0)
    (by rw [htag]; exact hcmd) hsgl hfwd (by rw [htag]; exact hbegun)
  rw [hreads, hof, tput_singleton _ _ (hgrain _ rfl)] at hsent
  exact ⟨_, _, ⟨htarget.trans hsame, hedges.trans (by subst hd1; rfl), hsent⟩, rfl, rfl⟩

/-- R362, R369: the read of a run of zeros is over as soon as it has begun. -/
theorem readBegin_of_zeros {d : Dev} {t a n : Nat} {c : HostCmd} (hruns : readRuns d t c = [⟨.zeros, a, n⟩]) (hcmd : (d.tag t).cmd = some c)
    (hrunning : (d.tag t).state = .running) (hbegun : (d.tag t).begun = false) (hunposted : (d.tag t).posted = false) (hsgl : c.sgl = .none)
    (hfwd : c.fwdIn = false) (hend : (a + n) * 4096 = (cmdInput c (d.vol (d.tag t).vol)).2) (hlen : 0 < c.nlb) (hnone : d.rd.reads = []) :
    ∃ e : Dev, d.readBegin t c = e.readEnd t ∧ ReadOver e t c ∧ e.readsOf t ≠ [] ∧ e.tag t = { d.tag t with begun := true } ∧
      e.cal = d.cal ∧ e.edges = d.edges := by
  have hhi : 0 < min (cmdRange c (d.vol (d.tag t).vol)).2 ((a + n) * 4096) := by
    have hblk : 0 < (d.vol (d.tag t).vol).blk := by
      unfold Namespace.blk
      split
      · decide
      · decide
    have hrange : 0 < (cmdRange c (d.vol (d.tag t).vol)).2 := Nat.mul_pos (Nat.add_pos_right _ hlen) hblk
    rw [hend]
    simp only [cmdInput, widen]
    omega
  obtain ⟨r, x, ⟨⟨hnvt, hcal⟩, hedges, hreads⟩, htag, hstep⟩ :=
    readExtent_of_zeros (a := (cmdRange c (d.vol (d.tag t).vol)).1) (d.tag t).vol hcmd hsgl hfwd hbegun hnone hhi
  rw [readBegin_of_single hruns rfl]
  generalize d.readExtent _ _ _ _ _ = e at hnvt hcal hedges hreads
  have hmine : (e.updTag t (fun x => { x with begun := true })).tag t = { d.tag t with begun := true } := by
    rw [Dev.tag_updTag_self, Dev.tag, hnvt]
    rfl
  have hof : (e.updTag t (fun x => { x with begun := true })).readsOf t = [(r, x)] := by
    simp [Dev.readsOf, hreads, htag]
  refine ⟨_, rfl, ⟨?_, ?_, ?_, ?_, ?_⟩, ?_, hmine, hcal, hedges⟩
  · rw [hmine]; exact hcmd
  · rw [hmine]; exact hrunning
  · rw [hmine]
  · rw [hmine]; exact hunposted
  · rw [hof]
    simpa using hstep
  · rw [hof]
    exact List.cons_ne_nil _ _

/-- R362, R369, R684: a Read, or a Compare whose data is here, over a run of zeros has ended its reading at the beat in which it begins. -/
theorem readBegin_of_zeros_marks {d : Dev} {t a n op : Nat} {c : HostCmd} (hrun : d.runs t op = some c)
    (hruns : readRuns d t c = [⟨.zeros, a, n⟩]) (hunposted : (d.tag t).posted = false) (hsgl : c.sgl = .none) (hfwd : c.fwdIn = false)
    (hend : (a + n) * 4096 = (cmdInput c (d.vol (d.tag t).vol)).2) (hlen : 0 < c.nlb) (hnone : d.rd.reads = []) (hended : (d.tag t).ended = 0)
    (hop : op = opRead ∨ op = opCompare ∧ (d.tag t).left ≤ (d.tag t).fetched) :
    ((d.readBegin t c).tag t).begun = true ∧ ((d.readBegin t c).tag t).ended = d.edges + 1 ∧ ((d.readBegin t c).tag t).posted = false ∧
      (d.readBegin t c).cal = d.cal := by
  obtain ⟨hcmd, hrunning, -, hbegun, rfl⟩ := runs_eq_some_iff.1 hrun
  obtain ⟨e, hbegin, hover, hsome, htag, hcal, hedges⟩ :=
    readBegin_of_zeros hruns hcmd hrunning hbegun hunposted hsgl hfwd hend hlen hnone
  rw [hbegin, hover.readEnd_marks hsome (by rw [htag]; exact hended) (by rw [htag]; exact hop), Dev.tag_updTag_self]
  exact ⟨hover.begun, congrArg (· + 1) hedges, hover.unposted, hcal⟩

/-- R111: a Verify over a run of zeros completes in the step in which it begins. -/
theorem readBegin_of_zeros_completes_verify {d : Dev} {t a n : Nat} {c : HostCmd} (hrun : d.runs t opVerify = some c)
    (hruns : readRuns d t c = [⟨.zeros, a, n⟩]) (hunposted : (d.tag t).posted = false) (hsgl : c.sgl = .none) (hfwd : c.fwdIn = false)
    (hend : (a + n) * 4096 = (cmdInput c (d.vol (d.tag t).vol)).2) (hlen : 0 < c.nlb) (hnone : d.rd.reads = []) :
    Completed d (d.readBegin t c) t stSuccess := by
  obtain ⟨hcmd, hrunning, -, hbegun, hop⟩ := runs_eq_some_iff.1 hrun
  obtain ⟨e, hbegin, hover, -, -, hcal, -⟩ := readBegin_of_zeros hruns hcmd hrunning hbegun hunposted hsgl hfwd hend hlen hnone
  have h := hover.readEnd_completes_verify hop
  rw [hbegin]
  exact ⟨h.posted, h.state, h.status, h.own.trans (congrArg CalSt.own hcal), h.dirs.trans (congrArg CalSt.dirs hcal)⟩

/-- Settles O39: the read of a run of zeros is over when it begins, and from then on each command goes by the end of its own kind. -/
theorem readCommandsResolveAndEnd : Obligations.ReadCommandsResolveAndEnd := by
  unfold Obligations.ReadCommandsResolveAndEnd
  intro t c xs s hsgl hfwd hxs
  have hresolved : readRuns s.dev t c = xs := hxs.symm
  refine ⟨?_, ?_, ?_⟩
  · intro hpage
    have hwait : s.dev.readBegin t c = s.dev := readBegin_of_needsPage (by rw [hresolved]; exact hpage)
    refine ⟨fun hrun => ?_, fun hrun => ?_, fun hrun => ?_⟩
    · exact next_congr s ((read_of_runs hrun).trans hwait)
    · exact next_congr s ((verifyCmd_of_runs hrun).trans hwait)
    · exact next_congr s ((compare_of_runs hrun hsgl hfwd).trans hwait)
  · intro a n hzeros _ hend hlen hnone hunposted hended
    have hruns : readRuns s.dev t c = [⟨.zeros, a, n⟩] := hresolved.trans hzeros
    refine ⟨fun hrun => ?_, fun hrun => ?_, fun hrun hdata => ?_⟩
    · exact ⟨_, next_congr s (read_of_runs hrun),
        readBegin_of_zeros_marks hrun hruns hunposted hsgl hfwd hend hlen hnone hended (Or.inl rfl)⟩
    · have h := readBegin_of_zeros_completes_verify hrun hruns hunposted hsgl hfwd hend hlen hnone
      exact ⟨_, next_congr s (verifyCmd_of_runs hrun), h.posted, h.state, h.status, h.own, h.dirs⟩
    · exact ⟨_, next_congr s (compare_of_runs hrun hsgl hfwd),
        readBegin_of_zeros_marks hrun hruns hunposted hsgl hfwd hend hlen hnone hended (Or.inr ⟨rfl, hdata⟩)⟩
  · intro hcmd hrunning hout hbegun hunposted hsent hended hlater
    have hover : ReadOver s.dev t c := ⟨hcmd, hrunning, hbegun, hunposted, hsent⟩
    refine ⟨fun hop hleft => ?_, fun hop hdata hjudged => ?_, fun st hop hdata hjudged hafter hst => ?_⟩
    · have h := hover.readEnd_completes_read hop hended hlater hleft
      exact ⟨_, next_congr s (read_of_begun hbegun hcmd hop hout), h.posted, h.state, h.status⟩
    · have hjudge := hover.readEnd_eq.trans ((if_pos hop).trans (compareEnd_of_not_judged _ hdata hended hlater hjudged))
      refine ⟨_, next_congr s ((compare_of_begun hbegun hcmd hop hout).trans hjudge), ?_⟩
      rw [Dev.tag_updTag_self]
      exact ⟨rfl, hunposted, rfl⟩
    · have h := hover.readEnd_completes_compare hop hdata hended hlater hjudged hafter hst
      exact ⟨_, next_congr s (compare_of_begun hbegun hcmd hop hout), h.posted, h.state, h.status⟩

end Sys2Proof.Machine.NvmeTarget
end
section
/-! The commands that the firmware serves at once, the making of a controller, Abort and Keep Alive, access groups and forwarding, and the
commands that need no data of a host. -/
namespace Sys2Proof.Machine.NvmeTarget
open Sys2Proof

/-! ### Fabrics and admin commands (R103, R112, R113) -/

/-- A write of CC without shutdown bits leaves CSTS with RDY alone. -/
theorem propertySet_cc_of_no_shutdown {v : DWord} (d : Dev) (q cid : Nat) (hshn : v.toNat / 2 ^ 14 % 4 = 0) :
    d.propertySet q cid .cc v = (d.updCtrl (d.ctrlOf q) (fun c => { c with
      cc := BitVec.ofNat 32 v.toNat, csts := BitVec.ofNat 32 (v.toNat % 2) })).adminReply q cid 0 stSuccess := by
  simp only [Dev.propertySet, if_pos hshn, Nat.add_zero]

/-- R81, R117: taking an admin command frees an entry of its queue, and changes no controller and sends nothing. -/
theorem adminTaken_frame (d : Dev) (q : Nat) : (d.adminTaken q).nvt.ctrls = d.nvt.ctrls ∧ (d.adminTaken q).out = d.out :=
  Dev.cond_induct (fun e => e.nvt.ctrls = d.nvt.ctrls ∧ e.out = d.out) _ _ _ ⟨rfl, rfl⟩ (fun _ he => he)

/-- R102: an Asynchronous Event Request is held while fewer than eight are, and no event waits. -/
theorem asyncRequest_of_room {d : Dev} {q : Nat} (cid : Nat) (hnone : (d.ctrl (d.ctrlOf q)).events = [])
    (hroom : (d.ctrl (d.ctrlOf q)).aers.length < 8) : d.asyncRequest q cid =
      (d.updCtrl (d.ctrlOf q) (fun x => { x with aers := x.aers ++ [BitVec.ofNat 16 cid] })).adminTaken q := by
  simp only [Dev.asyncRequest, hnone, if_neg (Nat.not_le.2 hroom)]

theorem asyncRequest_of_full {d : Dev} {q : Nat} (cid : Nat) (hnone : (d.ctrl (d.ctrlOf q)).events = [])
    (hfull : 8 ≤ (d.ctrl (d.ctrlOf q)).aers.length) : d.asyncRequest q cid = d.adminReply q cid 0 stAerLimit := by
  simp only [Dev.asyncRequest, hnone, if_pos hfull]

/-- Settles O20: a command that the firmware answers at once is its reply by definition; CC and the Asynchronous Event Request have cases. -/
theorem hostCommandsOnTheStewardRun : Obligations.HostCommandsOnTheStewardRun := by
  unfold Obligations.HostCommandsOnTheStewardRun
  intro q cid s
  refine ⟨rfl, rfl, rfl, ?_, ?_, fun v => rfl, rfl, rfl, rfl, ?_, ?_⟩
  · intro v hshn
    exact next_congr s (propertySet_cc_of_no_shutdown s.dev q cid hshn)
  · intro m
    exact ⟨decide (Config.freeNat s.dev.free % 2 = 0), rfl⟩
  · intro hnone hroom
    refine ⟨_, next_congr s (asyncRequest_of_room cid hnone hroom), ?_⟩
    obtain ⟨hctrls, hout⟩ := adminTaken_frame
      (s.dev.updCtrl (s.dev.ctrlOf q) (fun x => { x with aers := x.aers ++ [BitVec.ofNat 16 cid] })) q
    refine ⟨?_, hout⟩
    rw [Dev.ctrl, hctrls, ← Dev.ctrl, Dev.ctrl_updCtrl_self]
  · intro hnone hfull
    exact next_congr s (asyncRequest_of_full cid hnone hfull)

/-! ### Connect, Identify and log pages (R102, R103, R112, R126) -/

/-- R103: a queue has 2 to 1,024 entries. -/
theorem connect_of_bad_size {sqsize : Nat} (d : Dev) (q cid qid sub host cntlid : Nat) (noFlow : Bool) (kato : Nat)
    (hsize : sqsize = 0 ∨ 1023 < sqsize) :
    d.connect q cid qid sqsize sub host cntlid noFlow kato = d.adminReply q cid 0 stBusy := by
  have hout : sqsize + 1 < 2 ∨ 1024 < sqsize + 1 := by omega
  exact if_pos hout

/-- R102, R547: a known host that its subsystem allows gets the first controller of this head where that is free. -/
theorem connect_of_first_free {d : Dev} {sqsize sub host h : Nat} (q cid cntlid : Nat) (noFlow : Bool) (kato : Nat) (hlo : 1 ≤ sqsize)
    (hhi : sqsize ≤ 1023) (hhost : host ≠ 0) (hsub : sub < 256) (hknown : d.hostIndex host = some (h, d)) (hallowed : d.hostAllowed sub h = true)
    (hfree : (d.ctrl d.cntlidBase).valid = false) :
    d.connect q cid 0 sqsize sub host cntlid noFlow kato =
      ((((d.updCtrl d.cntlidBase (fun _ => { valid := true, subsys := sub, host := h, adminQp := q, kato := kato, lastCmdBeat := d.beat })).updBind q
          (fun b => { b with cntlid := d.cntlidBase, qid := 0, bound := true, noFlow := noFlow, sqSize := sqsize + 1, sqhd := 0 })).updCtx q
          (fun x => { x with rqSlots := sqsize + 1, rqFree := min x.rqFree (sqsize + 1) })).adminReply q cid d.cntlidBase stSuccess) := by
  have hsize : ¬(sqsize + 1 < 2 ∨ 1024 < sqsize + 1) := by omega
  have hdisc : decide (sub = discSubsys) = false := decide_eq_false (Nat.ne_of_lt hsub)
  have hfirst : (List.range 2048).find? (fun i => !(d.ctrl (d.cntlidBase + i)).valid) = some 0 := by
    rw [List.range_succ_eq_map, List.find?_cons_of_pos (by simp [hfree])]
  simp only [Dev.connect, if_neg hsize, if_neg hhost, hknown, hdisc, hallowed, hfirst]
  rfl

theorem freeBlock_length (d : Dev) (n : Nat) : (d.freeBlock n).1.length = n := by
  rw [Dev.freeBlock, List.length_map, List.length_range]

theorem freeBlock_rest (d : Dev) (n : Nat) : (d.freeBlock n).2 = { d with free := d.free + n } := rfl

/-- R112: Identify of a controller: the fields that the manual gives lie over a block that it leaves open. -/
theorem nvmeIdentify_controller (d : Dev) (q cid nsid : Nat) (buf : KeyedSgl) : d.nvmeIdentify q cid 1 nsid buf =
    { d with free := d.free + 4096 }.adminData q cid buf
      (overlay (d.freeBlock 4096).1 (d.identifyCtrl (d.ctrlOf q) (d.freeBlock 4096).1)) := by
  simp only [Dev.nvmeIdentify, freeBlock_rest]

/-- Settles O21: Identify and the log pages are their replies by definition. -/
theorem connectIdentifyAndLogs : Obligations.ConnectIdentifyAndLogs := by
  unfold Obligations.ConnectIdentifyAndLogs
  intro q cid s
  refine ⟨?_, ?_, ?_, rfl⟩
  · intro qid sqsize sub host cntlid kato nf hsize
    exact next_congr s (connect_of_bad_size s.dev q cid qid sub host cntlid nf kato hsize)
  · intro sqsize sub host h cntlid kato nf hlo hhi hhost hsub hknown hallowed hfree
    exact next_congr s (connect_of_first_free q cid cntlid nf kato hlo hhi hhost hsub hknown hallowed hfree)
  · intro buf
    refine ⟨rfl, rfl, rfl, rfl, fun nsid => ?_, ?_⟩
    · exact ⟨_, freeBlock_length s.dev 4096, next_congr s (nvmeIdentify_controller s.dev q cid nsid buf)⟩
    · exact ⟨_, _, freeBlock_length s.dev (16 + authHashLen (s.dev.bind q).authHash + authGroupLen (s.dev.bind q).authGroup), rfl⟩

/-! ### Abort and Keep Alive (R113, R122) -/

theorem takeFirst_of_none {p : HostCmd → Bool} {l : List HostCmd} (h : ∀ c ∈ l, p c = false) : takeFirst p l = none := by
  induction l with
  | nil => rfl
  | cons c l ih => simp [takeFirst, h c List.mem_cons_self, ih (fun x hx => h x (List.mem_cons_of_mem c hx))]

theorem takeFirst_of_first {p : HostCmd → Bool} {before : List HostCmd} (after : List HostCmd) {c : HostCmd} (h : ∀ x ∈ before, p x = false)
    (hc : p c = true) : takeFirst p (before ++ c :: after) = some (c, before ++ after) := by
  induction before with
  | nil => simp [takeFirst, hc]
  | cons b before ih => simp [takeFirst, h b List.mem_cons_self, ih (fun x hx => h x (List.mem_cons_of_mem b hx))]

/-- R122: the command that an Abort names: it came on that queue itself, and not from the peer. -/
def aborts (vq vc : Nat) (c : HostCmd) : Bool := decide (c.qp = vq) && decide (c.cid = BitVec.ofNat 16 vc) && !c.fwdIn

theorem abort_of_not_waiting {d : Dev} {vq vc : Nat} (q cid : Nat) (h : ∀ c ∈ (d.slice (home vq)).waiting, aborts vq vc c = false) :
    d.abort q cid vq vc = d.adminReply q cid 1 stSuccess := by
  have hnone := takeFirst_of_none h
  unfold aborts at hnone
  simp only [Dev.abort, hnone]

/-- What is left when the waiting command `c` is taken out of slice s: the commands `rest`, and no page that it held (R150). -/
def withoutWaiting (d : Dev) (s : Nat) (c : HostCmd) (rest : List HostCmd) : Dev :=
  let d1 := (d.updSlice s (fun x => { x with waiting := rest })).setFld (Reg.SLI_ADM_STS_WAITING s) (min rest.length 65535)
  { d1 with cal := { d1.cal with runs := d1.cal.runs.filter (fun r => !(c.pages.contains r.first)) } }

theorem withoutWaiting_spec (d : Dev) (s : Nat) (c : HostCmd) (rest : List HostCmd) :
    ((withoutWaiting d s c rest).slice s).waiting = rest ∧ (withoutWaiting d s c rest).fld (Reg.SLI_ADM_STS_WAITING s) = min rest.length 65535 ∧
      ∀ r ∈ (withoutWaiting d s c rest).cal.runs, r.first ∉ c.pages := by
  refine ⟨?_, ?_, ?_⟩
  · exact congrArg Slice.waiting (Dev.slice_updSlice_self d s (fun x => { x with waiting := rest }))
  · have hfits : min rest.length 65535 % 2 ^ (Reg.SLI_ADM_STS_WAITING s).w = min rest.length 65535 := Nat.mod_eq_of_lt (by
      show min rest.length 65535 < 2 ^ 16
      omega)
    exact (Dev.fld_setFld_self _ _ _).trans hfits
  · intro r hr
    obtain ⟨-, hkept⟩ := List.mem_filter.1 hr
    simpa using hkept

theorem abort_of_waiting {d e : Dev} {vq vc : Nat} {before after : List HostCmd} {c : HostCmd} (q cid : Nat)
    (hwait : (d.slice (home vq)).waiting = before ++ c :: after) (hbefore : ∀ x ∈ before, aborts vq vc x = false) (hc : aborts vq vc c = true)
    (he : withoutWaiting d (home vq) c (before ++ after) = e) :
    d.abort q cid vq vc = (((e.freeSlot vq).post vq ⟨.send, cqeBytes 0 (e.sqhd vq) c.cid stAborted, .steward, none⟩).raise 324 vq vc 0).adminReply
      q cid 0 stSuccess := by
  have hfirst := takeFirst_of_first after hbefore hc
  rw [← hwait] at hfirst
  unfold aborts at hfirst
  simp only [Dev.abort, hfirst, ← he, withoutWaiting]

theorem keepAliveExpire_of_silent {d : Dev} {c : Nat} (hvalid : (d.ctrl c).valid = true) (hkato : (d.ctrl c).kato ≠ 0)
    (hover : 8000 * (d.ctrl c).kato ≤ d.since (d.ctrl c).lastCmdBeat) :
    d.keepAliveExpire c = (d.raise 325 c 0 0).hostDisconnect (d.ctrl c).adminQp :=
  if_pos ⟨hvalid, hkato, hover⟩

theorem keepAliveExpire_of_heard {d : Dev} {c : Nat} (hheard : d.since (d.ctrl c).lastCmdBeat < 8000 * (d.ctrl c).kato) :
    d.keepAliveExpire c = d :=
  if_neg (fun ⟨_, _, hsilent⟩ => Nat.not_le.2 hheard hsilent)

/-- Settles O22: an Abort takes the first waiting command that it names, and the keep-alive has its two cases. -/
theorem abortsAndKeepAlive : Obligations.AbortsAndKeepAlive := by
  unfold Obligations.AbortsAndKeepAlive
  intro q cid s waits
  refine ⟨?_, ?_, ?_, ?_⟩
  · intro vq vc hnone
    exact next_congr s (abort_of_not_waiting q cid hnone)
  · intro vq vc before after c hwait hbefore hc
    exact ⟨_, next_congr s (abort_of_waiting q cid hwait hbefore hc rfl), _, rfl, withoutWaiting_spec s.dev (home vq) c (before ++ after)⟩
  · intro c hvalid hkato hover
    exact next_congr s (keepAliveExpire_of_silent hvalid hkato hover)
  · intro c hheard
    exact next_congr s (keepAliveExpire_of_heard hheard)

/-! ### Access groups and forwarding (R124 to R130) -/

theorem anaCommand_of_allowed {d : Dev} {grp st : Nat} (hlo : 1 ≤ grp) (hhi : grp ≤ 64)
    (hallowed : anaAllowed (d.fld (Reg.NVT_ANA (grp - 1))) st = true) :
    d.anaCommand grp st = { d with edge := d.edge ++ [.ana (grp - 1) st] } :=
  if_pos ⟨hlo, hhi, hallowed⟩

theorem anaCommand_of_not_allowed {d : Dev} {grp st : Nat} (hnot : anaAllowed (d.fld (Reg.NVT_ANA (grp - 1))) st = false) :
    d.anaCommand grp st = d :=
  if_neg (fun ⟨_, _, hallowed⟩ => Bool.false_ne_true (hnot.symm.trans hallowed))

theorem anaDrained_of_left {d : Dev} {grp : Nat} (hlo : 1 ≤ grp) (hhi : grp ≤ 64) (hchange : d.fld (Reg.NVT_ANA (grp - 1)) = 15)
    (hown : d.fld (Reg.NVT_ANA_OWN (grp - 1)) = 0) (hrole : d.fov.handRole ≠ 2) (hidle : d.grpRunning (grp - 1) = false) :
    d.anaDrained grp = { d with edge := d.edge ++ [.ana (grp - 1) 2] } :=
  if_pos ⟨hlo, hhi, hchange, hown, hrole, hidle⟩

/-- R127, R150: a forwarded command for which no own pages are taken joins the commands that wait. -/
theorem fwdCmd_of_no_pages {d : Dev} {c : HostCmd} (m rtag sl : Nat) (hno : c.opcode ≠ opWrite ∨ (d.vol c.nsid).valid = false) :
    d.fwdCmd m rtag sl c = d.enqueueCmd sl
      { c with qp := m, fwdIn := true, fwdTag := rtag, pages := [], dlen := if c.opcode = opWrite then 0 else c.dlen } :=
  if_neg (fun ⟨hwrite, hvalid⟩ => hno.elim (fun hne => hne hwrite) (fun hgone => Bool.false_ne_true (hgone.symm.trans hvalid)))

theorem fwdData_of_read {d : Dev} {t : Nat} {c : HostCmd} (off : Nat) (bs : List Byte) (hrun : (d.tag t).state = .running)
    (hout : (d.tag t).fwdOut = true) (hcmd : (d.tag t).cmd = some c) (hop : c.opcode = opRead) : d.fwdData t off bs = d.toHost t off bs := by
  simp only [Dev.fwdData, hrun, hout, hcmd, hop, true_or, decide_true, and_self, if_pos]

theorem fwdCpl_of_forwarded {d : Dev} {t : Nat} (sct sc : Nat) (hrun : (d.tag t).state = .running) (hout : (d.tag t).fwdOut = true) :
    d.fwdCpl t sct sc = (d.complete t ⟨sct, sc⟩ none).cond (decide ((⟨sct, sc⟩ : Status) = stAnaTransition)) (fun e =>
      (e.bumpSat Reg.NVT_FWD_FAIL_COUNT 1).raise 322 t (d.tag t).vol (statusCode ⟨sct, sc⟩)) :=
  if_pos ⟨hrun, hout⟩

theorem forwardFail_of_forwarded {d : Dev} {t : Nat} (hrun : (d.tag t).state = .running) (hout : (d.tag t).fwdOut = true) :
    d.forwardFail t = ((d.complete t stPathInternal none).bumpSat Reg.NVT_FWD_FAIL_COUNT 1).raise 322 t (d.tag t).vol (statusCode stPathInternal) :=
  if_pos ⟨hrun, hout⟩

/-- Settles O24, command by command. -/
theorem groupsAndForwarding : Obligations.GroupsAndForwarding := by
  unfold Obligations.GroupsAndForwarding
  intro s
  refine ⟨?_, ?_, ?_, ?_, ?_, ?_⟩
  · intro grp st hlo hhi hallowed
    exact next_congr s (anaCommand_of_allowed hlo hhi hallowed)
  · intro grp st hnot
    exact next_congr s (anaCommand_of_not_allowed hnot)
  · intro grp hlo hhi hchange hown hrole hidle
    exact next_congr s (anaDrained_of_left hlo hhi hchange hown hrole hidle)
  · intro m rtag sl c hno
    exact next_congr s (fwdCmd_of_no_pages m rtag sl hno)
  · intro t off bs c hrun hout hcmd hop
    exact next_congr s (fwdData_of_read off bs hrun hout hcmd hop)
  · intro t sct sc hrun hout
    refine ⟨fun hother => ?_, ?_, fun hlost => ?_⟩
    · exact next_congr s ((fwdCpl_of_forwarded sct sc hrun hout).trans (by rw [decide_eq_false hother, Dev.cond_false]))
    · exact next_congr s (fwdCpl_of_forwarded stAnaTransition.sct stAnaTransition.sc hrun hout)
    · exact next_congr s ((congrArg (fun b => s.dev.cond b (fun d => d.forwardFail t)) hlost).trans (forwardFail_of_forwarded hrun hout))

/-! ### Flush, Dataset Management and Copy (R110, R137, R138, R168) -/

theorem flush_of_runs {d : Dev} {t : Nat} {c : HostCmd} (hrun : d.runs t opFlush = some c) : d.flush t = d.complete t stSuccess none :=
  if_pos (Option.isSome_iff_exists.2 ⟨c, hrun⟩)

theorem datasetManagement_of_fetchDue {d : Dev} {t : Nat} {c : HostCmd} (hrun : d.runs t opDsm = some c) (hdue : d.fetchDue t c = true) :
    d.datasetManagement t = d.startFetch t c := by
  simp only [Dev.datasetManagement, hrun, hdue, if_pos]

/-- The bytes of the whole 4 KiB units that lie in each range of a Dataset Management (R110). -/
def dsmSpans (c : HostCmd) (v : Namespace) (bs : List Byte) : List (Nat × Nat) :=
  (dsmRanges (c.dlen / 16) bs).map (fun r => innerRange (r.slba * v.blk) ((r.slba + r.nlb) * v.blk))

section
variable {d : Dev} {t : Nat} {c : HostCmd} {bs : List Byte} (hrun : d.runs t opDsm = some c) (hdue : d.fetchDue t c = false)
  (hdesc : d.descriptors t c = some bs)
include hrun hdue hdesc

theorem datasetManagement_of_out_of_range (hout : inVolume { c with ranges := dsmRanges (c.dlen / 16) bs } (d.vol (d.tag t).vol) = false) :
    d.datasetManagement t = (d.beginTag t).complete t stRange none := by
  simp [Dev.datasetManagement, hrun, hdue, hdesc, hout]

theorem datasetManagement_of_no_deallocate (hin : inVolume { c with ranges := dsmRanges (c.dlen / 16) bs } (d.vol (d.tag t).vol) = true)
    (had : c.ad = false) : d.datasetManagement t = (d.beginTag t).complete t stSuccess none := by
  rw [had] at hin
  simp only [Dev.datasetManagement, hrun, hdue, hdesc, hin, had, Bool.not_true, Bool.not_false, Bool.false_eq_true, if_true, if_false]

theorem datasetManagement_of_deallocate (hin : inVolume { c with ranges := dsmRanges (c.dlen / 16) bs } (d.vol (d.tag t).vol) = true)
    (had : c.ad = true)
    (hpages : (dsmSpans c (d.vol (d.tag t).vol) bs).any (fun i => d.needsPages t (d.tag t).vol (i.1 / 4096) (i.2 / 4096)) = false) :
    d.datasetManagement t = ((d.beginTag t).postEdits t ((dsmSpans c (d.vol (d.tag t).vol) bs).flatMap (fun i =>
      ((d.grainsIn t (d.tag t).vol (i.1 / 4096) (i.2 / 4096)).1).map (fun e => (e.1, 0))))).tryComplete t := by
  rw [had] at hin
  unfold dsmSpans at hpages ⊢
  simp only [Dev.datasetManagement, hrun, hdue, hdesc, hin, had, hpages, Bool.not_true, Bool.false_eq_true, if_false]

end

theorem copy_of_fetchDue {d : Dev} {t : Nat} {c : HostCmd} (hrun : d.runs t opCopy = some c) (hdue : d.fetchDue t c = true) :
    d.copy t = d.startFetch t c := by
  simp only [Dev.copy, hrun, hdue, if_pos]

/-- R138: a Copy whose one source range is whole grains moves no data: it takes no page and queues no group. -/
theorem copyRun_of_whole {d : Dev} {t v src n : Nat} {whole : List MapEdit} (dst : Nat) (hwhole : d.grainsIn t v src (src + n) = (whole, [])) :
    d.copyRun t v dst [(src, n)] = (((d.beginTag t).updTag t (fun x => { x with pages := [] })).postEdits t
      (whole.map (fun e => (keyOf (dst + (keyStart e.1 - src)) (3 - e.1 % 4), e.2)))).tryComplete t := by
  have hplan : d.copyPlan t v dst [(src, n)] = (whole.map (fun e => (keyOf (dst + (keyStart e.1 - src)) (3 - e.1 % 4), e.2)), []) := by
    simp only [Dev.copyPlan, hwhole, List.map_nil, List.append_nil]
  unfold Dev.copyRun
  rw [hplan]
  rfl

section
variable {d : Dev} {t : Nat} {c : HostCmd} {bs : List Byte} (hrun : d.runs t opCopy = some c) (hdue : d.fetchDue t c = false)
  (hdesc : d.descriptors t c = some bs)
include hrun hdue hdesc

theorem copy_of_out_of_bounds (hbad : copyOk c (d.vol (d.tag t).vol) (copyRanges (c.dlen / 32) bs) = false) :
    d.copy t = (d.beginTag t).complete t stField none := by
  simp [Dev.copy, hrun, hdue, hdesc, hbad]

theorem copy_of_out_of_range (hok : copyOk c (d.vol (d.tag t).vol) (copyRanges (c.dlen / 32) bs) = true)
    (hout : inVolume { c with ranges := copyRanges (c.dlen / 32) bs } (d.vol (d.tag t).vol) = false) :
    d.copy t = (d.beginTag t).complete t stRange none := by
  simp [Dev.copy, hrun, hdue, hdesc, hok, hout]

theorem copy_of_single {r : LbaRange} (hok : copyOk c (d.vol (d.tag t).vol) (copyRanges (c.dlen / 32) bs) = true)
    (hone : copyRanges (c.dlen / 32) bs = [r]) (hin : inVolume { c with ranges := [r] } (d.vol (d.tag t).vol) = true)
    (hpages : d.needsPages t (d.tag t).vol (r.slba * (d.vol (d.tag t).vol).blk / 4096)
      (r.slba * (d.vol (d.tag t).vol).blk / 4096 + r.nlb * (d.vol (d.tag t).vol).blk / 4096) = false) :
    d.copy t = d.copyRun t (d.tag t).vol (c.slba * (d.vol (d.tag t).vol).blk / 4096)
      [(r.slba * (d.vol (d.tag t).vol).blk / 4096, r.nlb * (d.vol (d.tag t).vol).blk / 4096)] := by
  rw [hone] at hok
  simp [Dev.copy, hrun, hdue, hdesc, hone, hok, hin, hpages]

end

/-- Settles O25, command by command: each is judged by its descriptors, once they are here. -/
theorem commandsWithoutHostDataEnd : Obligations.CommandsWithoutHostDataEnd := by
  unfold Obligations.CommandsWithoutHostDataEnd
  intro t c bs s v
  refine ⟨?_, ?_, ?_, ?_, ?_⟩
  · intro hrun
    exact next_congr s (flush_of_runs hrun)
  · intro hrun hdue
    exact next_congr s (datasetManagement_of_fetchDue hrun hdue)
  · intro hrun hdue hdesc ranges spans
    refine ⟨fun hout => ?_, fun hin had => ?_, fun hin had hpages => ?_⟩
    · exact next_congr s (datasetManagement_of_out_of_range hrun hdue hdesc hout)
    · exact next_congr s (datasetManagement_of_no_deallocate hrun hdue hdesc hin had)
    · have hresident : spans.any (fun i => s.dev.needsPages t (s.dev.tag t).vol (i.1 / 4096) (i.2 / 4096)) = false :=
        List.any_eq_false.2 (fun i hi => Bool.eq_false_iff.1 (hpages i hi))
      exact next_congr s (datasetManagement_of_deallocate hrun hdue hdesc hin had hresident)
  · intro hrun hdue
    exact next_congr s (copy_of_fetchDue hrun hdue)
  · intro hrun hdue hdesc
    refine ⟨fun hbad => ?_, fun hok hout => ?_, fun r whole hok hone hin hpages hwhole => ?_⟩
    · exact next_congr s (copy_of_out_of_bounds hrun hdue hdesc hbad)
    · exact next_congr s (copy_of_out_of_range hrun hdue hdesc hok hout)
    · exact next_congr s ((copy_of_single hrun hdue hdesc hok hone hin hpages).trans (copyRun_of_whole _ hwhole))

end Sys2Proof.Machine.NvmeTarget
end

section
/-! The statements of the family `09_travertine`: the ends of a reconstruction, an erasure unit that fails, rebuilds and reclaims; and the map of
a retired drive when it is released. -/
namespace Sys2Proof.Machine.Travertine
open Sys2Proof BeatAndEpoch NvmeTarget

/-! ### The rounds of a reconstruction (R290, R291, R377, R378) -/

/-- R290: the round that a grain's reconstruction makes of the strips it has. -/
def roundOf (d : Dev) (x : RdGrain) (y : SegDesc) : Round :=
  reconRound d.slotKey x.seg y.k y.m x.unit (512 * unitsOf x.slen)
    (x.strip, fun bs => match x.header bs with
      | some h => recordPasses d.slotKey h bs
      | none => false) x.e ((List.range (y.k + y.m)).map x.col)

/-- R291, R377, R378: what the end of a round makes of the grain. -/
def roundEnd (d : Dev) (r : Nat) (y : SegDesc) : Round → Dev
  | .ok strips => d.reconOk r (d.rdOf r).e strips
  | .unrecoverable =>
    let d1 := (d.bumpSat (Reg.SLI_ECU_UNRECOV_COUNT (d.rdOf r).slice) 1).raise (sliceSrc (d.rdOf r).slice 19) (d.rdOf r).seg (stripMask (d.rdOf r).e)
      (d.rdOf r).off
    if (d.rdOf r).driveBusy then d1.updRd r (fun x => { x with step := .drive }) else d1.rdFail r stUnrecovered
  | .again e1 =>
    ((d.updRd r (fun x => { x with e := e1, rounds := x.rounds + 1, solve := .reading })).bumpSat (Reg.SLI_ECU_ROUNDS_COUNT (d.rdOf r).slice) 1).reconNext r y
      reconFuel

theorem reconstructionRound_of_solved {d : Dev} {r : Nat} {y : SegDesc} (hstep : (d.rdOf r).step = .recon)
    (hsolve : (d.rdOf r).solve = .solved) (hseg : d.segDesc (d.rdOf r).seg = some y) :
    d.reconstructionRound (d.rdOf r).slice r = roundEnd d r y (roundOf d (d.rdOf r) y) := by
  have hdue : ¬((d.rdOf r).slice ≠ (d.rdOf r).slice ∨ (d.rdOf r).step ≠ .recon ∨ (d.rdOf r).solve ≠ .solved) := by
    simp [hstep, hsolve]
  unfold Dev.reconstructionRound
  rw [if_neg hdue, hseg]
  rfl

theorem reconstructionRound_of_not_due {d : Dev} {sl r : Nat}
    (h : (d.rdOf r).slice ≠ sl ∨ (d.rdOf r).step ≠ .recon ∨ (d.rdOf r).solve ≠ .solved) : d.reconstructionRound sl r = d :=
  if_pos h

/-! ### An erasure unit fails (R301) -/

/-- R301: the slice's erasure unit is out of service: its jobs are dropped, two restarts are counted, and source 18 tells of it. -/
def ecuMarked (d : Dev) (sl : Nat) : Dev :=
  (((d.setFld (Reg.SLI_ECU_STS_FAULT sl) 1).bumpSat (Reg.SLI_ECU_RETRY_COUNT sl) 2).updSlice sl (fun x => { x with
    jobs := x.jobs.filter (fun j => decide (j.eng ≠ .ecu)) })).raise (sliceSrc sl 18) 0 0 0

/-- R301: what the unit worked on is asked again: parities and checks, and the strips of its rebuilds. -/
def ecuAskedAgain (d : Dev) (sl : Nat) : Dev :=
  let again := d.drv.rebSolve.filter (fun e => decide (e.1 % 8 = sl))
  { d with
    lay := { d.lay with
      segs := d.lay.segs.map (fun (e : Nat × LaySeg) => if e.2.slice = sl then (e.1, { e.2 with ecu := e.2.ecu.restart }) else e)
      checks := d.lay.checks.filter (fun c => c.2 || decide (c.1 % 8 ≠ sl)) }
    drv := { d.drv with
      rebSolve := d.drv.rebSolve.filter (fun e => decide (e.1 % 8 ≠ sl))
      rebuilds := d.drv.rebuilds ++ again.flatMap (fun (e : Nat × List (Nat × List Byte)) => e.2.map (fun (w : Nat × List Byte) => (e.1, w.1))) } }

theorem erasureUnitFault_of_no_reads {d : Dev} (sl : Nat) (h : d.rd.reads = []) :
    d.erasureUnitFault sl = ecuAskedAgain (ecuMarked d sl) sl := by
  have hreads : (ecuAskedAgain (ecuMarked d sl) sl).rd.reads = [] := h
  show (ecuAskedAgain (ecuMarked d sl) sl).each (((ecuAskedAgain (ecuMarked d sl) sl).rd.reads.filter _).map (·.1)) _ = _
  rw [hreads]
  rfl

theorem flag_ecuMarked (d : Dev) (sl : Nat) : (ecuMarked d sl).flag (Reg.SLI_ECU_STS_FAULT sl) = true := by
  have hne : (Reg.SLI_ECU_RETRY_COUNT sl).key ≠ (Reg.SLI_ECU_STS_FAULT sl).key := by
    simp only [Fld.key, Reg.SLI_ECU_RETRY_COUNT, Reg.SLI_ECU_STS_FAULT]
    omega
  have hset : ((d.setFld (Reg.SLI_ECU_STS_FAULT sl) 1).bumpSat (Reg.SLI_ECU_RETRY_COUNT sl) 2).fld (Reg.SLI_ECU_STS_FAULT sl) = 1 := by
    rw [Dev.fld_bumpSat_ne _ _ _ _ hne, Dev.fld_setFld_self]
    rfl
  exact decide_eq_true hset

theorem jobs_ecuMarked {d : Dev} {sl : Nat} {j : Job} (h : j ∈ ((ecuMarked d sl).slice sl).jobs) : j.eng ≠ .ecu := by
  have hj : j ∈ (((d.setFld (Reg.SLI_ECU_STS_FAULT sl) 1).bumpSat (Reg.SLI_ECU_RETRY_COUNT sl) 2).slice sl).jobs.filter
      (fun j => decide (j.eng ≠ .ecu)) := by
    rw [ecuMarked, Dev.slice, Dev.raise_slices, ← Dev.slice, Dev.slice_updSlice_self] at h
    exact h
  exact of_decide_eq_true (List.mem_filter.1 hj).2

/-- An erasure unit that fails without a reconstruction touches registers, jobs, events, the layout and the rebuild list, and nothing else. -/
theorem ecuAskedAgain_ecuMarked_frame {d e : Dev} {sl : Nat} (h : e = ecuAskedAgain (ecuMarked d sl) sl) :
    e = { d with fields := e.fields, slices := e.slices, raised := e.raised, lay := e.lay, drv := e.drv } := by
  rw [h]
  simp only [ecuAskedAgain, ecuMarked, Dev.raise, Dev.updSlice, Dev.bumpSat, Dev.setFld]

theorem flag_ecuAskedAgain (d : Dev) (sl : Nat) (f : Fld) : (ecuAskedAgain d sl).flag f = d.flag f := rfl

theorem slice_ecuAskedAgain (d : Dev) (sl i : Nat) : (ecuAskedAgain d sl).slice i = d.slice i := rfl

theorem restart_ne (x : EcuStep) : x.restart ≠ .parity ∧ x.restart ≠ .check := by
  cases x <;> decide

theorem ecu_of_ecuAskedAgain {d : Dev} {sl : Nat} {e : Nat × LaySeg} (h : e ∈ (ecuAskedAgain d sl).lay.segs) (hsl : e.2.slice = sl) :
    e.2.ecu ≠ .parity ∧ e.2.ecu ≠ .check := by
  obtain ⟨e0, -, rfl⟩ := List.mem_map.1 h
  split at hsl
  next hin => rw [if_pos hin]; exact restart_ne e0.2.ecu
  next hout => exact absurd hsl hout

theorem rebSolve_of_ecuAskedAgain {d : Dev} {sl : Nat} {e : Nat × List (Nat × List Byte)} (h : e ∈ (ecuAskedAgain d sl).drv.rebSolve) :
    e.1 % 8 ≠ sl :=
  of_decide_eq_true (List.mem_filter.1 h).2

/-! ### Rebuilds (R300, R408, R409) -/

theorem rebuildStrip_of_held {d : Dev} {seg st : Nat} {t : List (Nat × Nat)} (cols : List StripRead) (hlist : d.drv.rebuilds = (seg, st) :: t)
    (hheld : d.flag Reg.DRV_REBUILD_EN = false ∨ d.isOn (.slice (seg % 8)) = false) : d.rebuildStrip cols = d := by
  unfold Dev.rebuildStrip
  rw [hlist]
  refine if_pos ?_
  rcases hheld with hen | hon
  · exact .inl hen
  · exact .inr (.inr (.inl hon))

/-- The rebuild list and the budget of the epoch are the same in both. -/
structure SameRebuilds (d e : Dev) : Prop where
  rebuilds : e.drv.rebuilds = d.drv.rebuilds
  epoch : e.drv.rebEpoch = d.drv.rebEpoch
  used : e.drv.rebUsed = d.drv.rebUsed

theorem SameRebuilds.refreshRebuild {d e : Dev} (h : SameRebuilds d e) : SameRebuilds d e.refreshRebuild :=
  ⟨h.rebuilds, h.epoch, h.used⟩

theorem sameRebuilds_of_drv {d e : Dev} (h : e.drv = d.drv) : SameRebuilds d e :=
  ⟨congrArg DrvSt.rebuilds h, congrArg DrvSt.rebEpoch h, congrArg DrvSt.rebUsed h⟩

theorem drv_reconCount (d : Dev) (sl seg : Nat) (y : SolveRun) : (d.reconCount sl seg y).drv = d.drv := by
  unfold Dev.reconCount
  dsimp only
  split
  · rfl
  · exact Dev.cond_induct (fun e => e.drv = d.drv) _ _ _ rfl (fun e h => h)

/-- R300, R408: the strips of a segment leave the list for the erasure unit, and count against the epoch's budget. -/
def rebuildTaken (d : Dev) (seg : Nat) : Dev :=
  { d with
    drv := { d.drv with
      rebuilds := d.drv.rebuilds.filter (fun e => decide (e.1 ≠ seg)), rebEpoch := d.epoch
      rebUsed := ((d.drv.rebuilds.filter (fun e => decide (e.1 = seg))).map (·.2)).length } }

theorem sameRebuilds_rebuildStrip {d : Dev} {seg st : Nat} {t : List (Nat × Nat)} (cols : List StripRead)
    (hlist : d.drv.rebuilds = (seg, st) :: t) (hen : d.flag Reg.DRV_REBUILD_EN = true) (hepoch : d.drv.rebEpoch ≠ d.epoch)
    (hrate : ((d.drv.rebuilds.filter (fun e => decide (e.1 = seg))).map (·.2)).length ≤ d.fld Reg.DRV_REBUILD_RATE)
    (hon : d.isOn (.slice (seg % 8)) = true) (hecu : d.flag (Reg.SLI_ECU_STS_FAULT (seg % 8)) = false) :
    SameRebuilds (rebuildTaken d seg) (d.rebuildStrip cols) := by
  unfold Dev.rebuildStrip
  split
  next hnil => exact absurd (hnil.symm.trans hlist) (by simp)
  next seg' st' t' hcons =>
    obtain ⟨⟨rfl, -⟩, -⟩ : (seg' = seg ∧ st' = st) ∧ t' = t := by simpa [hlist, eq_comm] using hcons
    extract_lets mine used s src d1
    have hused : used = 0 := if_neg hepoch
    have hd1 : d1 = rebuildTaken d seg' := by simp only [d1, hused, Nat.zero_add]; rfl
    have hfree : ¬(d.flag Reg.DRV_REBUILD_EN = false ∨ d.fld Reg.DRV_REBUILD_RATE < used + mine.length ∨ d.isOn (.slice s) = false ∨
        d.flag (Reg.SLI_ECU_STS_FAULT s) = true) := by
      rintro (h | h | h | h)
      · exact Bool.false_ne_true (h.symm.trans hen)
      · rw [hused, Nat.zero_add] at h
        exact absurd h (Nat.not_lt.2 hrate)
      · exact Bool.false_ne_true (h.symm.trans hon)
      · exact Bool.false_ne_true (hecu.symm.trans h)
    rw [if_neg hfree, hd1]
    split
    next => exact SameRebuilds.refreshRebuild ⟨rfl, rfl, rfl⟩
    next x _ =>
      extract_lets y d2
      obtain ⟨hrebuilds, hlast, hcount⟩ : SameRebuilds (rebuildTaken d seg') d2 := sameRebuilds_of_drv (drv_reconCount _ _ _ _)
      split
      next strips _ => exact SameRebuilds.refreshRebuild ⟨hrebuilds, hlast, hcount⟩
      next => exact SameRebuilds.refreshRebuild ⟨hrebuilds, hlast, hcount⟩

/-- R409: the drive's rebuild is done, and source 23 tells how many strips it took. -/
def rebuiltMarked (d : Dev) (a : Nat) : Dev := (d.setFld (Reg.DRV_ATT_STS_REBUILT a) 1).raise 23 a (tget 0 d.drv.rebuilt a) 0

theorem rebuildComplete_of_due {d : Dev} {a : Nat} (h : d.rebuildDue a = true) :
    ∃ c : Bool, d.rebuildComplete a = (rebuiltMarked d a).cond c (fun d => d.setFld Reg.DRV_STS_REBUILDING 0) := by
  unfold Dev.rebuildComplete
  rw [if_pos h]
  exact ⟨_, rfl⟩

theorem rebuildComplete_of_not_due {d : Dev} {a : Nat} (h : d.rebuildDue a = false) : d.rebuildComplete a = d :=
  if_neg (Bool.eq_false_iff.1 h)

theorem flag_rebuilt_rebuiltMarked (d : Dev) (a : Nat) : (rebuiltMarked d a).flag (Reg.DRV_ATT_STS_REBUILT a) = true :=
  decide_eq_true (Dev.fld_setFld_self d (Reg.DRV_ATT_STS_REBUILT a) 1)

theorem key_rebuilding_ne_rebuilt (a : Nat) : Reg.DRV_STS_REBUILDING.key ≠ (Reg.DRV_ATT_STS_REBUILT a).key := by
  simp only [Fld.key, Reg.DRV_STS_REBUILDING, Reg.DRV_ATT_STS_REBUILT]
  omega

/-! ### A segment is reclaimed (R338, R402) -/

theorem segs_ringMark (d : Dev) : d.ringMark.mde.segs = d.mde.segs := by
  unfold Dev.ringMark
  dsimp only
  split
  · split <;> rfl
  · rfl

theorem segs_journal (d : Dev) (b : JBody) : (d.journal b).mde.segs = d.mde.segs := by
  unfold Dev.journal Dev.journalRec
  dsimp only
  rw [segs_ringMark]
  exact Dev.cond_induct (fun e => e.mde.segs = d.mde.segs) _ _ _ rfl (fun e h => h)

theorem mde_resetZones (d : Dev) (a : Nat) : (d.resetZones a).mde = d.mde := by
  unfold Dev.resetZones
  extract_lets x mine zones full
  split
  · rfl
  · exact Dev.each_induct (fun e => e.mde = d.mde) _ _ _ rfl (fun z _ e h => h)

theorem mde_releaseStrip (d : Dev) (seg st a loc : Nat) : (d.releaseStrip seg st a loc).mde = d.mde := by
  unfold Dev.releaseStrip
  extract_lets k d1 d2
  split
  · rw [mde_resetZones]
    rfl
  · exact Dev.cond_induct (fun e => e.mde = d.mde) _ _ _ rfl (fun e h => h)

/-- R338: a reclaim takes the segment's entry out of the table, and no other. -/
theorem segs_segmentReclaim {d : Dev} {seg : Nat} (h : d.reclaimDue seg = true) :
    (d.segmentReclaim seg).mde.segs = tput {} d.mde.segs seg {} := by
  unfold Dev.segmentReclaim
  rw [if_neg (by simp [h])]
  extract_lets d1 d2
  have hsegs : d2.mde.segs = d.mde.segs := by
    unfold d2
    split
    · next x _ =>
      refine Dev.each_induct (fun e => e.mde.segs = d.mde.segs) _ _ _ (segs_journal d _) (fun y _ e he => ?_)
      rw [mde_releaseStrip]
      exact he
    · exact segs_journal d _
  exact congrArg (fun l => tput {} l seg {}) hsegs

theorem segmentReclaim_of_not_due {d : Dev} {seg : Nat} (h : d.reclaimDue seg = false) : d.segmentReclaim seg = d :=
  if_pos h

/-! ### The statement -/

/-- Settles O41, command by command: a round ends as `roundEnd` says, a failed unit's work is asked again, and rebuilds and reclaims act only
when they are due. -/
theorem reconstructionsEnd : Obligations.ReconstructionsEnd := by
  unfold Obligations.ReconstructionsEnd
  intro s
  refine ⟨?_, ?_, ?_, ?_, ?_, ?_⟩
  · rintro r y x round rfl hstep hsolve hseg rfl
    have hend := reconstructionRound_of_solved hstep hsolve hseg
    refine ⟨fun strips hok => ?_, fun e1 hagain => ?_, fun hun hbusy => ?_, fun hun hbusy => ?_⟩
    · exact next_congr s (hend.trans (congrArg (roundEnd s.dev r y) hok))
    · exact next_congr s (hend.trans (congrArg (roundEnd s.dev r y) hagain))
    · exact next_congr s ((hend.trans (congrArg (roundEnd s.dev r y) hun)).trans (if_neg (Bool.eq_false_iff.1 hbusy)))
    · exact next_congr s ((hend.trans (congrArg (roundEnd s.dev r y) hun)).trans (if_pos hbusy))
  · intro sl r h
    exact next_congr s (reconstructionRound_of_not_due h)
  · intro sl hreads
    have hend := erasureUnitFault_of_no_reads sl hreads
    refine ⟨_, next_congr s hend, ?_, fun j hj => ?_, rfl, fun e he hsl => ecu_of_ecuAskedAgain he hsl,
      fun e he => rebSolve_of_ecuAskedAgain he, ecuAskedAgain_ecuMarked_frame rfl⟩
    · rw [flag_ecuAskedAgain, flag_ecuMarked]
    · rw [slice_ecuAskedAgain] at hj
      exact jobs_ecuMarked hj
  · intro seg st t cols hlist
    refine ⟨fun hheld => next_congr s (rebuildStrip_of_held cols hlist hheld), fun hen hepoch hrate hon hecu => ?_⟩
    obtain ⟨hrebuilds, hsince, hused⟩ := sameRebuilds_rebuildStrip cols hlist hen hepoch hrate hon hecu
    exact ⟨_, rfl, hrebuilds, hsince, hused⟩
  · intro a
    refine ⟨fun hdue => ?_, fun hnot => next_congr s (rebuildComplete_of_not_due hnot)⟩
    obtain ⟨c, hc⟩ := rebuildComplete_of_due hdue
    refine ⟨_, next_congr s hc, ?_⟩
    cases c
    · exact ⟨flag_rebuilt_rebuiltMarked s.dev a, rfl, rfl⟩
    · refine ⟨?_, rfl, rfl⟩
      rw [Dev.cond_true, Dev.flag_setFld_ne _ _ _ _ (key_rebuilding_ne_rebuilt a)]
      exact flag_rebuilt_rebuiltMarked s.dev a
  · intro seg
    refine ⟨fun hdue => ?_, fun hnot => next_congr s (segmentReclaim_of_not_due hnot)⟩
    have hsegs := segs_segmentReclaim hdue
    refine ⟨_, rfl, ?_, fun seg' hne => ?_⟩
    · rw [Dev.segEnt, hsegs, tget_tput_self]
    · rw [Dev.segEnt, hsegs, tget_tput_ne _ _ _ _ _ (Ne.symm hne), ← Dev.segEnt]

/-! ### A retired drive's map is released (R409) -/

/-- R409: the drive's free strips are its total, as far as FREE has bits for it. -/
theorem fld_free_of_retireWrite {d : Dev} {a : Nat} (hretired : d.flag (Reg.DRV_ATT_STS_RETIRED a) = true)
    (hrebuilt : d.flag (Reg.DRV_ATT_STS_REBUILT a) = true) :
    (d.retireWrite a false).fld (Reg.DRV_ATT_FREE_FREE a) = d.fld (Reg.DRV_ATT_STRIPS_TOTAL a) % 2 ^ 32 := by
  simp only [Dev.retireWrite, hretired, hrebuilt, Bool.false_eq_true, Bool.true_eq_false, if_false]
  exact Dev.fld_setFld_self _ _ _

theorem exec_retireWrite (a : Nat) (v : Bool) (s : State) : exec (.retireWrite a v) s = lift (fun d => d.retireWrite a v) s := rfl

/-- Drive 0 is retired and rebuilt, and its total of strips is one more than 32 bits can hold. -/
def devTotalPastWidth : Dev :=
  { fields := [((Reg.DRV_ATT_STS_RETIRED 0).key, 1), ((Reg.DRV_ATT_STS_REBUILT 0).key, 1), ((Reg.DRV_ATT_STRIPS_TOTAL 0).key, 2 ^ 32)] }

theorem devTotalPastWidth_reads :
    devTotalPastWidth.flag (Reg.DRV_ATT_STS_RETIRED 0) = true ∧ devTotalPastWidth.flag (Reg.DRV_ATT_STS_REBUILT 0) = true ∧
      devTotalPastWidth.fld (Reg.DRV_ATT_STRIPS_TOTAL 0) = 2 ^ 32 := by decide

/-- Refutes O43: its clause on RETIRE_WRITE of 0 says that FREE then reads what STRIPS reads, but a write cuts FREE to its 32 bits, and the
statement's states include one whose table holds 2^32 for STRIPS. FREE then reads 0. -/
theorem not_preemptsWitnessesRetirementScrubAndTheVaultLog : ¬ Obligations.PreemptsWitnessesRetirementScrubAndTheVaultLog := by
  unfold Obligations.PreemptsWitnessesRetirementScrubAndTheVaultLog
  intro h
  obtain ⟨-, -, -, -, hretire, -⟩ := h { dev := devTotalPastWidth }
  obtain ⟨-, -, -, hrelease⟩ := hretire 0 (by decide)
  obtain ⟨hretired, hrebuilt, htotal⟩ := devTotalPastWidth_reads
  obtain ⟨d, hexec, -, -, -, hfree, -⟩ := hrelease hretired hrebuilt
  rw [exec_retireWrite] at hexec
  rw [← eq_of_lift_eq_next hexec, fld_free_of_retireWrite hretired hrebuilt, htotal] at hfree
  exact absurd hfree (by decide)

end Sys2Proof.Machine.Travertine
end
